-- ==== Sys2Proof/Word.lean ====
section
/-! DEFINITION. Word types and the plain list store of keyed values. -/

namespace Sys2Proof

/-- A 32-bit word: general registers and control registers (R40, R209). -/
abbrev Word := BitVec 32
/-- A 64-bit word: a register pair, an aligned memory word (R40, R216). -/
abbrev DWord := BitVec 64
/-- One byte of a data space. -/
abbrev Byte := BitVec 8
/-- A 512-bit vector register (R34). -/
abbrev VReg := BitVec 512
/-- A global core ID (R17); it also names the D-mesh and S-mesh router at the same position. -/
abbrev CoreId := BitVec 11
/-- The number of a general or vector register. -/
abbrev Reg := BitVec 5
/-- A Spire number S0 to S63. -/
abbrev Spire := BitVec 6
/-- A quadrant number Q0 to Q3. -/
abbrev Quad := BitVec 2
/-- A Skybridge port number. -/
abbrev Port := BitVec 3
/-- A command ring number (R410). -/
abbrev Ring := BitVec 8
/-- A Belfry core: quadrant in [3:2], core of the cluster in [1:0]. -/
abbrev BCore := BitVec 4

/-- Keyed values, the keys strictly rising; a key that is not listed holds the reader's default. -/
abbrev Store (α : Type) := List (Nat × α)

end Sys2Proof
end

