-- ==== Sys2Proof/Syntax.lean ====
section
/-! DEFINITION. The commands of the block: one constructor per row of the opcode table, with the row's operands.
The sender supplies the operands; instruction commands carry the issuing thread and the condition field. -/

namespace Sys2Proof

/-- The header every compute-core instruction command carries: which thread issues it and its condition code
(R46, R50). -/
structure Iss where
  core : CoreId
  thread : BitVec 2
  cond : BitVec 4
  deriving DecidableEq, Repr

/-- A hardware thread: its core and its number in the core (R14). -/
structure Tid where
  core : CoreId
  thread : BitVec 2
  deriving DecidableEq, Repr

/-- Who makes a control-space access (R209, R313): a compute thread, a Belfry core, the host through BAR0 of a
function (0 is the PF), or JTAG. -/
inductive Agent where
  | thread (t : Tid)
  | belfry (b : BCore)
  | host (fn : BitVec 4)
  | jtag
  deriving DecidableEq, Repr

/-- The count operand of `loop`: an 11-bit immediate or a register (R47, R58). -/
inductive LoopCount where
  | imm (n : BitVec 11)
  | reg (r : Reg)
  deriving DecidableEq, Repr

/-- Who runs a stream: a slot of a core's stream engine (R283) or a stream of a Turret (R294). -/
inductive Engine where
  | core (c : CoreId) (slot : BitVec 4)
  | turret (sp : Spire) (n : BitVec 7)
  deriving DecidableEq, Repr

/-- What a master asks in an SMBus Block Read: the command code, and whether it clocks one more byte, for the packet error
code (R515). -/
structure SmbusAsk where
  code : Byte
  pec : Bool
  deriving DecidableEq, Repr

/-- Bytes [lo, lo + n) of a stream's row (R216, R222). -/
structure RowPart where
  row : Nat
  lo : Nat
  n : Nat
  deriving DecidableEq, Repr

/-- The window caches of R206. -/
inductive WinCache where
  | core (c : CoreId)
  | turret (sp : Spire)
  | belfry (q : Quad)
  | fxb (q : Quad)
  deriving DecidableEq, Repr

/-- Who waits for the answer to a request: a compute thread or a Belfry core (R20, R309). -/
inductive Hart where
  | thread (t : Tid)
  | belfry (b : BCore)
  deriving DecidableEq, Repr

/-- What repeats itself 64 cc after a RETRY answer (R311). -/
inductive RetryOf where
  | swait (who : Hart)
  | watch (t : Tid) (k : BitVec 3)
  | belfryWatch (q : Quad) (n : BitVec 9)
  deriving DecidableEq, Repr

/-- What a router's check of a sampled packet finds (R275). -/
inductive HopError where
  | none
  | single
  | dataWord (k : Nat)
  | header
  deriving DecidableEq, Repr

/-- The three unit queues of a core (R38). -/
inductive UnitQ where
  | vector | matrix | mv
  deriving DecidableEq, Repr

/-- Who issues an instruction that both kinds of core know: a Belfry core or a compute thread (R20, R91, R94, R119, R121,
R226, R304, R318). -/
inductive By where
  | belfry (b : BCore)
  | compute (i : Iss)
  deriving DecidableEq, Repr

/-- Where an error of R228 is found: a word of Far or the Drum, which the background scrub reaches, a word that a read
finds bad, or a register; a cache line's data or, with `tag`, its tag; a translation. -/
inductive ScrubLoc where
  | far (word : BitVec 37)
  | drum (sp : Spire) (word : BitVec 20)
  | localMem (c : CoreId) (word : BitVec 17)
  | tile (c : CoreId) (code : BitVec 5) (word : BitVec 9)
  | gReg (t : Tid) (r : Reg)
  | vReg (t : Tid) (r : Reg)
  | queue (t : Tid) (n : BitVec 2) (k : BitVec 5)
  | icache (c : CoreId) (line : Nat) (tag : Bool)
  | pcache (sp : Spire) (line : Nat) (tag : Bool)
  | window (c : WinCache) (tenant : BitVec 4) (granule : BitVec 27)
  | belfryL1 (b : BCore) (tag : Bool)
  | belfryL2 (q : Quad) (line : Nat) (word : BitVec 3) (tag : Bool)
  deriving DecidableEq, Repr

/-- The inputs of an S-mesh router (R230): a neighbour N, E, S, W, an express link, or the core port. -/
inductive SDir where
  | n | e | s | w | xe | xw | xn | xs
  deriving DecidableEq, Repr

/-- What the parity of a sampled flit shows (R235). -/
inductive FlitError where
  | framing
  | word (k : BitVec 3)
  deriving DecidableEq, Repr

/-- A sampled S-mesh input with wrong parity: the link and where (R235). -/
structure Sampled where
  dir : SDir
  err : FlitError
  deriving DecidableEq, Repr

/-- The wake causes of a dozing Spire (R346). -/
inductive WakeCause where
  | edgeNotice | packet | source | answer
  deriving DecidableEq, Repr

/-- A Skybridge packet: the header fields of R375, whether its end-to-end check holds at the destination, and its
data bytes. [DESIGN CHOICE, log 10] -/
structure SkbPacket where
  dst : BitVec 10
  src : BitVec 10
  ptype : BitVec 4
  tenant : BitVec 4
  epoch : Byte
  tag : BitVec 16
  poison : Bool
  addr : BitVec 64
  arg : BitVec 64
  e2eOk : Bool
  data : List Byte
  deriving DecidableEq, Repr

/-- Bytes that a read of host memory returned; `none` where the read failed. -/
abbrev HostData := Option (List Byte)

/-- The result of one bridge edge's calibration (R446). -/
structure BridgeCal where
  spares : Byte
  ok : Bool
  deriving DecidableEq, Repr

/-- What the flash holds in one boot slot: a 512-byte header and a body (R480, R481). -/
structure SlotImage where
  header : List Byte
  body : List Byte
  deriving DecidableEq, Repr

/-- The JTAG instructions of R492. -/
inductive JtagOp where
  | bypass
  | idcode
  | sample
  | extest
  | access (addr : BitVec 32) (wr : Option Word)
  deriving DecidableEq, Repr

/-- What fails in service (R264, R28 to R31). -/
inductive Failure where
  | domain (n : Fin 96)
  | pdm
  deriving DecidableEq, Repr

/-- The generations of the host link (R403). -/
inductive LinkGen where
  | gen4 | gen5 | gen6
  deriving DecidableEq, Repr

/-- The widths of the host link (R403). -/
inductive LinkWidth where
  | x4 | x8 | x16
  deriving DecidableEq, Repr

/-- The commands of the device, one per row of the opcode table. [DESIGN CHOICE, log 1] -/
inductive Instr where
  /-- ADD (R65). Scalar add of two g registers, setting flags when F is set. -/
  | add (i : Iss) (f : Bool) (d : Reg) (a : Reg) (b : Reg)
  /-- SUB (R65). Scalar subtract, setting flags when F is set. -/
  | sub (i : Iss) (f : Bool) (d : Reg) (a : Reg) (b : Reg)
  /-- ADC (R65). Add with carry. -/
  | adc (i : Iss) (f : Bool) (d : Reg) (a : Reg) (b : Reg)
  /-- SBC (R65). Subtract with borrow. -/
  | sbc (i : Iss) (f : Bool) (d : Reg) (a : Reg) (b : Reg)
  /-- AND (R65). Bitwise and. -/
  | andOp (i : Iss) (f : Bool) (d : Reg) (a : Reg) (b : Reg)
  /-- OR (R65). Bitwise or. -/
  | orOp (i : Iss) (f : Bool) (d : Reg) (a : Reg) (b : Reg)
  /-- XOR (R65). Bitwise exclusive or. -/
  | xor (i : Iss) (f : Bool) (d : Reg) (a : Reg) (b : Reg)
  /-- ANDN (R65). a and not b. -/
  | andn (i : Iss) (f : Bool) (d : Reg) (a : Reg) (b : Reg)
  /-- SHL (R52). Shift left by b[4:0], with the carry rule for flags. -/
  | shl (i : Iss) (f : Bool) (d : Reg) (a : Reg) (b : Reg)
  /-- SHR (R52). Logical shift right. -/
  | shr (i : Iss) (f : Bool) (d : Reg) (a : Reg) (b : Reg)
  /-- SAR (R52). Arithmetic shift right. -/
  | sar (i : Iss) (f : Bool) (d : Reg) (a : Reg) (b : Reg)
  /-- ROL (R52). Rotate left. -/
  | rol (i : Iss) (f : Bool) (d : Reg) (a : Reg) (b : Reg)
  /-- MUL (R39). Low word of product, available 3 cc after issue. -/
  | mul (i : Iss) (f : Bool) (d : Reg) (a : Reg) (b : Reg)
  /-- MULHS (R39). High word of the signed product. -/
  | mulhs (i : Iss) (f : Bool) (d : Reg) (a : Reg) (b : Reg)
  /-- MULHU (R39). High word of the unsigned product. -/
  | mulhu (i : Iss) (f : Bool) (d : Reg) (a : Reg) (b : Reg)
  /-- DIV (R52). Signed quotient rounded toward zero, with the zero-divisor rule. -/
  | div (i : Iss) (f : Bool) (d : Reg) (a : Reg) (b : Reg)
  /-- DIVU (R52). Unsigned quotient. -/
  | divu (i : Iss) (f : Bool) (d : Reg) (a : Reg) (b : Reg)
  /-- REM (R52). Signed remainder. -/
  | rem (i : Iss) (f : Bool) (d : Reg) (a : Reg) (b : Reg)
  /-- REMU (R52). Unsigned remainder. -/
  | remu (i : Iss) (f : Bool) (d : Reg) (a : Reg) (b : Reg)
  /-- MIN (R65). Signed minimum. -/
  | min (i : Iss) (f : Bool) (d : Reg) (a : Reg) (b : Reg)
  /-- MAX (R65). Signed maximum. -/
  | max (i : Iss) (f : Bool) (d : Reg) (a : Reg) (b : Reg)
  /-- MINU (R65). Unsigned minimum. -/
  | minu (i : Iss) (f : Bool) (d : Reg) (a : Reg) (b : Reg)
  /-- MAXU (R65). Unsigned maximum. -/
  | maxu (i : Iss) (f : Bool) (d : Reg) (a : Reg) (b : Reg)
  /-- CLZ (R65). Count leading zeros of a. -/
  | clz (i : Iss) (f : Bool) (d : Reg) (a : Reg)
  /-- POPC (R65). Count set bits of a. -/
  | popc (i : Iss) (f : Bool) (d : Reg) (a : Reg)
  /-- SEXTB (R65). Sign-extend a byte. -/
  | sextb (i : Iss) (f : Bool) (d : Reg) (a : Reg)
  /-- SEXTH (R65). Sign-extend a half-word. -/
  | sexth (i : Iss) (f : Bool) (d : Reg) (a : Reg)
  /-- MOV (R65). Copy register a to d. -/
  | mov (i : Iss) (f : Bool) (d : Reg) (a : Reg)
  /-- ADDI (R47). Add a sign-extended immediate. -/
  | addi (i : Iss) (d : Reg) (a : Reg) (imm : BitVec 12)
  /-- ANDI (R47). And with a zero-extended immediate. -/
  | andi (i : Iss) (d : Reg) (a : Reg) (imm : BitVec 12)
  /-- ORI (R47). Or with a zero-extended immediate. -/
  | ori (i : Iss) (d : Reg) (a : Reg) (imm : BitVec 12)
  /-- XORI (R47). Exclusive or with a zero-extended immediate. -/
  | xori (i : Iss) (d : Reg) (a : Reg) (imm : BitVec 12)
  /-- SHLI (R48). Shift left by an immediate amount. -/
  | shli (i : Iss) (d : Reg) (a : Reg) (amt : BitVec 5)
  /-- SHRI (R48). Logical shift right by an immediate amount. -/
  | shri (i : Iss) (d : Reg) (a : Reg) (amt : BitVec 5)
  /-- SARI (R48). Arithmetic shift right by an immediate amount. -/
  | sari (i : Iss) (d : Reg) (a : Reg) (amt : BitVec 5)
  /-- ROLI (R48). Rotate left by an immediate amount. -/
  | roli (i : Iss) (d : Reg) (a : Reg) (amt : BitVec 5)
  /-- CMPI (R52). Set flags from a minus a sign-extended immediate. -/
  | cmpi (i : Iss) (a : Reg) (imm : BitVec 12)
  /-- MOVL (R47). Write a zero-extended 16-bit immediate to d. -/
  | movl (i : Iss) (d : Reg) (imm : BitVec 16)
  /-- MOVH (R47). Write an immediate to d[31:16], keeping d[15:0]. -/
  | movh (i : Iss) (d : Reg) (imm : BitVec 16)
  /-- CMP (R52). Set flags from a minus b. -/
  | cmp (i : Iss) (a : Reg) (b : Reg)
  /-- TST (R52). Set flags from a and b. -/
  | tst (i : Iss) (a : Reg) (b : Reg)
  /-- PCMP (R52). Evaluate a condition on a minus b into a predicate without writing flags. -/
  | pcmp (i : Iss) (cnd : BitVec 4) (d : Reg) (a : Reg) (b : Reg)
  /-- PSET (R65). Set a predicate to a not equal to zero. -/
  | pset (i : Iss) (d : Reg) (a : Reg)
  /-- PNOT (R65). Invert a predicate. -/
  | pnot (i : Iss) (d : Reg)
  /-- PMOV (R65). Write p0 + 2 times p1 to d. -/
  | pmov (i : Iss) (d : Reg)
  /-- LD (R53). Sign-extending Local load under the instruction-counted load delay. -/
  | ld (i : Iss) (d : Reg) (base : Reg) (size : BitVec 2) (off : BitVec 10)
  /-- LDU (R53). Zero-extending Local load under the load delay. -/
  | ldu (i : Iss) (d : Reg) (base : Reg) (size : BitVec 2) (off : BitVec 10)
  /-- ST (R49). Local store, stalling until its bank is free. -/
  | st (i : Iss) (d : Reg) (base : Reg) (size : BitVec 2) (off : BitVec 10)
  /-- LOAD_DATA_ARRIVAL (R54). Data of a scalar or vector load reaches the core after bank and port waits and is written under the load delay. -/
  | loadDataArrival (th : Tid) (n : Nat)
  /-- ASWAP (R77). Scoped atomic swap at the word's home. -/
  | aswap (who : By) (wide : Bool) (scope : BitVec 3) (d : Reg) (a : Reg) (b : Reg)
  /-- ACAS (R77). Scoped atomic compare and swap. -/
  | acas (who : By) (wide : Bool) (scope : BitVec 3) (d : Reg) (a : Reg) (b : Reg)
  /-- AADD (R77). Scoped atomic integer add. -/
  | aadd (who : By) (wide : Bool) (scope : BitVec 3) (d : Reg) (a : Reg) (b : Reg)
  /-- AAND (R77). Scoped atomic and. -/
  | aand (who : By) (wide : Bool) (scope : BitVec 3) (d : Reg) (a : Reg) (b : Reg)
  /-- AOR (R77). Scoped atomic or. -/
  | aor (who : By) (wide : Bool) (scope : BitVec 3) (d : Reg) (a : Reg) (b : Reg)
  /-- AXOR (R77). Scoped atomic exclusive or. -/
  | axor (who : By) (wide : Bool) (scope : BitVec 3) (d : Reg) (a : Reg) (b : Reg)
  /-- AMIN (R77). Scoped atomic signed minimum. -/
  | amin (who : By) (wide : Bool) (scope : BitVec 3) (d : Reg) (a : Reg) (b : Reg)
  /-- AMAX (R77). Scoped atomic signed maximum. -/
  | amax (who : By) (wide : Bool) (scope : BitVec 3) (d : Reg) (a : Reg) (b : Reg)
  /-- AMINU (R77). Scoped atomic unsigned minimum. -/
  | aminu (who : By) (wide : Bool) (scope : BitVec 3) (d : Reg) (a : Reg) (b : Reg)
  /-- AMAXU (R77). Scoped atomic unsigned maximum. -/
  | amaxu (who : By) (wide : Bool) (scope : BitVec 3) (d : Reg) (a : Reg) (b : Reg)
  /-- ALOAD (R77). Scoped atomic read. -/
  | aload (who : By) (wide : Bool) (scope : BitVec 3) (d : Reg) (a : Reg) (b : Reg)
  /-- ASTORE (R77). Scoped atomic store returning the old value. -/
  | astore (who : By) (wide : Bool) (scope : BitVec 3) (d : Reg) (a : Reg) (b : Reg)
  /-- AFADD (R79). Scoped atomic IEEE add at the word's home, nearest-even, no flags. -/
  | afadd (who : By) (wide : Bool) (scope : BitVec 3) (d : Reg) (a : Reg) (b : Reg)
  /-- ATOMIC_RESPONSE (R79). The old value of a remote atomic returns and unblocks the thread, or its refusal faults it. -/
  | atomicResponse (id : Nat)
  /-- B (R60). Relative branch, abandoning loop levels whose body excludes the target. -/
  | b (i : Iss) (off : BitVec 22)
  /-- BL (R60). Relative call linking in g30, abandoning no loop level. -/
  | bl (i : Iss) (off : BitVec 22)
  /-- JR (R60). Jump to register a. -/
  | jr (i : Iss) (a : Reg)
  /-- JALR (R60). Jump to register a, linking in g30. -/
  | jalr (i : Iss) (a : Reg)
  /-- RET (R60). Jump to g30. -/
  | ret (i : Iss)
  /-- LOOP (R58). Open a hardware loop level, or skip the body when the count is 0. -/
  | loop (i : Iss) (cnt : LoopCount) (len : BitVec 10)
  /-- NOP (R65). Do nothing. -/
  | nop (i : Iss)
  /-- WAIT (R66). Sleep until the wake set is non-empty, or complete at once. -/
  | wait (i : Iss) (d : Reg)
  /-- WAIT_WAKE (R66). A sleeping wait sees its wake set become non-empty, writes it to gd and continues. -/
  | waitWake (th : Tid)
  /-- TICK_END (R68). Drain the thread's unit queues, report done and enter tick sleep. -/
  | tickEnd (i : Iss)
  /-- TRAP (R95). Software exception delivering vector 0x80 + n. -/
  | trap (who : By) (n : BitVec 7) (low : BitVec 8)
  /-- ERET (R106). Return from a handler, from the shadow bank or from the frame. -/
  | eret (who : By)
  /-- SAVESHADOW (R104). Write the 176-byte frame and leave the shadow window. -/
  | saveshadow (i : Iss)
  /-- DESC_SYNC (R98). Reload the Lantern's descriptor copies from the table. -/
  | descSync (i : Iss) (a : Reg)
  /-- IPRELOAD (R88). Load a code range into one instruction-cache way. -/
  | ipreload (i : Iss) (d : Reg) (a : Reg) (b : Reg)
  /-- FENCE_L (R73). Stall until the thread's Local accesses are performed. -/
  | fenceL (i : Iss)
  /-- FENCE_S (R74). Stall until the thread's streams complete, setting V on fault or poison. -/
  | fenceS (i : Iss)
  /-- FENCE_D (R75). Stall until the thread's D-mesh requests are acknowledged. -/
  | fenceD (i : Iss)
  /-- BRK (R499). Raise BREAKPOINT through the thread's descriptor. -/
  | brk (who : By)
  /-- HALT (R65). Machine disables the issuing thread. -/
  | halt (i : Iss)
  /-- CTLR (R80). Read a control register. -/
  | ctlr (who : By) (g : Reg) (num : BitVec 12)
  /-- CTLW (R80). Write a control register. -/
  | ctlw (who : By) (g : Reg) (num : BitVec 12)
  /-- CTLS (R80). Set bits of a control register. -/
  | ctls (who : By) (g : Reg) (num : BitVec 12)
  /-- CTLC (R80). Clear bits of a control register. -/
  | ctlc (who : By) (g : Reg) (num : BitVec 12)
  /-- CTLRX (R81). Read a control-space register over the D-mesh, blocking. -/
  | ctlrx (i : Iss) (g : Reg) (a : Reg) (low : BitVec 7)
  /-- CTLWX (R81). Posted write of a control-space register over the D-mesh. -/
  | ctlwx (i : Iss) (g : Reg) (a : Reg) (low : BitVec 7)
  /-- CTLRX_RESPONSE (R81). The value of a ctlrx returns and unblocks the thread. -/
  | ctlrxResponse (th : Tid)
  /-- CONTROL_WRITE_ARRIVAL (R313). A posted control write reaches its block and is performed or refused. -/
  | controlWriteArrival (id : Nat)
  /-- CHOPEN (R83). Open a channel to an endpoint, blocking for the answer. -/
  | chopen (i : Iss) (d : Reg) (a : Reg) (b : Reg)
  /-- CHOPEN_REQUEST (R83). An open request reaches an endpoint, which grants an opener slot or refuses. -/
  | chopenRequest (id : Nat)
  /-- CHOPEN_REPLY (R83). The endpoint's answer reaches the opener, giving a handle or 0xFFFF_FFFF. -/
  | chopenReply (id : Nat)
  /-- CHCLOSE (R86). Close a send handle after its messages are acknowledged. -/
  | chclose (i : Iss) (d : Reg) (a : Reg) (b : Reg)
  /-- SEND (R84). Send 1 to 8 words on a handle once credit is held. -/
  | send (i : Iss) (d : Reg) (a : Reg) (b : Reg)
  /-- SENDV (R84). Send the 8 words of a vector register. -/
  | sendv (i : Iss) (d : Reg) (a : Reg) (b : Reg)
  /-- SEND_TIMEOUT_EXPIRY (R84). A send blocked for credit reaches SEND_TIMEOUT and returns TIMEOUT. -/
  | sendTimeoutExpiry (th : Tid)
  /-- RECV (R85). Pop one word of an endpoint, stalling when empty. -/
  | recv (i : Iss) (d : Reg) (a : Reg) (b : Reg)
  /-- RECV_NB (R85). Pop one word or set Z when empty. -/
  | recvNb (i : Iss) (d : Reg) (a : Reg) (b : Reg)
  /-- RECVV (R85). Pop 8 words into a vector register. -/
  | recvv (i : Iss) (d : Reg) (a : Reg) (b : Reg)
  /-- CHANNEL_MESSAGE_ARRIVAL (R278). A channel message reaches its endpoint and is queued, or discarded as closed or stale. -/
  | channelMessageArrival (id : Nat)
  /-- CREDIT_RETURN (R279). Popped credits reach the opener's handle. -/
  | creditReturn (id : Nat)
  /-- EPCFG_DISABLE (R280). Clearing EPCFG.EN closes every opener and sends close notices. -/
  | epcfgDisable (th : Tid) (n : BitVec 2)
  /-- CLOSE_NOTICE (R280). An endpoint's close notice reaches the opener's core, releasing the handle. -/
  | closeNotice (id : Nat)
  /-- DMESH_ACK_ARRIVAL (R75). An acknowledgement of a posted D-mesh request returns, with any CLOSED or STALE_EPOCH status. -/
  | dmeshAckArrival (id : Nat)
  /-- POSTED_REFUSAL (R313). A refused posted request's acknowledgement is taken as a synchronous exception at the next boundary. -/
  | postedRefusal (th : Tid)
  /-- DMESH_PACKET_HOP (R275). A router samples a D-mesh packet, corrects or poisons words, and forwards or discards it. -/
  | dmeshPacketHop (id : Nat) (err : HopError)
  /-- SIG (R307). Posted signed add to a counter. -/
  | sig (who : By) (d : Reg) (a : Reg) (b : Reg)
  /-- SIGP (R307). Posted signed add that also poisons the counter. -/
  | sigp (who : By) (d : Reg) (a : Reg) (b : Reg)
  /-- SWAIT (R309). Wait until a counter reaches a target, with optional timeout. -/
  | swait (who : By) (d : Reg) (a : Reg) (b : Reg)
  /-- LOCK (R318). Acquire a ranked lock, with optional timeout. -/
  | lock (who : By) (d : Reg) (a : Reg) (b : Reg)
  /-- UNLOCK (R318). Posted release of a held lock. -/
  | unlock (who : By) (d : Reg) (a : Reg) (b : Reg)
  /-- COUNTER_SIGNAL (R307). The Cupola performs a signal from a thread, stream, entry or slot, answering waiters and watches. -/
  | counterSignal (id : Nat)
  /-- SWAIT_REQUEST (R309). The Cupola judges an swait, answering at once or taking a waiter entry or RETRY. -/
  | swaitRequest (id : Nat)
  /-- SWAIT_RETRY (R311). 64 cc after a RETRY answer the core repeats the swait or watch registration. -/
  | swaitRetry (who : RetryOf)
  /-- SWAIT_ANSWER (R309). The Cupola's answer reaches the core and completes the swait. -/
  | swaitAnswer (id : Nat)
  /-- SWAIT_TIMEOUT (R310). The swait timeout expires, withdrawing the waiter and reporting TIMEOUT. -/
  | swaitTimeout (who : Hart)
  /-- WAITER_WITHDRAWAL (R319). A withdrawal reaches the Cupola, freeing the entry or acting as unlock after a grant. -/
  | waiterWithdrawal (id : Nat)
  /-- LOCK_REQUEST (R318). The Cupola grants, queues or refuses a lock request by rank. -/
  | lockRequest (id : Nat)
  /-- UNLOCK_REQUEST (R318). The Cupola releases a lock and grants the next waiter, or refuses LOCK_NOT_HELD. -/
  | unlockRequest (id : Nat)
  /-- LOCK_GRANT (R318). A grant reaches the requesting core and completes lock. -/
  | lockGrant (id : Nat)
  /-- LOCK_TIMEOUT (R319). The lock timeout expires, withdrawing the request. -/
  | lockTimeout (who : Hart)
  /-- WATCH_REGISTRATION (R311). The Cupola registers, replaces or refuses a counter watch and sends the initial event. -/
  | watchRegistration (id : Nat)
  /-- WATCH_EVENT (R311). An above or below event reaches the watcher and sets its level source. -/
  | watchEvent (id : Nat)
  /-- DISPATCH_SLOT_START (R322). The lowest ready slot dispatches its thread at ENTRY in Supervisor. -/
  | dispatchSlotStart (sp : Spire)
  /-- CUP_DONE_WRITE (R324). The running thread ends its task and the done counter is signalled. -/
  | cupDoneWrite (th : Tid) (sp : Spire) (slot : BitVec 6)
  /-- CUP_DCTL_VALID (R321). Arm a dispatch slot to WAITING. -/
  | cupDctlValid (ag : Agent) (sp : Spire) (slot : BitVec 6) (v : Word)
  /-- CUP_DCTL_CANCEL (R326). Cancel a WAITING slot, signalling its done counter with poison. -/
  | cupDctlCancel (ag : Agent) (sp : Spire) (slot : BitVec 6) (v : Word)
  /-- CUP_BREAK_GO (R320). Release a departed thread's locks with BROKEN and remove its requests. -/
  | cupBreakGo (ag : Agent) (sp : Spire) (v : Word)
  /-- CUP_CVAL_WRITE (R328). Set a counter value and re-evaluate waiters, watches and slots. -/
  | cupCvalWrite (ag : Agent) (sp : Spire) (n : BitVec 10) (v : Word)
  /-- CUP_CSTAT_POISON_CLEAR (R312). Clear a counter's poison bit. -/
  | cupCstatPoisonClear (ag : Agent) (sp : Spire) (n : BitVec 10) (v : Word)
  /-- BELFRY_WATCH_WRITE (R327). Register, replace or withdraw a Belfry counter watch. -/
  | belfryWatchWrite (ag : Agent) (q : Quad) (n : BitVec 9) (tgt : Bool) (v : Word)
  /-- SISSUE (R284). Validate a stream descriptor and start it in a free slot. -/
  | sissue (i : Iss) (d : Reg) (a : Reg)
  /-- SSTAT (R284). Read the status word of a stream slot. -/
  | sstat (i : Iss) (d : Reg) (a : Reg)
  /-- SCANCEL (R284). Cancel the issuer's own stream in a slot. -/
  | scancel (i : Iss) (a : Reg)
  /-- STREAM_READ_DATA (R287). Read data of a stream row returns and is converted and written onward. -/
  | streamReadData (e : Engine) (part : RowPart)
  /-- GATHER_LIST_READ (R332). A read of index-list entries returns and indexed rows are issued. -/
  | gatherListRead (e : Engine)
  /-- STREAM_WRITE_ACK (R290). A write of a stream is acknowledged at its destination. -/
  | streamWriteAck (e : Engine) (part : RowPart)
  /-- STREAM_TIMEOUT (R291). A stream's timeout expires and it ends with TIMEOUT. -/
  | streamTimeout (e : Engine)
  /-- WINDOW_TABLE_READ (R206). A window cache miss reads the entry from Far and caches or faults it. -/
  | windowTableRead (cache : WinCache) (tenant : BitVec 4) (granule : BitVec 27)
  /-- TALLOC (R70). Allocate tiles and accumulators, or report conflicts. -/
  | talloc (i : Iss) (d : Reg) (a : Reg)
  /-- TREL (R71). Release tiles and accumulators after their queued users complete. -/
  | trel (i : Iss) (a : Reg)
  /-- TEMPTY (R71). Read the empty flags of the thread's tiles. -/
  | tempty (i : Iss) (d : Reg)
  /-- TILE_BANK_POWER_GATE (R164). An unallocated tile bank gates after 64 cycles with GATE set. -/
  | tileBankPowerGate (core : CoreId) (bank : BitVec 5)
  /-- VADD (R125). Vector add. -/
  | vadd (i : Iss) (ty : BitVec 3) (d : Reg) (a : Reg) (b : Reg)
  /-- VSUB (R125). Vector subtract. -/
  | vsub (i : Iss) (ty : BitVec 3) (d : Reg) (a : Reg) (b : Reg)
  /-- VMUL (R125). Vector multiply. -/
  | vmul (i : Iss) (ty : BitVec 3) (d : Reg) (a : Reg) (b : Reg)
  /-- VDIV (R39). Vector divide. -/
  | vdiv (i : Iss) (ty : BitVec 3) (d : Reg) (a : Reg) (b : Reg)
  /-- VSQRT (R39). Vector square root. -/
  | vsqrt (i : Iss) (ty : BitVec 3) (d : Reg) (a : Reg) (b : Reg)
  /-- VMIN (R127). Vector IEEE minimum. -/
  | vmin (i : Iss) (ty : BitVec 3) (d : Reg) (a : Reg) (b : Reg)
  /-- VMAX (R127). Vector IEEE maximum. -/
  | vmax (i : Iss) (ty : BitVec 3) (d : Reg) (a : Reg) (b : Reg)
  /-- VABS (R65). Vector absolute value. -/
  | vabs (i : Iss) (ty : BitVec 3) (d : Reg) (a : Reg) (b : Reg)
  /-- VNEG (R65). Vector negate. -/
  | vneg (i : Iss) (ty : BitVec 3) (d : Reg) (a : Reg) (b : Reg)
  /-- VAND (R62). Vector bitwise and. -/
  | vand (i : Iss) (ty : BitVec 3) (d : Reg) (a : Reg) (b : Reg)
  /-- VOR (R62). Vector bitwise or. -/
  | vor (i : Iss) (ty : BitVec 3) (d : Reg) (a : Reg) (b : Reg)
  /-- VXOR (R62). Vector bitwise exclusive or. -/
  | vxor (i : Iss) (ty : BitVec 3) (d : Reg) (a : Reg) (b : Reg)
  /-- VSHL (R65). Vector shift left. -/
  | vshl (i : Iss) (ty : BitVec 3) (d : Reg) (a : Reg) (b : Reg)
  /-- VSHR (R65). Vector logical shift right. -/
  | vshr (i : Iss) (ty : BitVec 3) (d : Reg) (a : Reg) (b : Reg)
  /-- VSAR (R65). Vector arithmetic shift right. -/
  | vsar (i : Iss) (ty : BitVec 3) (d : Reg) (a : Reg) (b : Reg)
  /-- VFMA (R65). Vector fused multiply-add vd = va times vb + vd. -/
  | vfma (i : Iss) (ty : BitVec 3) (d : Reg) (a : Reg) (b : Reg)
  /-- VFMS (R65). Vector fused multiply-subtract. -/
  | vfms (i : Iss) (ty : BitVec 3) (d : Reg) (a : Reg) (b : Reg)
  /-- VFNMA (R65). Vector negated fused multiply-add. -/
  | vfnma (i : Iss) (ty : BitVec 3) (d : Reg) (a : Reg) (b : Reg)
  /-- VFMA_P (R149). Add exact FP32 products into compensated pairs. -/
  | vfmaP (i : Iss) (ty : BitVec 3) (d : Reg) (a : Reg) (b : Reg)
  /-- VCEQ (R65). Vector compare equal to lane masks. -/
  | vceq (i : Iss) (ty : BitVec 3) (d : Reg) (a : Reg) (b : Reg)
  /-- VCNE (R65). Vector compare not equal. -/
  | vcne (i : Iss) (ty : BitVec 3) (d : Reg) (a : Reg) (b : Reg)
  /-- VCLT (R65). Vector compare less than. -/
  | vclt (i : Iss) (ty : BitVec 3) (d : Reg) (a : Reg) (b : Reg)
  /-- VCLE (R65). Vector compare less or equal. -/
  | vcle (i : Iss) (ty : BitVec 3) (d : Reg) (a : Reg) (b : Reg)
  /-- VCUN (R65). Vector compare unordered. -/
  | vcun (i : Iss) (ty : BitVec 3) (d : Reg) (a : Reg) (b : Reg)
  /-- VSEL (R65). Vector select by mask. -/
  | vsel (i : Iss) (ty : BitVec 3) (d : Reg) (a : Reg) (b : Reg)
  /-- VBCAST (R65). Broadcast a g register into every lane. -/
  | vbcast (i : Iss) (ty : BitVec 3) (d : Reg) (a : Reg) (b : Reg)
  /-- VEXT (R65). Extract a lane into a g register. -/
  | vext (i : Iss) (ty : BitVec 3) (d : Reg) (a : Reg) (b : Reg)
  /-- VINS (R65). Insert a g register into a lane. -/
  | vins (i : Iss) (ty : BitVec 3) (d : Reg) (a : Reg) (b : Reg)
  /-- VPERM (R65). Permute lanes by indices. -/
  | vperm (i : Iss) (ty : BitVec 3) (d : Reg) (a : Reg) (b : Reg)
  /-- VROT (R65). Rotate lanes. -/
  | vrot (i : Iss) (ty : BitVec 3) (d : Reg) (a : Reg) (b : Reg)
  /-- VZIP (R65). Interleave lanes. -/
  | vzip (i : Iss) (ty : BitVec 3) (d : Reg) (a : Reg) (b : Reg)
  /-- VUNZIP (R65). De-interleave lanes. -/
  | vunzip (i : Iss) (ty : BitVec 3) (d : Reg) (a : Reg) (b : Reg)
  /-- VMOV (R65). Copy a vector register. -/
  | vmov (i : Iss) (ty : BitVec 3) (d : Reg) (a : Reg) (b : Reg)
  /-- VZERO (R65). Zero a vector register. -/
  | vzero (i : Iss) (ty : BitVec 3) (d : Reg) (a : Reg) (b : Reg)
  /-- VLD (R64). Vector load of 64 bytes under the vector load delay. -/
  | vld (i : Iss) (d : Reg) (base : Reg) (off : BitVec 10)
  /-- VST (R64). Vector store of 64 bytes. -/
  | vst (i : Iss) (d : Reg) (base : Reg) (off : BitVec 10)
  /-- VLDB (R64). Load one 64-bit word into every 64-bit lane. -/
  | vldb (i : Iss) (d : Reg) (base : Reg) (off : BitVec 10)
  /-- VGATHER (R63). Guarded gather of Local elements by per-lane address. -/
  | vgather (i : Iss) (ty : BitVec 3) (d : Reg) (a : Reg) (b : Reg)
  /-- VSCATTER (R63). Guarded scatter of lanes to per-lane addresses. -/
  | vscatter (i : Iss) (ty : BitVec 3) (d : Reg) (a : Reg) (b : Reg)
  /-- VCVT (R137). Convert elements between formats under a conversion word, updating AMAX. -/
  | vcvt (i : Iss) (ty : BitVec 3) (d : Reg) (a : Reg) (gc : Reg)
  /-- VTOPK (R335). Select top-k experts per token and assign capacity slots. -/
  | vtopk (i : Iss) (ty : BitVec 3) (a : Reg) (b : Reg) (low : BitVec 5)
  /-- VRADD (R63). Tree reduction add into lane 0. -/
  | vradd (i : Iss) (ty : BitVec 3) (d : Reg) (a : Reg) (b : Reg)
  /-- VRMAX (R63). Tree reduction maximum. -/
  | vrmax (i : Iss) (ty : BitVec 3) (d : Reg) (a : Reg) (b : Reg)
  /-- VRMIN (R63). Tree reduction minimum. -/
  | vrmin (i : Iss) (ty : BitVec 3) (d : Reg) (a : Reg) (b : Reg)
  /-- VDOT (R63). Products summed by the fixed tree. -/
  | vdot (i : Iss) (ty : BitVec 3) (d : Reg) (a : Reg) (b : Reg)
  /-- UNIT_QUEUE_DISPATCH (R171). A queued vector, matrix or matrix-vector instruction dispatches when its engine and interlocks allow. -/
  | unitQueueDispatch (core : CoreId) (u : UnitQ)
  /-- MLOAD (R173). Copy 32 rows from Local into a tile or accumulator. -/
  | mload (i : Iss) (target : BitVec 5) (base : Reg) (stride : Reg) (tr : Bool) (low : BitVec 6)
  /-- MSTORE (R174). Copy a tile or accumulator into Local, optionally converting. -/
  | mstore (i : Iss) (source : BitVec 5) (base : Reg) (stride : Reg) (gc : Reg) (conv : Bool) (low : Bool)
  /-- MZERO (R175). Zero a tile or accumulator and its checksums. -/
  | mzero (i : Iss) (target : BitVec 5) (low : BitVec 17)
  /-- MMA (R176). Dense matrix product accumulated pass by pass. -/
  | mma (i : Iss) (acc : BitVec 3) (w : BitVec 4) (a : BitVec 4) (fmt : BitVec 4) (pair : Bool) (accz : Bool) (mx : Bool) (aux : BitVec 4)
  /-- MMAS (R182). Structurally sparse matrix product with metadata tile. -/
  | mmas (i : Iss) (acc : BitVec 3) (w : BitVec 4) (a : BitVec 4) (fmt : BitVec 4) (pair : Bool) (accz : Bool) (ratio : Bool) (md : BitVec 4)
  /-- MCHK (R186). Compare accumulator totals with checksums and write the check word. -/
  | mchk (i : Iss) (d : Reg) (acc : BitVec 3) (p : Bool) (tol : Reg) (low : BitVec 8)
  /-- MVM (R189). Matrix-vector product from Local rows and an x tile. -/
  | mvm (i : Iss) (acc : BitVec 3) (x : BitVec 4) (a : Reg) (b : Reg) (fmt : BitVec 4) (accz : Bool)
  /-- CLEAN_RANGE (R226). Belfry writes dirty bytes of a range back to Far. -/
  | cleanRange (who : By) (a : Reg) (b : Reg) (lines : Nat)
  /-- INVAL_RANGE (R226). Belfry removes the lines of a range from its caches. -/
  | invalRange (who : By) (a : Reg) (b : Reg) (lines : Nat)
  /-- ICACHE_FILL (R87). An instruction-cache miss fills from the program cache or Far. -/
  | icacheFill (th : Tid)
  /-- INTERRUPT_DELIVERY (R109). A deliverable Lantern source is taken, pushing the priority stack. -/
  | interruptDelivery (th : Tid) (units : BitVec 16)
  /-- SLOT_UNDERRUN_DELIVERY (R523). A pending SLOT_UNDERRUN is delivered once IE or an expired section allows. -/
  | slotUnderrunDelivery (th : Tid) (units : BitVec 16)
  /-- ATOMIC_SECTION_EXPIRY (R108). A handler's bounded atomic section expires. -/
  | atomicSectionExpiry (th : Tid)
  /-- COMPARE_TIMER_FIRE (R66). CYC reaches the compare value and the TIMER source latches. -/
  | compareTimerFire (th : Tid)
  /-- LTN_EOI_WRITE (R116). End-of-interrupt pops the stack or raises PRIORITY_STACK. -/
  | ltnEoiWrite (ag : Agent) (th : Tid) (v : Word)
  /-- LTN_SWSET_WRITE (R115). Latch edges on SOFT sources. -/
  | ltnSwsetWrite (ag : Agent) (th : Tid) (v : Word)
  /-- LTN_PCLR_WRITE (R115). Clear pending edge sources. -/
  | ltnPclrWrite (ag : Agent) (th : Tid) (v : Word)
  /-- LTN_SYNC_WRITE (R98). Reload descriptor copies for the Lantern's thread. -/
  | ltnSyncWrite (ag : Agent) (th : Tid) (v : Word)
  /-- LTN_LOCKUP_RESET (R114). Machine returns a locked-up thread to Disabled. -/
  | ltnLockupReset (ag : Agent) (th : Tid)
  /-- LTN_WATCH_WRITE (R311). Register or withdraw a Lantern counter watch. -/
  | ltnWatchWrite (ag : Agent) (th : Tid) (k : BitVec 3) (v : Word)
  /-- LTN_WTGT_WRITE (R311). Change a watch target, registering it anew. -/
  | ltnWtgtWrite (ag : Agent) (th : Tid) (k : BitVec 3) (v : Word)
  /-- THREAD_EN_WRITE (R522). Enable or disable threads; an enabled thread first issues at the next edge. -/
  | threadEnWrite (ag : Agent) (core : CoreId) (v : Word)
  /-- TCFG_WRITE (R44). Change tick binding from the next edge, or arm the compare timer. -/
  | tcfgWrite (ag : Agent) (th : Tid) (v : Word)
  /-- CMP_LO_WRITE (R43). Hold a low compare word until CMP_HI is written. -/
  | cmpLoWrite (th : Tid) (v : Word)
  /-- CMP_HI_WRITE (R43). Commit the 64-bit compare value. -/
  | cmpHiWrite (th : Tid) (v : Word)
  /-- CYC_LO_READ (R43). Read CYC_LO and latch CYC_HI for the reader. -/
  | cycLoRead (th : Tid)
  /-- ICCTL_WRITE (R88). Set way locks or invalidate the instruction cache. -/
  | icctlWrite (ag : Agent) (core : CoreId) (v : Word)
  /-- BIC_EOI_WRITE (R122). End-of-interrupt at a Belfry interrupt controller. -/
  | bicEoiWrite (ag : Agent) (q : Quad) (k : BitVec 2) (v : Word)
  /-- BIC_SRC_SET_WRITE (R122). Latch a Belfry software source pending. -/
  | bicSrcSetWrite (ag : Agent) (q : Quad) (n : BitVec 10)
  /-- BELFRY_INTERRUPT_DELIVERY (R119). A Belfry core takes a vector and pushes a 64-byte frame. -/
  | belfryInterruptDelivery (bf : BCore)
  /-- DRUM_PP_WRITE (R200). Set the ping-pong region, taking effect at the next edge. -/
  | drumPpWrite (ag : Agent) (sp : Spire) (v : Word)
  /-- PC_INV_WRITE (R212). Invalidate every program-cache line. -/
  | pcInvWrite (ag : Agent) (sp : Spire) (v : Word)
  /-- WINV_GO (R208). Start dropping a tenant's translations in a quadrant. -/
  | winvGo (ag : Agent) (q : Quad) (v : Word)
  /-- WINV_DRAIN_COMPLETE (R208). The drop and the drain of transfers holding old translations end and BUSY clears. -/
  | winvDrainComplete (q : Quad)
  /-- MEMORY_SCRUB (R229). Background scrub of Far and Drum corrects or poisons words. -/
  | memoryScrub (loc : ScrubLoc) (uncorrectable : Bool)
  /-- SCHEDULE_ENTRY_EXPIRY (R241). An entry's DUR ends and the router starts the next entry or becomes DONE. -/
  | scheduleEntryExpiry (core : CoreId)
  /-- SMESH_FLIT_ARRIVAL (R232). A router samples a flit and forwards or reduces it as the entry selects. -/
  | smeshFlitArrival (core : CoreId) (ins : List Sampled)
  /-- CORE_PORT_DELIVERY (R248). A delivered flit is written, reduced or handled by its void policy. -/
  | corePortDelivery (core : CoreId)
  /-- SMR_TDHI_WRITE (R253). Commit a 64-bit schedule entry to the shadow bank or refuse it. -/
  | smrTdhiWrite (ag : Agent) (core : CoreId) (v : Word)
  /-- SMR_TDLO_WRITE (R268). Commit a port channel descriptor word when PDESC is set. -/
  | smrTdloWrite (ag : Agent) (core : CoreId) (v : Word)
  /-- SMR_TDLO_READ (R268). Latch a whole bank location for the reader. -/
  | smrTdloRead (ag : Agent) (core : CoreId)
  /-- SMR_PREADY_SET (R247). Mark a port channel ready once the thread's earlier work has completed. -/
  | smrPreadySet (ag : Agent) (core : CoreId) (v : Word)
  /-- SCHEDULE_LOAD_GO (R254). Start the quadrant's schedule loader. -/
  | scheduleLoadGo (ag : Agent) (q : Quad) (v : Word)
  /-- SCHEDULE_BLOCK_LOADED (R254). A schedule block is checked and written, setting READY, or the loader stops on error. -/
  | scheduleBlockLoaded (q : Quad)
  /-- SWAP_ARM (R256). Arm a schedule bank swap for a tenant and tick. -/
  | swapArm (ag : Agent) (v : Word)
  /-- SWAP_CANCEL (R256). Disarm the pending swap. -/
  | swapCancel (ag : Agent) (v : Word)
  /-- TURRET_SUBMIT (R294). Submit a Turret stream, or refuse when none is free. -/
  | turretSubmit (ag : Agent) (sp : Spire) (v : Word)
  /-- TURRET_STREAM_COMPLETE (R294). A Turret stream completes or ends with fault and signals its counter. -/
  | turretStreamComplete (sp : Spire) (n : BitVec 7)
  /-- RTE_CFG_WRITE (R348). Set an expert's routing, applied at the next edge or ignored if out of range. -/
  | rteCfgWrite (ag : Agent) (core : CoreId) (e : BitVec 6) (v : Word)
  /-- ROUTE_CTL_WRITE (R344). Set routing control, applied at the next edge. -/
  | routeCtlWrite (ag : Agent) (core : CoreId) (v : Word)
  /-- DOZE_ENTRY (R345). A Spire gates its clocks 16 cc after every doze condition holds. -/
  | dozeEntry (sp : Spire)
  /-- DOZE_EXIT (R346). A Spire leaves DOZE 8 cc after a wake cause. -/
  | dozeExit (sp : Spire) (cause : WakeCause)
  /-- EDGE_NOTICE (R353). 64 cc before an edge the notice decides the swap, refuses bank writes and wakes dozing Spires. -/
  | edgeNotice
  /-- TICK_MAX_EXPIRY (R355). In ELASTIC mode the notice is forced at TICK_MAX less 64 cc. -/
  | tickMaxExpiry
  /-- TICK_EDGE (R353). The edge cycle advances the tick and changes over every edge-bound resource. -/
  | tickEdge
  /-- TICK_CTL_EN_SET (R356). Start the Clocktower: first notice at once, edge 64 cc later. -/
  | tickCtlEnSet (ag : Agent) (v : Word)
  /-- TICK_CTL_EN_CLEAR (R356). Stop further edges after any notified edge. -/
  | tickCtlEnClear (ag : Agent) (v : Word)
  /-- TICK_PERIOD_WRITE (R356). Set the STRICT period, range-checked, for the next interval. -/
  | tickPeriodWrite (ag : Agent) (v : Word)
  /-- TICK_MIN_WRITE (R356). Set the ELASTIC minimum, range-checked. -/
  | tickMinWrite (ag : Agent) (v : Word)
  /-- TICK_MAX_WRITE (R356). Set the ELASTIC maximum, range-checked. -/
  | tickMaxWrite (ag : Agent) (v : Word)
  /-- CT_TIME_LO_READ (R350). Read Clocktower time and latch the high word. -/
  | ctTimeLoRead (ag : Agent)
  /-- EDGE_MESSAGE_SEND (R361). The master sends an edge message TICK_LEAD before the target time. -/
  | edgeMessageSend
  /-- DEVICE_READY_REPORT (R362). In ELASTIC mode a device reports ready to the master. -/
  | deviceReadyReport
  /-- TICK_IN_EDGE (R363). A filtered TICK_IN rising edge starts a tick, or is ignored as short. -/
  | tickInEdge
  /-- TICK_LOSS (R365). No edge arrives within the bound; the device logs and holds. -/
  | tickLoss
  /-- WATCHDOG_SAMPLE (R366). Duboette reads activity bits each period and ends stuck tasks or kicks. -/
  | watchdogSample
  /-- WATCHDOG_KICK (R366). Restart the watchdog period. -/
  | watchdogKick (ag : Agent)
  /-- WATCHDOG_EXPIRY (R366). No kick for a period: WDT set, FAULT_N and FATAL_DEVICE record. -/
  | watchdogExpiry
  /-- READ_CLEAR_ACCESS (R12). A read of an RC register returns and clears it without losing events. -/
  | readClearAccess (ag : Agent) (addr : BitVec 32)
  /-- REGISTER_WRITE (R11). A write to a register with no behaviour of its own, by its access code. -/
  | registerWrite (ag : Agent) (addr : BitVec 32) (v : Word)
  /-- PORT_ENABLE (R371). Enable a Skybridge port and start training. -/
  | portEnable (ag : Agent) (p : Port) (v : Word)
  /-- PORT_RETRAIN (R371). Start a training attempt. -/
  | portRetrain (ag : Agent) (p : Port) (v : Word)
  /-- PORT_CLEAR_FAIL (R372). Return a FAILED port to DOWN. -/
  | portClearFail (ag : Agent) (p : Port) (v : Word)
  /-- TRAINING_COMPLETE (R371). A port finishes training UP or UP_X8. -/
  | trainingComplete (p : Port) (peer : BitVec 64) (latNs : BitVec 16) (narrow : Bool)
  /-- TRAINING_FAILED (R372). A failed attempt counts; after three the port latches FAILED. -/
  | trainingFailed (p : Port)
  /-- SKB_FLIT_RECEIVE (R374). A port accepts an in-order flit or discards and NAKs. -/
  | skbFlitReceive (p : Port) (flit : List Byte) (fec : Option (BitVec 8))
  /-- NAK (R374). A NAK makes the transmitter resend from the named SEQ. -/
  | nak (p : Port) (expected : BitVec 12)
  /-- ACK_TIMEOUT (R374). No ACK advance for 50 µs retrains the port. -/
  | ackTimeout (p : Port)
  /-- PACKET_FORWARD (R388). A through packet is forwarded cut-through or discarded on a broken route. -/
  | packetForward (p : Port) (pkt : SkbPacket)
  /-- READ (R375). A remote READ packet reaches its destination. -/
  | read (pkt : SkbPacket)
  /-- WRITE (R375). A remote WRITE packet lands at its destination. -/
  | write (pkt : SkbPacket)
  /-- WRITE_ACK (R375). A WRITE_ACK returns to the writer. -/
  | writeAck (pkt : SkbPacket)
  /-- READ_DATA (R375). READ_DATA returns to the requester. -/
  | readData (pkt : SkbPacket)
  /-- ATOMIC (R397). A GROUP or SYSTEM atomic is sequenced at the manager or performed at the target. -/
  | atomic (pkt : SkbPacket)
  /-- ATOMIC_RSP (R375). The old value of a remote atomic returns. -/
  | atomicRsp (pkt : SkbPacket)
  /-- COUNTER_OP (R397). A remote counter operation reaches its home Cupola. -/
  | counterOp (pkt : SkbPacket)
  /-- COUNTER_RSP (R397). A remote counter answer returns. -/
  | counterRsp (pkt : SkbPacket)
  /-- COLLECTIVE_SEGMENT (R391). A collective segment is combined in fixed order and passed on or written. -/
  | collectiveSegment (pkt : SkbPacket)
  /-- COMMAND (R395). A forwarded command reaches a worker and is executed. -/
  | command (pkt : SkbPacket)
  /-- COMMAND_REPLY (R395). A worker's reply reaches the manager. -/
  | commandReply (pkt : SkbPacket)
  /-- ERROR_RECORD (R472). A forwarded error record passes the manager's or master's filter. -/
  | errorRecord (pkt : SkbPacket)
  /-- HEARTBEAT (R396). A worker heartbeat reaches its manager. -/
  | heartbeat (pkt : SkbPacket)
  /-- PATH (R384). A source-routed PATH packet configures a worker. -/
  | path (pkt : SkbPacket)
  /-- EDGE (R361). An edge message arrives, setting the target time and syncing Clocktower time. -/
  | edge (pkt : SkbPacket)
  /-- READY (R362). A device's ready report reaches the master, which sets the target. -/
  | ready (pkt : SkbPacket)
  /-- ROUTING_ENABLE (R384). Enable Skybridge routing and lock ID, dimensions and roles. -/
  | routingEnable (ag : Agent) (v : Word)
  /-- COLLECTIVE_SUBMIT (R390). Submit a collective descriptor, or refuse it. -/
  | collectiveSubmit (ag : Agent) (v : Word)
  /-- COLLECTIVE_TIMEOUT (R393). A collective's timeout expires and it fails with poison. -/
  | collectiveTimeout (n : BitVec 4)
  /-- WORKER_LOST (R396). No heartbeat for three periods: the manager ends the worker's tasks. -/
  | workerLost (dev : BitVec 10)
  /-- FANOUT_TIMEOUT (R395). SKB_FANTMO expires and the manager replies with NOT_REPLIED. -/
  | fanoutTimeout (id : Nat)
  /-- RING_DB_WRITE (R411). A doorbell makes command entries available. -/
  | ringDbWrite (ag : Agent) (ring : Ring) (v : Word)
  /-- RING_CFG_WRITE (R410). Enable a ring, resetting its pointers. -/
  | ringCfgWrite (ag : Agent) (ring : Ring) (v : Word)
  /-- RING_QHEAD_WRITE (R413). Advance the completion head and re-arm notification. -/
  | ringQheadWrite (ag : Agent) (ring : Ring) (v : Word)
  /-- COMMAND_FETCH (R411). Duboette fetches an entry when a completion slot is free and checks it. -/
  | commandFetch (ring : Ring) (hd : HostData) (blk : HostData)
  /-- NOP_COMMAND (R420). Do nothing and complete. -/
  | nopCommand (id : Nat)
  /-- QUERY_CAPS (R421). Return the capability record and masks. -/
  | queryCaps (id : Nat)
  /-- READ_ERRLOG (R421). Return error records in service order, optionally removing them. -/
  | readErrlog (id : Nat)
  /-- PARTITION (R433). Set a tenant's Spires, quotas, modes and error vector. -/
  | partition (id : Nat)
  /-- SET_POWER (R458). Set the cap and CCLKMAX, replying when settled. -/
  | setPower (id : Nat)
  /-- SET_POWER_RETAIN (R451). Enter RETAIN after stopping ticks. -/
  | setPowerRetain (id : Nat)
  /-- SET_TICK (R435). Set tick period, bounds, mode and source from the next edge. -/
  | setTick (id : Nat)
  /-- DEBUG_STATUS (R493). Return the open debug level and attempts left. -/
  | debugStatus (id : Nat)
  /-- DEBUG_PASSWORD (R494). Open LIMITED debug by password. -/
  | debugPassword (id : Nat) (hd : HostData)
  /-- DEBUG_CHALLENGE (R495). Issue a nonce and the serial. -/
  | debugChallenge (id : Nat)
  /-- DEBUG_TOKEN (R495). Open the level a signed token names. -/
  | debugToken (id : Nat) (hd : HostData)
  /-- DEBUG_CLOSE (R496). Close debug access and stop debug facilities. -/
  | debugClose (id : Nat)
  /-- DEBUG_SETPW (R493). Burn the next password slot. -/
  | debugSetpw (id : Nat) (hd : HostData)
  /-- ALLOC_COUNTERS (R431). Allocate counter units in one Spire. -/
  | allocCounters (id : Nat)
  /-- FREE_COUNTERS (R431). Free counter units. -/
  | freeCounters (id : Nat)
  /-- ALLOC_LOCKS (R431). Allocate a lock unit with ranks. -/
  | allocLocks (id : Nat)
  /-- FREE_LOCKS (R431). Free a lock unit. -/
  | freeLocks (id : Nat)
  /-- SET_WINDOW (R432). Write window-table entries. -/
  | setWindow (id : Nat)
  /-- WINV (R432). Invalidate a tenant's window translations device-wide. -/
  | winv (id : Nat)
  /-- COPY (R420). DMA copy between spaces, signalling a counter. -/
  | copy (id : Nat)
  /-- FILL (R420). DMA fill with a pattern. -/
  | fill (id : Nat)
  /-- DMA_COMPLETE (R420). A COPY or FILL finishes and its completion is written. -/
  | dmaComplete (id : Nat) (hd : HostData)
  /-- LOAD_IMAGE (R423). Check and load a tick image as an idle task. -/
  | loadImage (id : Nat) (hd : HostData)
  /-- UNLOAD_IMAGE (R428). Retire a task and report leaks. -/
  | unloadImage (id : Nat)
  /-- RUN_TICKS (R424). Arm a task to run COUNT ticks. -/
  | runTicks (id : Nat)
  /-- RUN_TICKS_COMPLETE (R424). After the last tick's write-back, the run replies. -/
  | runTicksComplete (id : Nat)
  /-- STOP (R425). Make the current tick the run's last. -/
  | stop (id : Nat)
  /-- CANCEL (R426). Stop a task at once. -/
  | cancel (id : Nat)
  /-- CANCEL_DISPATCH (R426). Cancel a DISPATCH slot if WAITING. -/
  | cancelDispatch (id : Nat)
  /-- MIGRATE (R429). Arm a move of a task to another placement. -/
  | migrate (id : Nat)
  /-- MIGRATE_DRAINED (R430). The old placement drains and MIGRATE replies OK. -/
  | migrateDrained (id : Nat)
  /-- MIGRATE_TIMEOUT (R430). 100 ms after E without drain, MIGRATE replies TIMEOUT. -/
  | migrateTimeout (id : Nat)
  /-- DISPATCH (R427). Write and arm a dispatch slot, replying when it retires. -/
  | dispatch (id : Nat)
  /-- VF_FLR (R436). Function reset of a VF clears its tenant's tasks and resources. -/
  | vfFlr (t : BitVec 4)
  /-- PF_FLR (R436). Function reset of the PF resets the host interface. -/
  | pfFlr
  /-- BAR0_ACCESS (R406). A host BAR0 access reaches control space or completes UR. -/
  | bar0Access (fn : BitVec 4) (off : BitVec 32) (size : Nat) (wr : Option Word)
  /-- BAR2_READ (R407). A host read of Far through BAR2. -/
  | bar2Read (fn : BitVec 4) (off : BitVec 64) (size : Nat)
  /-- BAR2_WRITE (R407). A host write of Far through BAR2. -/
  | bar2Write (fn : BitVec 4) (off : BitVec 64) (data : List Byte)
  /-- ATS_INVALIDATION (R404). An ATS invalidation completes after reads that used it. -/
  | atsInvalidation (tag : Nat)
  /-- DOMAIN_ON_REQUEST (R443). Request a domain ON, starting or holding its ramp. -/
  | domainOnRequest (ag : Agent) (n : BitVec 7)
  /-- DOMAIN_OFF_REQUEST (R443). Request a domain OFF, closing at the next edge. -/
  | domainOffRequest (ag : Agent) (n : BitVec 7)
  /-- DOMAIN_CLEAR (R445). Return a FAILED domain to OFF. -/
  | domainClear (ag : Agent) (n : BitVec 7)
  /-- RAMP_STAGE_END (R444). A ramp stage ends and the next stage starts or the ramp aborts. -/
  | rampStageEnd (n : BitVec 7) (mv : BitVec 16)
  /-- RAMP_ABORT (R444). Overcurrent during a ramp opens the switches and latches FAILED. -/
  | rampAbort (n : BitVec 7) (mv : BitVec 16)
  /-- DOMAIN_INIT_COMPLETE (R446). Post-ramp initialisation ends and the domain becomes ON. -/
  | domainInitComplete (n : BitVec 7) (cal : BridgeCal × BridgeCal)
  /-- DOMAIN_DRAINED (R448). A CLOSING domain drains and goes OFF. -/
  | domainDrained (n : BitVec 7)
  /-- DRAIN_TIMEOUT (R449). Drain timeout cuts remaining transfers and the domain goes OFF. -/
  | drainTimeout (n : BitVec 7)
  /-- SPIRE_IDLE_TIMEOUT (R443). Duboette powers down an unused Spire at an edge after PWR_IDLE. -/
  | spireIdleTimeout (sp : Spire)
  /-- RETAIN_ENTRY (R451). After the last edge the device quiesces and enters RETAIN. -/
  | retainEntry
  /-- WAKE_ADDRESS_MATCH (R452). A management-bus address match in RETAIN starts the wake. -/
  | wakeAddressMatch
  /-- WAKE_COMPLETE (R452). The wake sequence ends and Duboette resumes or the device resets. -/
  | wakeComplete
  /-- VR_GOOD_FALL (R450). Unrequested loss of VR_GOOD takes the device OFF. -/
  | vrGoodFall
  /-- THERMTRIP (R520). A sensor reaches 115 °C and the device goes OFF. -/
  | thermtrip
  /-- PWR_CTL_WRITE (R456). Write cap or CCLKMAX, restarting the window. -/
  | pwrCtlWrite (ag : Agent) (v : Word)
  /-- POWER_WINDOW_END (R456). A power window ends and the loop steps, holds or flags the cap. -/
  | powerWindowEnd (watts : BitVec 11) (tj : BitVec 8)
  /-- AVS_COMPLETE (R454). The regulator reports a voltage change complete. -/
  | avsComplete
  /-- ERROR_REPORT (R466). A report reaches the hub and merges, enters, or is lost. -/
  | errorReport (q : Quad)
  /-- COALESCING_WINDOW_END (R469). A suspect filter entry's window closes and passes its count. -/
  | coalescingWindowEnd (q : Quad) (k : Nat)
  /-- GROUP_WINDOW_END (R472). A group filter entry's 3W window closes. -/
  | groupWindowEnd (k : Nat)
  /-- SYSTEM_WINDOW_END (R473). A system filter entry's 5W window closes. -/
  | systemWindowEnd (k : Nat)
  /-- EH_POP (R467). Remove the first record in service order. -/
  | ehPop (ag : Agent)
  /-- EH_REC0_READ (R477). Latch the ten words of the first record. -/
  | ehRec0Read (ag : Agent)
  /-- COL_INJ_GO (R477). Inject a report while debug is open. -/
  | colInjGo (ag : Agent) (q : Quad) (v : Word)
  /-- COLD_BOOT (R479). Always-on rails become valid and the Keep boots the device. -/
  | coldBoot (straps : BitVec 5) (flash : List SlotImage)
  /-- PERST_N_ASSERT (R478). PERST_N on a manager starts a device reset, or a wake in RETAIN. -/
  | perstNAssert
  /-- DEVICE_RESET (R478). KEEP_RST key write resets every domain but the Keep. -/
  | deviceReset (ag : Agent) (key : Word)
  /-- CLUSTER_RESET (R500). Write back and reset one Belfry cluster. -/
  | clusterReset (ag : Agent) (q : Quad) (v : Word)
  /-- BFC_HOLD_WRITE (R478). Hold or release Belfry cores, releasing at BFC_ENTRY. -/
  | bfcHoldWrite (ag : Agent) (q : Quad) (v : Word)
  /-- SVN_COMMIT (R485). Raise the fused SVN minimum. -/
  | svnCommit (ag : Agent)
  /-- FLASH_PROGRAM (R486). Program a flash slot from the mailbox. -/
  | flashProgram (ag : Agent) (v : Word)
  /-- FLASH_PROGRAM_DONE (R486). The slot is checked and the result reported. -/
  | flashProgramDone
  /-- LIFECYCLE_TRANSITION (R491). Burn a lifecycle transition. -/
  | lifecycleTransition (ag : Agent) (v : Word)
  /-- GET_VERSION (R489). SPDM version request. -/
  | getVersion
  /-- GET_CAPABILITIES (R489). SPDM capabilities request. -/
  | getCapabilities
  /-- NEGOTIATE_ALGORITHMS (R489). SPDM algorithm negotiation. -/
  | negotiateAlgorithms
  /-- GET_DIGESTS (R489). SPDM certificate digests. -/
  | getDigests
  /-- GET_CERTIFICATE (R489). SPDM certificate chain. -/
  | getCertificate (off : BitVec 16) (len : BitVec 16)
  /-- CHALLENGE (R489). SPDM challenge. -/
  | challenge (nonce : BitVec 256)
  /-- GET_MEASUREMENTS (R488). Return current measurements. -/
  | getMeasurements (ix : BitVec 8)
  /-- OCU_HALT_WRITE (R499). Latch DEBUG in a thread. -/
  | ocuHaltWrite (ag : Agent) (v : Word)
  /-- JTAG_INSTRUCTION (R492). A JTAG instruction allowed at the open level. -/
  | jtagInstruction (j : JtagOp)
  /-- SCAN_MODE_ENTRY (R492). Enter scan or memory test, ending every task. -/
  | scanModeEntry
  /-- SMBUS_BLOCK_READ (R515). Management bus Block Read of a register. -/
  | smbusBlockRead (addr : BitVec 7) (ask : SmbusAsk)
  /-- SMBUS_BUS_TIMEOUT (R515). Release a bus held low for 35 ms. -/
  | smbusBusTimeout
  /-- UNASSIGNED_ENCODING (R46). An instruction word with an unassigned major opcode, function code or the word 0x0000_0000 issues and raises ILLEGAL_INSTR. -/
  | unassignedEncoding (i : Iss) (w : Word)
  /-- UNIT_INSTRUCTION_COMPLETE (R171). A queued vector, matrix or matrix-vector instruction performs its last write and completes, releasing its interlocks, a guarded thread, a waiting trel and tick_end. -/
  | unitInstructionComplete (core : CoreId) (u : UnitQ) (k : Nat)
  /-- ATOMIC_AT_HOME (R223). A Drum or Far atomic request reaches its home, the Cupola atomic unit or the home Far crossbar, and is performed there in the word's write order. -/
  | atomicAtHome (id : Nat)
  /-- FAILS_IN_SERVICE (R264). A tile or a unit fails in service, so its domain latches FAILED, or the device fails, with the removals of R28 to R31. -/
  | failsInService (f : Failure)
  /-- VR_GOOD_RISE (R452). The board asserts VR_GOOD after PWR_REQ, letting the wake or boot sequence continue past its regulator step. -/
  | vrGoodRise
  /-- ALWAYS_ON_RAILS_FALL (R520). The always-on rails fall, releasing THERMTRIP_N and the sampled straps and losing all state until the next cold boot. -/
  | alwaysOnRailsFall
  /-- LINK_SIGNAL_LOSS (R451). A Skybridge port's receivers lose the partner's signal, as when the partner enters RETAIN, and the port goes DOWN. -/
  | linkSignalLoss (p : Port)
  /-- HOST_L1_EXIT (R453). The host initiates an exit from L1 while the device is in RETAIN, and the link completes it only after step 7 of a wake. -/
  | hostL1Exit
  /-- CONFIGURATION_REQUEST (R479). A PCIe configuration request arrives and is answered with Request Retry Status until Duboette has enabled the rings, then completes. -/
  | configurationRequest (fn : BitVec 8) (reg : BitVec 10) (wr : Option Word)
  /-- HOST_LINK_TRAINING (R403). The host PCIe link completes training at the speed and width that the partner and lanes allow, as HIF_LINK then shows. -/
  | hostLinkTraining (gen : LinkGen) (width : LinkWidth)
  deriving DecidableEq, Repr

end Sys2Proof
end

