-- ==== Sys2Proof/Decode.lean ====
section
/-! DEFINITION. The decoder of the compute cores' instruction words (R46 to R48), and what a word of the opcode table's
bits spells: the table gives bits to no row, and a command comes with its operands as they are. -/

namespace Sys2Proof

/-- The command that a word spells: none, since no row of the table has bits. [DESIGN CHOICE, log 1] -/
def decodeTableWord (_nbits _w : Nat) : Option Instr := none

/-! ### The format classes (R47) -/

/-- The field d of the classes A, I, M and V. -/
def fieldD (w : Word) : Reg := w.extractLsb' 17 5

/-- The field a, or the base, of the classes A, I, M and V. -/
def fieldA (w : Word) : Reg := w.extractLsb' 12 5

/-- The field b of the classes A and V. -/
def fieldB (w : Word) : Reg := w.extractLsb' 7 5

/-- The function code of class A. -/
def fieldFn (w : Word) : Nat := (w.extractLsb' 0 7).toNat

/-- The immediate of class I. -/
def fieldImm (w : Word) : BitVec 12 := w.extractLsb' 0 12

/-- The size field of class M. -/
def fieldSize (w : Word) : BitVec 2 := w.extractLsb' 10 2

/-- The offset of class M. -/
def fieldOff (w : Word) : BitVec 10 := w.extractLsb' 0 10

/-- The type field of class V. -/
def fieldType (w : Word) : BitVec 3 := w.extractLsb' 4 3

/-- The function code of class V. -/
def fieldVfn (w : Word) : Nat := (w.extractLsb' 0 4).toNat

/-! ### The majors (R48, R65) -/

/-- Major 0x01, in the order of fn[5:0]. -/
def decodeAlu (i : Iss) (w : Word) : Option Instr :=
  let f := w.getLsbD 6
  let d := fieldD w
  let a := fieldA w
  let b := fieldB w
  [.add i f d a b, .sub i f d a b, .adc i f d a b, .sbc i f d a b, .andOp i f d a b, .orOp i f d a b, .xor i f d a b,
   .andn i f d a b, .shl i f d a b, .shr i f d a b, .sar i f d a b, .rol i f d a b, .mul i f d a b, .mulhs i f d a b,
   .mulhu i f d a b, .div i f d a b, .divu i f d a b, .rem i f d a b, .remu i f d a b, .min i f d a b, .max i f d a b,
   .minu i f d a b, .maxu i f d a b, .clz i f d a, .popc i f d a, .sextb i f d a, .sexth i f d a,
   .mov i f d a][fieldFn w % 64]?

/-- Majors 0x02 to 0x08: immediates; imm[11:10] selects the shift of major 0x06, bit [16] the half of major 0x08. -/
def decodeImm (i : Iss) (major : Nat) (w : Word) : Option Instr :=
  let d := fieldD w
  let a := fieldA w
  let imm := fieldImm w
  let amt : BitVec 5 := w.extractLsb' 0 5
  let shift : Option Instr := [.shli i d a amt, .shri i d a amt, .sari i d a amt, .roli i d a amt][(fieldSize w).toNat]?
  let half : BitVec 16 := w.extractLsb' 0 16
  if major = 0x02 then some (.addi i d a imm)
  else if major = 0x03 then some (.andi i d a imm)
  else if major = 0x04 then some (.ori i d a imm)
  else if major = 0x05 then some (.xori i d a imm)
  else if major = 0x06 then shift
  else if major = 0x07 then some (.cmpi i a imm)
  else if w.getLsbD 16 then some (.movh i d half)
  else some (.movl i d half)

/-- Major 0x09: compare and predicate; fn 0x10 to 0x1F hold the condition of `pcmp`. -/
def decodeCmp (i : Iss) (w : Word) : Option Instr :=
  let d := fieldD w
  let a := fieldA w
  let b := fieldB w
  let fn := fieldFn w
  if fn = 0x00 then some (.cmp i a b)
  else if fn = 0x01 then some (.tst i a b)
  else if 0x10 ≤ fn ∧ fn ≤ 0x1F then some (.pcmp i (w.extractLsb' 0 4) d a b)
  else if fn = 0x20 then some (.pset i d a)
  else if fn = 0x21 then some (.pnot i d)
  else if fn = 0x22 then some (.pmov i d)
  else none

/-- Majors 0x12 and 0x13: the operation in fn[3:0], the scope in fn[6:4] (R77). -/
def decodeAtomic (i : Iss) (wide : Bool) (w : Word) : Option Instr :=
  let who := By.compute i
  let sc := fieldType w
  let d := fieldD w
  let a := fieldA w
  let b := fieldB w
  [.aswap who wide sc d a b, .acas who wide sc d a b, .aadd who wide sc d a b, .aand who wide sc d a b,
   .aor who wide sc d a b, .axor who wide sc d a b, .amin who wide sc d a b, .amax who wide sc d a b,
   .aminu who wide sc d a b, .amaxu who wide sc d a b, .aload who wide sc d a b, .astore who wide sc d a b,
   .afadd who wide sc d a b][fieldVfn w]?

/-- Majors 0x18 to 0x1B: branches and `loop`, whose count is an immediate with I = 1, else a register. -/
def decodeBranch (i : Iss) (major : Nat) (w : Word) : Option Instr :=
  let off : BitVec 22 := w.extractLsb' 0 22
  let cnt := if w.getLsbD 21 then LoopCount.imm (w.extractLsb' 10 11) else LoopCount.reg (w.extractLsb' 16 5)
  if major = 0x18 then some (.b i off)
  else if major = 0x19 then some (.bl i off)
  else if major = 0x1A then [.jr i (fieldA w), .jalr i (fieldA w), .ret i][fieldFn w]?
  else some (.loop i cnt (fieldOff w))

/-- Major 0x1C: system; `trap` holds n in [21:15] (R95). -/
def decodeSystem (i : Iss) (w : Word) : Option Instr :=
  let d := fieldD w
  let a := fieldA w
  let b := fieldB w
  [.nop i, .wait i d, .tickEnd i, .trap (.compute i) (w.extractLsb' 15 7) (w.extractLsb' 7 8), .eret (.compute i),
   .saveshadow i, .descSync i a, .ipreload i d a b, .fenceL i, .fenceS i, .fenceD i, .brk (.compute i),
   .halt i][fieldFn w]?

/-- Major 0x1D: class C; `ctlrx` and `ctlwx` name ga in [16:12] (R81). -/
def decodeControl (i : Iss) (w : Word) : Option Instr :=
  let who := By.compute i
  let g := fieldD w
  let n : BitVec 12 := w.extractLsb' 5 12
  let low : BitVec 7 := w.extractLsb' 5 7
  [.ctlr who g n, .ctlw who g n, .ctls who g n, .ctlc who g n, .ctlrx i g (fieldA w) low,
   .ctlwx i g (fieldA w) low][(w.extractLsb' 0 5).toNat]?

/-- Majors 0x20 to 0x23: channels (R521), counters and locks (R305), streams (R284), tiles. -/
def decodeUnits (i : Iss) (major : Nat) (w : Word) : Option Instr :=
  let d := fieldD w
  let a := fieldA w
  let b := fieldB w
  let rows : List Instr :=
    if major = 0x20 then
      [.chopen i d a b, .chclose i d a b, .send i d a b, .sendv i d a b, .recv i d a b, .recvNb i d a b, .recvv i d a b]
    else if major = 0x21 then
      let who : By := .compute i
      [.sig who d a b, .sigp who d a b, .swait who d a b, .lock who d a b, .unlock who d a b]
    else if major = 0x22 then [.sissue i d a, .sstat i d a, .scancel i a]
    else [.talloc i d a, .trel i a, .tempty i d]
  rows[fieldFn w]?

/-- Majors 0x28 to 0x2E but 0x2C: class V (R65, R137, R335). -/
def decodeVector (i : Iss) (major : Nat) (w : Word) : Option Instr :=
  let ty := fieldType w
  let d := fieldD w
  let a := fieldA w
  let b := fieldB w
  let rows : List Instr :=
    if major = 0x28 then
      [.vadd i ty d a b, .vsub i ty d a b, .vmul i ty d a b, .vdiv i ty d a b, .vsqrt i ty d a b, .vmin i ty d a b,
       .vmax i ty d a b, .vabs i ty d a b, .vneg i ty d a b, .vand i ty d a b, .vor i ty d a b, .vxor i ty d a b,
       .vshl i ty d a b, .vshr i ty d a b, .vsar i ty d a b]
    else if major = 0x29 then [.vfma i ty d a b, .vfms i ty d a b, .vfnma i ty d a b, .vfmaP i ty d a b]
    else if major = 0x2A then
      [.vceq i ty d a b, .vcne i ty d a b, .vclt i ty d a b, .vcle i ty d a b, .vcun i ty d a b, .vsel i ty d a b]
    else if major = 0x2B then
      [.vbcast i ty d a b, .vext i ty d a b, .vins i ty d a b, .vperm i ty d a b, .vrot i ty d a b, .vzip i ty d a b,
       .vunzip i ty d a b, .vmov i ty d a b, .vzero i ty d a b]
    else if major = 0x2D then [.vgather i ty d a b, .vscatter i ty d a b, .vcvt i ty d a b, .vtopk i ty d a b]
    else [.vradd i ty d a b, .vrmax i ty d a b, .vrmin i ty d a b, .vdot i ty d a b]
  rows[fieldVfn w]?

/-- Major 0x2C: the size field selects `vld`, `vst` or `vldb` (R64). -/
def decodeVmem (i : Iss) (w : Word) : Option Instr :=
  let d := fieldD w
  let a := fieldA w
  let off := fieldOff w
  [.vld i d a off, .vst i d a off, .vldb i d a off][(fieldSize w).toNat]?

/-- Majors 0x30 to 0x36: class X (R169). -/
def decodeMatrix (i : Iss) (major : Nat) (w : Word) : Option Instr :=
  let d := fieldD w
  let a := fieldA w
  let b := fieldB w
  let acc : BitVec 3 := w.extractLsb' 19 3
  let t1 : BitVec 4 := w.extractLsb' 15 4
  let t2 : BitVec 4 := w.extractLsb' 11 4
  let fmt : BitVec 4 := w.extractLsb' 7 4
  let aux : BitVec 4 := w.extractLsb' 0 4
  let bt := w.getLsbD
  if major = 0x30 then some (.mload i d a b (bt 6) (w.extractLsb' 0 6))
  else if major = 0x31 then some (.mstore i d a b (w.extractLsb' 2 5) (bt 1) (bt 0))
  else if major = 0x32 then some (.mzero i d (w.extractLsb' 0 17))
  else if major = 0x33 then some (.mma i acc t1 t2 fmt (bt 6) (bt 5) (bt 4) aux)
  else if major = 0x34 then some (.mmas i acc t1 t2 fmt (bt 6) (bt 5) (bt 4) aux)
  else if major = 0x35 then some (.mchk i d (w.extractLsb' 14 3) (bt 13) (w.extractLsb' 8 5) (w.extractLsb' 0 8))
  else some (.mvm i acc t1 (w.extractLsb' 10 5) (w.extractLsb' 5 5) (w.extractLsb' 1 4) (bt 0))

/-- The instruction that a word names by its major, bits [27:22], and its fields; none for the zero word, an unassigned
major and an unassigned function code (R46, R48). -/
def decodeAssigned (i : Iss) (w : Word) : Option Instr :=
  let major := (w.extractLsb' 22 6).toNat
  let size := fieldSize w
  if w = 0 then none
  else if major = 0x01 then decodeAlu i w
  else if 0x02 ≤ major ∧ major ≤ 0x08 then decodeImm i major w
  else if major = 0x09 then decodeCmp i w
  else if major = 0x10 then some (.ld i (fieldD w) (fieldA w) size (fieldOff w))
  else if major = 0x11 then some (.st i (fieldD w) (fieldA w) size (fieldOff w))
  else if major = 0x12 ∨ major = 0x13 then decodeAtomic i (major = 0x13) w
  else if major = 0x14 then some (.ldu i (fieldD w) (fieldA w) size (fieldOff w))
  else if 0x18 ≤ major ∧ major ≤ 0x1B then decodeBranch i major w
  else if major = 0x1C then decodeSystem i w
  else if major = 0x1D then decodeControl i w
  else if 0x20 ≤ major ∧ major ≤ 0x23 then decodeUnits i major w
  else if major = 0x2C then decodeVmem i w
  else if 0x28 ≤ major ∧ major ≤ 0x2E then decodeVector i major w
  else if 0x30 ≤ major ∧ major ≤ 0x36 then decodeMatrix i major w
  else none

/-- The command by which a thread issues an instruction word: the condition is bits [31:28] (R46). A word for which there is
none is issued by the command of unassigned encodings. -/
def decodeInstruction (core : CoreId) (thread : BitVec 2) (w : Word) : Option Instr :=
  decodeAssigned { core := core, thread := thread, cond := w.extractLsb' 28 4 } w

/-- Whether a word is one that no instruction has (R46, R48, R65, R77, R169). -/
def unassignedWord (w : Word) : Bool := (decodeInstruction 0 0 w).isNone

end Sys2Proof
end

