-- ==== Sys2Proof/Machine/RegTable.lean ====
section
/-! DEFINITION. The control space of R209 and R210: every control register of a Spire, a quadrant or the device, with
its place, its access masks and its reset value, as the register tables of the spec give them. The Lanterns
(R118), the thread registers (R42) and the Belfry exception registers (R121) are fields of their own records. -/

namespace Sys2Proof.Machine

open Sys2Proof

/-- What a register is replicated over (R209, R210): the device, a Spire, a core, a quadrant, a Skybridge port, a
command ring, a tenant. -/
inductive RKind where
  | dev | spire | core | quad | port | ring | part
  deriving DecidableEq, Repr

/-- One row of a register table: where the register lies in its unit's block, how often it repeats there, the bits of
each access code (RW, W1C, W1S, WO, RC, RO, RWL), its reset value, and who may write it: `mach` is the mark M,
`belf` the mark B, `duet` the mark D; `full` is the mark F. -/
structure RegRow where
  kind : RKind
  off : Nat
  stride : Nat
  count : Nat
  rw : Word
  w1c : Word
  w1s : Word
  wo : Word
  rc : Word
  ro : Word
  lock : Word
  reset : Word
  mach : Bool
  belf : Bool
  duet : Bool
  full : Bool
  deriving DecidableEq, Repr

/-- The control registers by name. -/
inductive CReg where
  | bicSrc -- BIC_SRC (R122)
  | bicEoi -- BIC_EOI (R122)
  | bicRun -- BIC_RUN (R122)
  | bicSpur -- BIC_SPUR (R122)
  | bicCtl -- BIC_CTL (R122)
  | numSat -- NUM_SAT (R157)
  | numFtz -- NUM_FTZ (R157)
  | numNan -- NUM_NAN (R157)
  | numMode -- NUM_MODE (R157)
  | matCtl -- MAT_CTL (R192)
  | matAbft -- MAT_ABFT (R192)
  | matAbftcnt -- MAT_ABFTCNT (R192)
  | matSkip -- MAT_SKIP (R192)
  | matPasses -- MAT_PASSES (R192)
  | matGated -- MAT_GATED (R192)
  | mvpRows -- MVP_ROWS (R192)
  | mvpPortwait -- MVP_PORTWAIT (R192)
  | drumPp -- DRUM_PP (R212)
  | drumCe -- DRUM_CE (R212)
  | pcLock -- PC_LOCK (R212)
  | pcInv -- PC_INV (R212)
  | memBankwait -- MEM_BANKWAIT (R212)
  | memRtwait -- MEM_RTWAIT (R212)
  | memCe -- MEM_CE (R212)
  | memWcmiss -- MEM_WCMISS (R212)
  | winBaseLo -- WIN_BASE_LO (R212)
  | winBaseHi -- WIN_BASE_HI (R212)
  | winLen -- WIN_LEN (R212)
  | fxbWinvFirst -- FXB_WINV_FIRST (R212)
  | fxbWinvCnt -- FXB_WINV_CNT (R212)
  | fxbWinvCtl -- FXB_WINV_CTL (R212)
  | fxbWalks -- FXB_WALKS (R212)
  | smrStat -- SMR_STAT (R268)
  | smrTidx -- SMR_TIDX (R268)
  | smrTdlo -- SMR_TDLO (R268)
  | smrTdhi -- SMR_TDHI (R268)
  | smrPready -- SMR_PREADY (R268)
  | smrEntry -- SMR_ENTRY (R268)
  | smrVoids -- SMR_VOIDS (R268)
  | smrUnderrun -- SMR_UNDERRUN (R268)
  | smrUnderinfo -- SMR_UNDERINFO (R268)
  | smrPerrcnt -- SMR_PERRCNT (R268)
  | smrConflict -- SMR_CONFLICT (R268)
  | smrFlits -- SMR_FLITS (R268)
  | smlSrcLo -- SML_SRC_LO (R269)
  | smlSrcHi -- SML_SRC_HI (R269)
  | smlDst -- SML_DST (R269)
  | smlCtl -- SML_CTL (R269)
  | smfSwapLo -- SMF_SWAP_LO (R269)
  | smfSwapHi -- SMF_SWAP_HI (R269)
  | smfSwapctl -- SMF_SWAPCTL (R269)
  | smfBcalH -- SMF_BCAL_H (R269)
  | smfBcalV -- SMF_BCAL_V (R269)
  | smfRepair -- SMF_REPAIR (R269)
  | trtCtl -- TRT_CTL (R301)
  | trtStat -- TRT_STAT (R301)
  | trtListLo -- TRT_LIST_LO (R301)
  | trtListHi -- TRT_LIST_HI (R301)
  | trtSubLo -- TRT_SUB_LO (R301)
  | trtSubHi -- TRT_SUB_HI (R301)
  | trtSubstat -- TRT_SUBSTAT (R301)
  | trtAmax -- TRT_AMAX (R301)
  | trtRdbytes -- TRT_RDBYTES (R301)
  | trtWrbytes -- TRT_WRBYTES (R301)
  | trtLatmax -- TRT_LATMAX (R301)
  | trtFault -- TRT_FAULT (R301)
  | dmfHot -- DMF_HOT (R302)
  | dmfCstall -- DMF_CSTALL (R302)
  | dmfEcc -- DMF_ECC (R302)
  | fbrStat -- FBR_STAT (R302)
  | fbrWrbytes -- FBR_WRBYTES (R302)
  | fbrRdbytes -- FBR_RDBYTES (R302)
  | fbrMaxq -- FBR_MAXQ (R302)
  | bicWctr -- BIC_WCTR (R327)
  | bicWtgt -- BIC_WTGT (R327)
  | cupCval -- CUP_CVAL (R328)
  | cupClim -- CUP_CLIM (R328)
  | cupCstat -- CUP_CSTAT (R328)
  | cupLstat -- CUP_LSTAT (R328)
  | cupLcfg -- CUP_LCFG (R328)
  | cupDent -- CUP_DENT (R328)
  | cupDpar -- CUP_DPAR (R328)
  | cupDwait -- CUP_DWAIT (R328)
  | cupDwtgt -- CUP_DWTGT (R328)
  | cupDdone -- CUP_DDONE (R328)
  | cupDctl -- CUP_DCTL (R328)
  | cupDone -- CUP_DONE (R328)
  | cupDstat -- CUP_DSTAT (R328)
  | cupWuse -- CUP_WUSE (R328)
  | cupWfull -- CUP_WFULL (R328)
  | cupRefused -- CUP_REFUSED (R328)
  | cupOps -- CUP_OPS (R328)
  | cupQmax -- CUP_QMAX (R328)
  | cupCunit -- CUP_CUNIT (R328)
  | cupLunit -- CUP_LUNIT (R328)
  | cupBreak -- CUP_BREAK (R328)
  | cupRank -- CUP_RANK (R328)
  | cupRankHi -- CUP_RANK_HI (R328)
  | routeCtl -- ROUTE_CTL (R348)
  | routeTick -- ROUTE_TICK (R348)
  | rteCfg -- RTE_CFG (R348)
  | rteFill -- RTE_FILL (R348)
  | rteCnt -- RTE_CNT (R348)
  | spdCtl -- SPD_CTL (R349)
  | spdStat -- SPD_STAT (R349)
  | spdDozecc -- SPD_DOZECC (R349)
  | spdWakes -- SPD_WAKES (R349)
  | tickCtl -- TICK_CTL (R368)
  | tickPeriod -- TICK_PERIOD (R368)
  | tickMin -- TICK_MIN (R368)
  | tickMax -- TICK_MAX (R368)
  | tickLead -- TICK_LEAD (R368)
  | tickStat -- TICK_STAT (R368)
  | ctTimeLo -- CT_TIME_LO (R368)
  | ctTimeHi -- CT_TIME_HI (R368)
  | ctTickLo -- CT_TICK_LO (R368)
  | ctTickHi -- CT_TICK_HI (R368)
  | ctNextLo -- CT_NEXT_LO (R368)
  | ctNextHi -- CT_NEXT_HI (R368)
  | ctEdgeLo -- CT_EDGE_LO (R368)
  | ctEdgeHi -- CT_EDGE_HI (R368)
  | ctSkew -- CT_SKEW (R368)
  | ctOut -- CT_OUT (R368)
  | ctPartLo -- CT_PART_LO (R368)
  | ctPartHi -- CT_PART_HI (R368)
  | ctOvr -- CT_OVR (R368)
  | ctDmgcnt -- CT_DMGCNT (R368)
  | ctWdt -- CT_WDT (R368)
  | ctHbeat -- CT_HBEAT (R368)
  | ctLogptr -- CT_LOGPTR (R368)
  | ctLog -- CT_LOG (R368)
  | ctAct -- CT_ACT (R368)
  | skbCtl -- SKB_CTL (R400)
  | skbStat -- SKB_STAT (R400)
  | skbPeerLo -- SKB_PEER_LO (R400)
  | skbPeerHi -- SKB_PEER_HI (R400)
  | skbLatns -- SKB_LATNS (R400)
  | skbFeccorr -- SKB_FECCORR (R400)
  | skbFecunc -- SKB_FECUNC (R400)
  | skbCrcerr -- SKB_CRCERR (R400)
  | skbReplay -- SKB_REPLAY (R400)
  | skbRetrains -- SKB_RETRAINS (R400)
  | skbTxdata -- SKB_TXDATA (R400)
  | skbRxdata -- SKB_RXDATA (R400)
  | skbLoad -- SKB_LOAD (R400)
  | skbBerth -- SKB_BERTH (R400)
  | skbTfiCtl -- SKB_TFI_CTL (R400)
  | skbTfiRate -- SKB_TFI_RATE (R400)
  | skbTfiCount -- SKB_TFI_COUNT (R400)
  | skbDevid -- SKB_DEVID (R401)
  | skbDims -- SKB_DIMS (R401)
  | skbRtctl -- SKB_RTCTL (R401)
  | skbGroup -- SKB_GROUP (R401)
  | skbStarve -- SKB_STARVE (R401)
  | skbFantmo -- SKB_FANTMO (R401)
  | skbDiscard -- SKB_DISCARD (R401)
  | skbCollSubLo -- SKB_COLL_SUB_LO (R401)
  | skbCollSubHi -- SKB_COLL_SUB_HI (R401)
  | skbCollStat -- SKB_COLL_STAT (R401)
  | ringCbaseLo -- RING_CBASE_LO (R414)
  | ringCbaseHi -- RING_CBASE_HI (R414)
  | ringQbaseLo -- RING_QBASE_LO (R414)
  | ringQbaseHi -- RING_QBASE_HI (R414)
  | ringCfg -- RING_CFG (R414)
  | ringDb -- RING_DB (R414)
  | ringHead -- RING_HEAD (R414)
  | ringQtail -- RING_QTAIL (R414)
  | ringQhead -- RING_QHEAD (R414)
  | ringStat -- RING_STAT (R414)
  | partCfg -- PART_CFG (R434)
  | partSpLo -- PART_SP_LO (R434)
  | partSpHi -- PART_SP_HI (R434)
  | hifLink -- HIF_LINK (R434)
  | hifB2base -- HIF_B2BASE (R434)
  | hifAtcmiss -- HIF_ATCMISS (R434)
  | hifCmds -- HIF_CMDS (R434)
  | pwrCtl -- PWR_CTL (R459)
  | pwrStatus -- PWR_STATUS (R459)
  | pwrCclk -- PWR_CCLK (R459)
  | pwrMinclk -- PWR_MINCLK (R459)
  | pwrMeas -- PWR_MEAS (R459)
  | pwrVcore -- PWR_VCORE (R459)
  | pwrTemp -- PWR_TEMP (R459)
  | pwrWin -- PWR_WIN (R459)
  | pwrIdle -- PWR_IDLE (R459)
  | pdmDreq -- PDM_DREQ (R459)
  | pdmDrain -- PDM_DRAIN (R459)
  | pdmRamp -- PDM_RAMP (R459)
  | pdmLastoff -- PDM_LASTOFF (R459)
  | pdmWakes -- PDM_WAKES (R459)
  | pdmDstat -- PDM_DSTAT (R459)
  | ehCtl -- EH_CTL (R477)
  | ehWin -- EH_WIN (R477)
  | ehStat -- EH_STAT (R477)
  | ehOvf -- EH_OVF (R477)
  | ehMerged -- EH_MERGED (R477)
  | ehSfull -- EH_SFULL (R477)
  | ehFwd -- EH_FWD (R477)
  | ehPop -- EH_POP (R477)
  | ehFilt -- EH_FILT (R477)
  | ehRec -- EH_REC (R477)
  | colStat -- COL_STAT (R477)
  | colReports -- COL_REPORTS (R477)
  | colSfull -- COL_SFULL (R477)
  | colInjLo -- COL_INJ_LO (R477)
  | colInjHi -- COL_INJ_HI (R477)
  | keepCtl -- KEEP_CTL (R500)
  | keepBootstat -- KEEP_BOOTSTAT (R500)
  | keepRst -- KEEP_RST (R500)
  | keepLc -- KEEP_LC (R500)
  | keepLcreq -- KEEP_LCREQ (R500)
  | keepDbg -- KEEP_DBG (R500)
  | keepSerialLo -- KEEP_SERIAL_LO (R500)
  | keepSerialHi -- KEEP_SERIAL_HI (R500)
  | keepSvn -- KEEP_SVN (R500)
  | keepMbctl -- KEEP_MBCTL (R500)
  | keepMbox -- KEEP_MBOX (R500)
  | keepFuse -- KEEP_FUSE (R500)
  | ocuCtl -- OCU_CTL (R500)
  | ocuSrc -- OCU_SRC (R500)
  | ocuPcint -- OCU_PCINT (R500)
  | ocuDrop -- OCU_DROP (R500)
  | ocuWptr -- OCU_WPTR (R500)
  | ocuHalt -- OCU_HALT (R500)
  | ocuMbox -- OCU_MBOX (R500)
  | ocuWctr -- OCU_WCTR (R500)
  | ocuBuf -- OCU_BUF (R500)
  | bfcCtl -- BFC_CTL (R500)
  | bfcEntryLo -- BFC_ENTRY_LO (R500)
  | bfcEntryHi -- BFC_ENTRY_HI (R500)
  | bfcL2stat -- BFC_L2STAT (R500)
  | sbdSlew -- SBD_SLEW (R517)
  | sbdSsc -- SBD_SSC (R517)
  | sbdPins -- SBD_PINS (R517)
  | sbdFault -- SBD_FAULT (R517)
  deriving DecidableEq, Repr

/-- The table row of a control register. -/
def CReg.row : CReg → RegRow
  | .bicSrc => ⟨.quad, 0x10000, 0x4, 1024, 0x7FFF, 0, 0x20000, 0, 0, 0x18000, 0, 0x3F00, false, false, false, false⟩
  | .bicEoi => ⟨.quad, 0x11000, 0x100, 4, 0, 0, 0, 0x3FF, 0, 0, 0, 0, false, false, false, false⟩
  | .bicRun => ⟨.quad, 0x11004, 0x100, 4, 0, 0, 0, 0, 0, 0x1F7F, 0, 0x40, false, false, false, false⟩
  | .bicSpur => ⟨.quad, 0x11008, 0x100, 4, 0, 0, 0, 0, 0xFFFF, 0, 0, 0, false, false, false, false⟩
  | .bicCtl => ⟨.quad, 0x11800, 0, 1, 0x1, 0, 0, 0, 0, 0, 0, 0, false, false, false, false⟩
  | .numSat => ⟨.core, 0x30000, 0x10, 6, 0, 0, 0, 0, 0xFFFFFFFF, 0, 0, 0, false, false, false, false⟩
  | .numFtz => ⟨.core, 0x30004, 0x10, 6, 0, 0, 0, 0, 0xFFFFFFFF, 0, 0, 0, false, false, false, false⟩
  | .numNan => ⟨.core, 0x30008, 0x10, 6, 0, 0, 0, 0, 0xFFFFFFFF, 0, 0, 0, false, false, false, false⟩
  | .numMode => ⟨.core, 0x30070, 0, 1, 0, 0, 0, 0, 0, 0x3, 0, 0, false, false, false, false⟩
  | .matCtl => ⟨.core, 0x32000, 0, 1, 0x3, 0, 0, 0, 0, 0, 0, 0x3, false, false, false, false⟩
  | .matAbft => ⟨.core, 0x32004, 0, 1, 0, 0, 0, 0, 0xFFFFFFFF, 0, 0, 0, false, false, false, false⟩
  | .matAbftcnt => ⟨.core, 0x32008, 0, 1, 0, 0, 0, 0, 0xFFFFFFFF, 0, 0, 0, false, false, false, false⟩
  | .matSkip => ⟨.core, 0x3200C, 0, 1, 0, 0, 0, 0, 0xFFFFFFFF, 0, 0, 0, false, false, false, false⟩
  | .matPasses => ⟨.core, 0x32010, 0, 1, 0, 0, 0, 0, 0xFFFFFFFF, 0, 0, 0, false, false, false, false⟩
  | .matGated => ⟨.core, 0x32014, 0, 1, 0, 0, 0, 0, 0, 0xFFFFFFFF, 0, 0, false, false, false, false⟩
  | .mvpRows => ⟨.core, 0x32018, 0, 1, 0, 0, 0, 0, 0xFFFFFFFF, 0, 0, 0, false, false, false, false⟩
  | .mvpPortwait => ⟨.core, 0x3201C, 0, 1, 0, 0, 0, 0, 0xFFFFFFFF, 0, 0, 0, false, false, false, false⟩
  | .drumPp => ⟨.spire, 0xC000, 0, 1, 0x7F7F, 0, 0, 0, 0, 0x10000, 0, 0, false, false, false, false⟩
  | .drumCe => ⟨.spire, 0xC004, 0, 1, 0, 0, 0, 0, 0xFFFFFFFF, 0, 0, 0, false, false, false, false⟩
  | .pcLock => ⟨.spire, 0xC010, 0, 1, 0xFF, 0, 0, 0, 0, 0, 0, 0, false, true, false, false⟩
  | .pcInv => ⟨.spire, 0xC014, 0, 1, 0, 0, 0, 0x1, 0, 0, 0, 0, false, true, false, false⟩
  | .memBankwait => ⟨.core, 0x34000, 0, 1, 0, 0, 0, 0, 0xFFFFFFFF, 0, 0, 0, false, false, false, false⟩
  | .memRtwait => ⟨.core, 0x34004, 0, 1, 0, 0, 0, 0, 0xFFFFFFFF, 0, 0, 0, false, false, false, false⟩
  | .memCe => ⟨.core, 0x34008, 0, 1, 0, 0, 0, 0, 0xFFFFFFFF, 0, 0, 0, false, false, false, false⟩
  | .memWcmiss => ⟨.core, 0x3400C, 0, 1, 0, 0, 0, 0, 0xFFFFFFFF, 0, 0, 0, false, false, false, false⟩
  | .winBaseLo => ⟨.quad, 0x30000, 0x10, 16, 0xFFFFF000, 0, 0, 0, 0, 0, 0, 0, true, false, false, false⟩
  | .winBaseHi => ⟨.quad, 0x30004, 0x10, 16, 0xFF, 0, 0, 0, 0, 0, 0, 0, true, false, false, false⟩
  | .winLen => ⟨.quad, 0x30008, 0x10, 16, 0x1FFFFF, 0, 0, 0, 0, 0, 0, 0, true, false, false, false⟩
  | .fxbWinvFirst => ⟨.quad, 0x30100, 0, 1, 0x7FFFFFF, 0, 0, 0, 0, 0, 0, 0, true, false, false, false⟩
  | .fxbWinvCnt => ⟨.quad, 0x30104, 0, 1, 0x1FFFFF, 0, 0, 0, 0, 0, 0, 0, true, false, false, false⟩
  | .fxbWinvCtl => ⟨.quad, 0x30108, 0, 1, 0xF, 0, 0x100, 0, 0, 0x10000, 0, 0, true, false, false, false⟩
  | .fxbWalks => ⟨.quad, 0x3010C, 0, 1, 0, 0, 0, 0, 0xFFFFFFFF, 0, 0, 0, false, false, false, false⟩
  | .smrStat => ⟨.core, 0x36000, 0, 1, 0, 0x70000, 0, 0, 0, 0xF07, 0, 0, false, false, false, false⟩
  | .smrTidx => ⟨.core, 0x36004, 0, 1, 0x3FFF, 0, 0, 0, 0, 0, 0, 0, false, false, false, false⟩
  | .smrTdlo => ⟨.core, 0x36008, 0, 1, 0xFFFFFFFF, 0, 0, 0, 0, 0, 0, 0, false, false, false, false⟩
  | .smrTdhi => ⟨.core, 0x3600C, 0, 1, 0xFFFFFFFF, 0, 0, 0, 0, 0, 0, 0, false, false, false, false⟩
  | .smrPready => ⟨.core, 0x36010, 0, 1, 0, 0, 0xFF, 0, 0, 0, 0, 0, false, false, false, false⟩
  | .smrEntry => ⟨.core, 0x36014, 0, 1, 0, 0, 0, 0, 0, 0xFFFF0FFF, 0, 0, false, false, false, false⟩
  | .smrVoids => ⟨.core, 0x36018, 0, 1, 0, 0, 0, 0, 0xFFFFFFFF, 0, 0, 0, false, false, false, false⟩
  | .smrUnderrun => ⟨.core, 0x3601C, 0, 1, 0, 0, 0, 0, 0xFFFFFFFF, 0, 0, 0, false, false, false, false⟩
  | .smrUnderinfo => ⟨.core, 0x36020, 0, 1, 0, 0, 0, 0, 0, 0xFFFF7FFF, 0, 0, false, false, false, false⟩
  | .smrPerrcnt => ⟨.core, 0x36024, 0, 1, 0, 0, 0, 0, 0xFFFFFFFF, 0, 0, 0, false, false, false, false⟩
  | .smrConflict => ⟨.core, 0x36028, 0, 1, 0, 0, 0, 0, 0xFFFFFFFF, 0, 0, 0, false, false, false, false⟩
  | .smrFlits => ⟨.core, 0x3602C, 0, 1, 0, 0, 0, 0, 0xFFFFFFFF, 0, 0, 0, false, false, false, false⟩
  | .smlSrcLo => ⟨.quad, 0x40000, 0, 1, 0xFFFFFFC0, 0, 0, 0, 0, 0, 0, 0, true, false, false, false⟩
  | .smlSrcHi => ⟨.quad, 0x40004, 0, 1, 0xFF, 0, 0, 0, 0, 0, 0, 0, true, false, false, false⟩
  | .smlDst => ⟨.quad, 0x40008, 0, 1, 0x3FF07FF, 0, 0, 0, 0, 0, 0, 0, true, false, false, false⟩
  | .smlCtl => ⟨.quad, 0x4000C, 0, 1, 0xF00, 0, 0x1, 0, 0, 0xFFFF00F2, 0, 0, true, false, false, false⟩
  | .smfSwapLo => ⟨.quad, 0x40020, 0, 1, 0xFFFFFFFF, 0, 0, 0, 0, 0, 0, 0, true, false, false, false⟩
  | .smfSwapHi => ⟨.quad, 0x40024, 0, 1, 0xFFFF, 0, 0, 0, 0, 0, 0, 0, true, false, false, false⟩
  | .smfSwapctl => ⟨.quad, 0x40028, 0, 1, 0xF, 0x60000, 0x300, 0, 0, 0x10000, 0, 0, true, false, false, false⟩
  | .smfBcalH => ⟨.quad, 0x40040, 0, 1, 0, 0, 0, 0, 0, 0x3FF, 0, 0, false, false, false, false⟩
  | .smfBcalV => ⟨.quad, 0x40044, 0, 1, 0, 0, 0, 0, 0, 0x3FF, 0, 0, false, false, false, false⟩
  | .smfRepair => ⟨.quad, 0x40060, 0x4, 8, 0, 0, 0, 0, 0, 0xFFFFFFFF, 0, 0, false, false, false, false⟩
  | .trtCtl => ⟨.spire, 0x8000, 0, 1, 0xF03, 0, 0, 0, 0, 0, 0, 0, true, false, false, false⟩
  | .trtStat => ⟨.spire, 0x8004, 0, 1, 0, 0xC, 0, 0, 0, 0xFF0003, 0, 0x2, false, false, false, false⟩
  | .trtListLo => ⟨.spire, 0x8008, 0, 1, 0xFFFFFFC0, 0, 0, 0, 0, 0, 0, 0, true, false, false, false⟩
  | .trtListHi => ⟨.spire, 0x800C, 0, 1, 0xFF, 0, 0, 0, 0, 0, 0, 0, true, false, false, false⟩
  | .trtSubLo => ⟨.spire, 0x8010, 0, 1, 0, 0, 0, 0xFFFFFFC0, 0, 0, 0, 0, false, false, false, false⟩
  | .trtSubHi => ⟨.spire, 0x8014, 0, 1, 0, 0, 0, 0xFF, 0, 0, 0, 0, false, false, false, false⟩
  | .trtSubstat => ⟨.spire, 0x8018, 0, 1, 0, 0x100, 0, 0, 0, 0xFF, 0, 0x80, false, false, false, false⟩
  | .trtAmax => ⟨.spire, 0x801C, 0, 1, 0, 0, 0, 0, 0xFFFFFFFF, 0, 0, 0, false, false, false, false⟩
  | .trtRdbytes => ⟨.spire, 0x8020, 0, 1, 0, 0, 0, 0, 0xFFFFFFFF, 0, 0, 0, false, false, false, false⟩
  | .trtWrbytes => ⟨.spire, 0x8024, 0, 1, 0, 0, 0, 0, 0xFFFFFFFF, 0, 0, 0, false, false, false, false⟩
  | .trtLatmax => ⟨.spire, 0x8028, 0, 1, 0, 0, 0, 0, 0xFFFFFFFF, 0, 0, 0, false, false, false, false⟩
  | .trtFault => ⟨.spire, 0x802C, 0, 1, 0, 0, 0, 0, 0, 0xFFFF0F7F, 0, 0, false, false, false, false⟩
  | .dmfHot => ⟨.quad, 0x50000, 0, 1, 0, 0, 0, 0, 0, 0x7F37FF, 0, 0, false, false, false, false⟩
  | .dmfCstall => ⟨.quad, 0x50004, 0, 1, 0, 0, 0, 0, 0xFFFFFFFF, 0, 0, 0, false, false, false, false⟩
  | .dmfEcc => ⟨.quad, 0x50008, 0, 1, 0, 0, 0, 0, 0xFFFFFFFF, 0, 0, 0, false, false, false, false⟩
  | .fbrStat => ⟨.quad, 0x50010, 0x10, 2, 0, 0, 0, 0, 0, 0xFF03, 0, 0, false, false, false, false⟩
  | .fbrWrbytes => ⟨.quad, 0x50014, 0x10, 2, 0, 0, 0, 0, 0xFFFFFFFF, 0, 0, 0, false, false, false, false⟩
  | .fbrRdbytes => ⟨.quad, 0x50018, 0x10, 2, 0, 0, 0, 0, 0xFFFFFFFF, 0, 0, 0, false, false, false, false⟩
  | .fbrMaxq => ⟨.quad, 0x5001C, 0x10, 2, 0, 0, 0, 0, 0xFFFF, 0, 0, 0, false, false, false, false⟩
  | .bicWctr => ⟨.quad, 0x12000, 0x8, 512, 0x87FFFFFF, 0, 0, 0, 0, 0, 0, 0, false, false, false, false⟩
  | .bicWtgt => ⟨.quad, 0x12004, 0x8, 512, 0xFFFFFFFF, 0, 0, 0, 0, 0, 0, 0, false, false, false, false⟩
  | .cupCval => ⟨.spire, 0, 0x10, 1024, 0xFFFFFFFF, 0, 0, 0, 0, 0, 0, 0, false, false, false, false⟩
  | .cupClim => ⟨.spire, 0x4, 0x10, 1024, 0xFFFFFFFF, 0, 0, 0, 0, 0, 0, 0xFFFFFFFF, false, false, false, false⟩
  | .cupCstat => ⟨.spire, 0x8, 0x10, 1024, 0, 0x1, 0, 0, 0, 0x1F7FE, 0, 0, false, false, false, false⟩
  | .cupLstat => ⟨.spire, 0x4000, 0x8, 256, 0, 0, 0, 0, 0, 0x83FFFFFF, 0, 0, false, false, false, false⟩
  | .cupLcfg => ⟨.spire, 0x4004, 0x8, 256, 0xF, 0, 0, 0, 0, 0, 0, 0, true, false, false, false⟩
  | .cupDent => ⟨.spire, 0x5000, 0x20, 64, 0xFFFFFFFC, 0, 0, 0, 0, 0, 0, 0, true, false, false, false⟩
  | .cupDpar => ⟨.spire, 0x5004, 0x20, 64, 0xFFFFFFFF, 0, 0, 0, 0, 0, 0, 0, true, false, false, false⟩
  | .cupDwait => ⟨.spire, 0x5008, 0x20, 64, 0xFFFF, 0, 0, 0, 0, 0, 0, 0, true, false, false, false⟩
  | .cupDwtgt => ⟨.spire, 0x500C, 0x20, 64, 0xFFFFFFFF, 0, 0, 0, 0, 0, 0, 0, true, false, false, false⟩
  | .cupDdone => ⟨.spire, 0x5010, 0x20, 64, 0xFFFF, 0, 0, 0, 0, 0, 0, 0, true, false, false, false⟩
  | .cupDctl => ⟨.spire, 0x5014, 0x20, 64, 0xF0FF, 0, 0x300, 0, 0, 0xC00, 0, 0, true, false, false, false⟩
  | .cupDone => ⟨.spire, 0x6000, 0, 1, 0, 0, 0, 0x3F, 0, 0, 0, 0, false, false, false, false⟩
  | .cupDstat => ⟨.spire, 0x6004, 0, 1, 0, 0x10000, 0, 0, 0, 0x7F7F, 0, 0, false, false, false, false⟩
  | .cupWuse => ⟨.spire, 0x6008, 0, 1, 0, 0, 0, 0, 0, 0x3FF, 0, 0, false, false, false, false⟩
  | .cupWfull => ⟨.spire, 0x600C, 0, 1, 0, 0, 0, 0, 0xFFFFFFFF, 0, 0, 0, false, false, false, false⟩
  | .cupRefused => ⟨.spire, 0x6010, 0, 1, 0, 0, 0, 0, 0xFFFFFFFF, 0, 0, 0, false, false, false, false⟩
  | .cupOps => ⟨.spire, 0x6014, 0, 1, 0, 0, 0, 0, 0xFFFFFFFF, 0, 0, 0, false, false, false, false⟩
  | .cupQmax => ⟨.spire, 0x6018, 0, 1, 0, 0, 0, 0, 0x7F, 0, 0, 0, false, false, false, false⟩
  | .cupCunit => ⟨.spire, 0x6100, 0x4, 16, 0x1F, 0, 0, 0, 0, 0, 0, 0, true, false, false, false⟩
  | .cupLunit => ⟨.spire, 0x6140, 0x4, 16, 0x1F, 0, 0, 0, 0, 0, 0, 0, true, false, false, false⟩
  | .cupBreak => ⟨.spire, 0x6180, 0, 1, 0x1FFF, 0, 0x2000, 0, 0, 0, 0, 0, true, false, false, false⟩
  | .cupRank => ⟨.spire, 0x6200, 0x8, 32, 0, 0, 0, 0, 0, 0xFFFFFFFF, 0, 0, false, false, false, false⟩
  | .cupRankHi => ⟨.spire, 0x6204, 0x8, 32, 0, 0, 0, 0, 0, 0xFFFFFFFF, 0, 0, false, false, false, false⟩
  | .routeCtl => ⟨.core, 0x38000, 0, 1, 0xFF03, 0, 0, 0, 0, 0, 0, 0, false, false, false, false⟩
  | .routeTick => ⟨.core, 0x38004, 0, 1, 0, 0, 0, 0, 0, 0xFFFFFFFF, 0, 0, false, false, false, false⟩
  | .rteCfg => ⟨.core, 0x38100, 0x4, 64, 0xFFFFFFFF, 0, 0, 0, 0, 0, 0, 0, false, false, false, false⟩
  | .rteFill => ⟨.core, 0x38200, 0x4, 64, 0, 0, 0, 0, 0, 0xFFFF, 0, 0, false, false, false, false⟩
  | .rteCnt => ⟨.core, 0x38300, 0x4, 64, 0, 0, 0, 0, 0xFFFFFFFF, 0, 0, 0, false, false, false, false⟩
  | .spdCtl => ⟨.spire, 0xD000, 0, 1, 0x1, 0, 0, 0, 0, 0, 0, 0x1, true, false, false, false⟩
  | .spdStat => ⟨.spire, 0xD004, 0, 1, 0, 0, 0, 0, 0, 0x1, 0, 0, false, false, false, false⟩
  | .spdDozecc => ⟨.spire, 0xD008, 0, 1, 0, 0, 0, 0, 0xFFFFFFFF, 0, 0, 0, false, false, false, false⟩
  | .spdWakes => ⟨.spire, 0xD00C, 0, 1, 0, 0, 0, 0, 0xFFFFFFFF, 0, 0, 0, false, false, false, false⟩
  | .tickCtl => ⟨.dev, 0x100000, 0, 1, 0x1F, 0, 0, 0, 0, 0, 0, 0, true, false, false, false⟩
  | .tickPeriod => ⟨.dev, 0x100004, 0, 1, 0x3FFFFFFF, 0, 0, 0, 0, 0, 0, 0x186A0, true, false, false, false⟩
  | .tickMin => ⟨.dev, 0x100008, 0, 1, 0x3FFFFFFF, 0, 0, 0, 0, 0, 0, 0x2710, true, false, false, false⟩
  | .tickMax => ⟨.dev, 0x10000C, 0, 1, 0x3FFFFFFF, 0, 0, 0, 0, 0, 0, 0xF4240, true, false, false, false⟩
  | .tickLead => ⟨.dev, 0x100010, 0, 1, 0xFFFF, 0, 0, 0, 0, 0, 0, 0x1F40, true, false, false, false⟩
  | .tickStat => ⟨.dev, 0x100014, 0, 1, 0, 0x1E, 0, 0, 0, 0x7F21, 0, 0, false, false, false, false⟩
  | .ctTimeLo => ⟨.dev, 0x100018, 0, 1, 0, 0, 0, 0, 0, 0xFFFFFFFF, 0, 0, false, false, false, false⟩
  | .ctTimeHi => ⟨.dev, 0x10001C, 0, 1, 0, 0, 0, 0, 0, 0xFFFFFFFF, 0, 0, false, false, false, false⟩
  | .ctTickLo => ⟨.dev, 0x100020, 0, 1, 0, 0, 0, 0, 0, 0xFFFFFFFF, 0, 0, false, false, false, false⟩
  | .ctTickHi => ⟨.dev, 0x100024, 0, 1, 0, 0, 0, 0, 0, 0xFFFF, 0, 0, false, false, false, false⟩
  | .ctNextLo => ⟨.dev, 0x100028, 0, 1, 0xFFFFFFFF, 0, 0, 0, 0, 0, 0, 0, true, false, false, false⟩
  | .ctNextHi => ⟨.dev, 0x10002C, 0, 1, 0xFFFF, 0, 0, 0, 0, 0, 0, 0, true, false, false, false⟩
  | .ctEdgeLo => ⟨.dev, 0x100030, 0, 1, 0, 0, 0, 0, 0, 0xFFFFFFFF, 0, 0, false, false, false, false⟩
  | .ctEdgeHi => ⟨.dev, 0x100034, 0, 1, 0, 0, 0, 0, 0, 0xFFFFFFFF, 0, 0, false, false, false, false⟩
  | .ctSkew => ⟨.dev, 0x100038, 0, 1, 0, 0, 0, 0, 0, 0xFFFF, 0, 0, false, false, false, false⟩
  | .ctOut => ⟨.dev, 0x10003C, 0, 1, 0x1FF, 0, 0, 0, 0, 0, 0, 0xA, false, false, false, false⟩
  | .ctPartLo => ⟨.dev, 0x100040, 0, 1, 0xFFFFFFFF, 0, 0, 0, 0, 0, 0, 0, true, false, false, false⟩
  | .ctPartHi => ⟨.dev, 0x100044, 0, 1, 0xFFFFFFFF, 0, 0, 0, 0, 0, 0, 0, true, false, false, false⟩
  | .ctOvr => ⟨.dev, 0x100048, 0, 1, 0, 0, 0, 0, 0xFFFFFFFF, 0, 0, 0, false, false, false, false⟩
  | .ctDmgcnt => ⟨.dev, 0x10004C, 0, 1, 0, 0, 0, 0, 0xFFFFFFFF, 0, 0, 0, false, false, false, false⟩
  | .ctWdt => ⟨.dev, 0x100050, 0, 1, 0x3F, 0, 0x100, 0, 0, 0, 0, 0xA, true, false, false, false⟩
  | .ctHbeat => ⟨.dev, 0x100054, 0, 1, 0xFFFFFFFF, 0, 0, 0, 0, 0, 0, 0, true, false, false, false⟩
  | .ctLogptr => ⟨.dev, 0x100058, 0, 1, 0, 0x100, 0, 0, 0, 0x3F, 0, 0, false, false, false, false⟩
  | .ctLog => ⟨.dev, 0x100100, 0x4, 256, 0, 0, 0, 0, 0, 0xFFFFFFFF, 0, 0, false, false, false, false⟩
  | .ctAct => ⟨.dev, 0x100800, 0x4, 256, 0, 0, 0, 0, 0xFFFFFFFF, 0, 0, 0, false, false, false, false⟩
  | .skbCtl => ⟨.port, 0, 0, 1, 0x9, 0, 0x6, 0, 0, 0, 0x7F0, 0x8, true, false, false, false⟩
  | .skbStat => ⟨.port, 0x4, 0, 1, 0, 0x100, 0, 0, 0, 0x37, 0, 0, false, false, false, false⟩
  | .skbPeerLo => ⟨.port, 0x8, 0, 1, 0, 0, 0, 0, 0, 0xFFFFFFFF, 0, 0, false, false, false, false⟩
  | .skbPeerHi => ⟨.port, 0xC, 0, 1, 0, 0, 0, 0, 0, 0x7FFFFFFF, 0, 0, false, false, false, false⟩
  | .skbLatns => ⟨.port, 0x10, 0, 1, 0, 0, 0, 0, 0, 0xFFFF, 0, 0, false, false, false, false⟩
  | .skbFeccorr => ⟨.port, 0x14, 0, 1, 0, 0, 0, 0, 0xFFFFFFFF, 0, 0, 0, false, false, false, false⟩
  | .skbFecunc => ⟨.port, 0x18, 0, 1, 0, 0, 0, 0, 0xFFFFFFFF, 0, 0, 0, false, false, false, false⟩
  | .skbCrcerr => ⟨.port, 0x1C, 0, 1, 0, 0, 0, 0, 0xFFFFFFFF, 0, 0, 0, false, false, false, false⟩
  | .skbReplay => ⟨.port, 0x20, 0, 1, 0, 0, 0, 0, 0xFFFFFFFF, 0, 0, 0, false, false, false, false⟩
  | .skbRetrains => ⟨.port, 0x24, 0, 1, 0, 0, 0, 0, 0xFFFF, 0, 0, 0, false, false, false, false⟩
  | .skbTxdata => ⟨.port, 0x28, 0, 1, 0, 0, 0, 0, 0xFFFFFFFF, 0, 0, 0, false, false, false, false⟩
  | .skbRxdata => ⟨.port, 0x2C, 0, 1, 0, 0, 0, 0, 0xFFFFFFFF, 0, 0, 0, false, false, false, false⟩
  | .skbLoad => ⟨.port, 0x30, 0, 1, 0, 0, 0, 0, 0, 0x7F, 0, 0, false, false, false, false⟩
  | .skbBerth => ⟨.port, 0x34, 0, 1, 0xFFFFFFFF, 0, 0, 0, 0, 0, 0, 0x10000, true, false, false, false⟩
  | .skbTfiCtl => ⟨.port, 0x40, 0, 1, 0x7, 0, 0, 0, 0, 0, 0, 0, false, false, false, false⟩
  | .skbTfiRate => ⟨.port, 0x44, 0, 1, 0xFFFFFFFF, 0, 0, 0, 0, 0, 0, 0x10000, false, false, false, false⟩
  | .skbTfiCount => ⟨.port, 0x48, 0, 1, 0, 0, 0, 0, 0xFFFFFFFF, 0, 0, 0, false, false, false, false⟩
  | .skbDevid => ⟨.dev, 0x700000, 0, 1, 0, 0, 0, 0, 0, 0, 0x3FF, 0, true, false, false, false⟩
  | .skbDims => ⟨.dev, 0x700004, 0, 1, 0, 0, 0, 0, 0, 0, 0x77F, 0, true, false, false, false⟩
  | .skbRtctl => ⟨.dev, 0x700008, 0, 1, 0, 0, 0x1, 0, 0, 0, 0, 0, true, false, false, false⟩
  | .skbGroup => ⟨.dev, 0x70000C, 0, 1, 0, 0, 0, 0, 0, 0x10000, 0x3FFF, 0, true, false, false, false⟩
  | .skbStarve => ⟨.dev, 0x700010, 0, 1, 0xFFFF, 0, 0, 0, 0, 0, 0, 0x7D0, true, false, false, false⟩
  | .skbFantmo => ⟨.dev, 0x700014, 0, 1, 0xFFFF, 0, 0, 0, 0, 0, 0, 0x3E8, true, false, false, false⟩
  | .skbDiscard => ⟨.dev, 0x700018, 0, 1, 0, 0, 0, 0, 0xFFFFFFFF, 0, 0, 0, false, false, false, false⟩
  | .skbCollSubLo => ⟨.dev, 0x700020, 0, 1, 0, 0, 0, 0xFFFFFFC0, 0, 0, 0, 0, false, false, false, false⟩
  | .skbCollSubHi => ⟨.dev, 0x700024, 0, 1, 0, 0, 0, 0xFF, 0, 0, 0, 0, false, false, false, false⟩
  | .skbCollStat => ⟨.dev, 0x700028, 0, 1, 0, 0x300, 0, 0, 0, 0xFFFF001F, 0, 0x10, false, false, false, false⟩
  | .ringCbaseLo => ⟨.ring, 0, 0, 1, 0xFFFFF000, 0, 0, 0, 0, 0, 0, 0, false, false, false, false⟩
  | .ringCbaseHi => ⟨.ring, 0x4, 0, 1, 0xFFFFFFFF, 0, 0, 0, 0, 0, 0, 0, false, false, false, false⟩
  | .ringQbaseLo => ⟨.ring, 0x8, 0, 1, 0xFFFFF000, 0, 0, 0, 0, 0, 0, 0, false, false, false, false⟩
  | .ringQbaseHi => ⟨.ring, 0xC, 0, 1, 0xFFFFFFFF, 0, 0, 0, 0, 0, 0, 0, false, false, false, false⟩
  | .ringCfg => ⟨.ring, 0x10, 0, 1, 0x7F01F3, 0, 0, 0, 0, 0, 0, 0x40, false, false, false, false⟩
  | .ringDb => ⟨.ring, 0x14, 0, 1, 0, 0, 0, 0xFFFF, 0, 0, 0, 0, false, false, false, false⟩
  | .ringHead => ⟨.ring, 0x18, 0, 1, 0, 0, 0, 0, 0, 0xFFFF, 0, 0, false, false, false, false⟩
  | .ringQtail => ⟨.ring, 0x1C, 0, 1, 0, 0, 0, 0, 0, 0xFFFF, 0, 0, false, false, false, false⟩
  | .ringQhead => ⟨.ring, 0x20, 0, 1, 0xFFFF, 0, 0, 0, 0, 0, 0, 0, false, false, false, false⟩
  | .ringStat => ⟨.ring, 0x24, 0, 1, 0, 0x2, 0, 0, 0, 0xFF05, 0, 0, false, false, false, false⟩
  | .partCfg => ⟨.part, 0, 0, 1, 0xFFFF7F07, 0, 0, 0, 0, 0, 0, 0, false, false, true, false⟩
  | .partSpLo => ⟨.part, 0x4, 0, 1, 0xFFFFFFFF, 0, 0, 0, 0, 0, 0, 0, false, false, true, false⟩
  | .partSpHi => ⟨.part, 0x8, 0, 1, 0xFFFFFFFF, 0, 0, 0, 0, 0, 0, 0, false, false, true, false⟩
  | .hifLink => ⟨.dev, 0x30000, 0, 1, 0, 0, 0, 0, 0, 0x101FF, 0, 0, false, false, false, false⟩
  | .hifB2base => ⟨.dev, 0x30004, 0, 1, 0x7, 0, 0, 0, 0, 0, 0, 0, false, false, false, false⟩
  | .hifAtcmiss => ⟨.dev, 0x30008, 0, 1, 0, 0, 0, 0, 0xFFFFFFFF, 0, 0, 0, false, false, false, false⟩
  | .hifCmds => ⟨.dev, 0x3000C, 0, 1, 0, 0, 0, 0, 0xFFFFFFFF, 0, 0, 0, false, false, false, false⟩
  | .pwrCtl => ⟨.dev, 0x200000, 0, 1, 0x7FF07FF, 0, 0, 0, 0, 0, 0, 0x708, true, false, false, false⟩
  | .pwrStatus => ⟨.dev, 0x200004, 0, 1, 0, 0, 0, 0, 0, 0x1F, 0, 0, false, false, false, false⟩
  | .pwrCclk => ⟨.dev, 0x200008, 0, 1, 0, 0, 0, 0, 0, 0x7FF07FF, 0, 0x5780578, false, false, false, false⟩
  | .pwrMinclk => ⟨.dev, 0x20000C, 0, 1, 0x7FF, 0, 0, 0, 0, 0, 0, 0x2BC, true, false, false, false⟩
  | .pwrMeas => ⟨.dev, 0x200010, 0, 1, 0, 0, 0, 0, 0, 0x7FF, 0, 0, false, false, false, false⟩
  | .pwrVcore => ⟨.dev, 0x200014, 0, 1, 0, 0, 0, 0, 0, 0x3FF, 0, 0, false, false, false, false⟩
  | .pwrTemp => ⟨.dev, 0x200018, 0, 1, 0xFF0000, 0, 0, 0, 0, 0xFF, 0, 0x640000, true, false, false, false⟩
  | .pwrWin => ⟨.dev, 0x20001C, 0, 1, 0x3FF, 0, 0, 0, 0, 0, 0, 0x1, true, false, false, false⟩
  | .pwrIdle => ⟨.dev, 0x200020, 0, 1, 0xFFFF, 0, 0, 0, 0, 0, 0, 0x64, true, false, false, false⟩
  | .pdmDreq => ⟨.dev, 0x200024, 0, 1, 0x7F, 0x10000, 0, 0x300, 0, 0, 0, 0, true, false, false, false⟩
  | .pdmDrain => ⟨.dev, 0x200028, 0, 1, 0x3FFF, 0, 0, 0, 0, 0, 0, 0x32, true, false, false, false⟩
  | .pdmRamp => ⟨.dev, 0x20002C, 0, 1, 0x1F, 0, 0, 0, 0, 0, 0, 0x8, true, false, false, false⟩
  | .pdmLastoff => ⟨.dev, 0x200030, 0, 1, 0, 0, 0, 0, 0, 0xF, 0, 0, false, false, false, false⟩
  | .pdmWakes => ⟨.dev, 0x200034, 0, 1, 0, 0, 0, 0, 0xFFFF, 0, 0, 0, false, false, false, false⟩
  | .pdmDstat => ⟨.dev, 0x200100, 0x4, 96, 0, 0, 0, 0, 0, 0x10737, 0, 0, false, false, false, false⟩
  | .ehCtl => ⟨.dev, 0x300000, 0, 1, 0x7, 0, 0, 0, 0, 0, 0, 0x4, true, false, false, false⟩
  | .ehWin => ⟨.dev, 0x300004, 0, 1, 0x3FFF, 0, 0, 0, 0, 0, 0, 0x64, true, false, false, false⟩
  | .ehStat => ⟨.dev, 0x300008, 0, 1, 0, 0x10000, 0, 0, 0, 0x201FF, 0, 0, false, false, false, false⟩
  | .ehOvf => ⟨.dev, 0x30000C, 0, 1, 0, 0, 0, 0, 0xFFFFFFFF, 0, 0, 0, false, false, false, false⟩
  | .ehMerged => ⟨.dev, 0x300010, 0, 1, 0, 0, 0, 0, 0xFFFFFFFF, 0, 0, 0, false, false, false, false⟩
  | .ehSfull => ⟨.dev, 0x300014, 0, 1, 0, 0, 0, 0, 0xFFFFFFFF, 0, 0, 0, false, false, false, false⟩
  | .ehFwd => ⟨.dev, 0x300018, 0, 1, 0, 0, 0, 0, 0xFFFFFFFF, 0, 0, 0, false, false, false, false⟩
  | .ehPop => ⟨.dev, 0x30001C, 0, 1, 0, 0, 0, 0x1, 0, 0, 0, 0, true, false, false, false⟩
  | .ehFilt => ⟨.dev, 0x300020, 0, 1, 0, 0, 0, 0, 0, 0x7F7F7F, 0, 0, false, false, false, false⟩
  | .ehRec => ⟨.dev, 0x300040, 0x4, 10, 0, 0, 0, 0, 0, 0xFFFFFFFF, 0, 0, false, false, false, false⟩
  | .colStat => ⟨.quad, 0, 0, 1, 0, 0, 0, 0, 0, 0x7F, 0, 0, false, false, false, false⟩
  | .colReports => ⟨.quad, 0x4, 0, 1, 0, 0, 0, 0, 0xFFFFFFFF, 0, 0, 0, false, false, false, false⟩
  | .colSfull => ⟨.quad, 0x8, 0, 1, 0, 0, 0, 0, 0xFFFFFFFF, 0, 0, 0, false, false, false, false⟩
  | .colInjLo => ⟨.quad, 0x10, 0, 1, 0xFFFFFFFF, 0, 0, 0, 0, 0, 0, 0, false, false, false, false⟩
  | .colInjHi => ⟨.quad, 0x14, 0, 1, 0x3FFFFFF, 0, 0x80000000, 0, 0, 0, 0, 0, false, false, false, false⟩
  | .keepCtl => ⟨.dev, 0x400000, 0, 1, 0x1, 0, 0x2, 0, 0, 0, 0, 0, true, false, false, false⟩
  | .keepBootstat => ⟨.dev, 0x400004, 0, 1, 0, 0, 0, 0, 0, 0xFF00FF, 0, 0, false, false, false, false⟩
  | .keepRst => ⟨.dev, 0x400008, 0, 1, 0, 0, 0, 0xFFFFFFFF, 0, 0, 0, 0, true, false, false, false⟩
  | .keepLc => ⟨.dev, 0x40000C, 0, 1, 0, 0, 0, 0, 0, 0x3, 0, 0, false, false, false, false⟩
  | .keepLcreq => ⟨.dev, 0x400010, 0, 1, 0, 0, 0, 0x3, 0, 0, 0, 0, true, false, false, false⟩
  | .keepDbg => ⟨.dev, 0x400014, 0, 1, 0, 0, 0, 0, 0, 0xF0F03, 0, 0x800, false, false, false, false⟩
  | .keepSerialLo => ⟨.dev, 0x400018, 0, 1, 0, 0, 0, 0, 0, 0xFFFFFFFF, 0, 0, false, false, false, false⟩
  | .keepSerialHi => ⟨.dev, 0x40001C, 0, 1, 0, 0, 0, 0, 0, 0xFFFF, 0, 0, false, false, false, false⟩
  | .keepSvn => ⟨.dev, 0x400020, 0, 1, 0, 0, 0, 0, 0, 0x3F, 0, 0, false, false, false, false⟩
  | .keepMbctl => ⟨.dev, 0x400030, 0, 1, 0, 0, 0, 0x3, 0, 0xC, 0, 0, true, false, false, false⟩
  | .keepMbox => ⟨.dev, 0x401000, 0x4, 1024, 0, 0, 0, 0xFFFFFFFF, 0, 0, 0, 0, true, false, false, false⟩
  | .keepFuse => ⟨.dev, 0x402000, 0x4, 2048, 0, 0, 0, 0, 0, 0xFFFFFFFF, 0, 0, false, false, false, true⟩
  | .ocuCtl => ⟨.dev, 0x500000, 0, 1, 0x3, 0, 0, 0, 0, 0, 0, 0x2, false, false, false, false⟩
  | .ocuSrc => ⟨.dev, 0x500004, 0, 1, 0x3FE, 0, 0, 0, 0, 0, 0, 0, false, false, false, false⟩
  | .ocuPcint => ⟨.dev, 0x500008, 0, 1, 0x1F, 0, 0, 0, 0, 0, 0, 0x10, false, false, false, false⟩
  | .ocuDrop => ⟨.dev, 0x50000C, 0, 1, 0, 0, 0, 0, 0xFFFFFFFF, 0, 0, 0, false, false, false, false⟩
  | .ocuWptr => ⟨.dev, 0x500010, 0, 1, 0, 0, 0, 0, 0, 0x1FFFF, 0, 0, false, false, false, false⟩
  | .ocuHalt => ⟨.dev, 0x500014, 0, 1, 0, 0, 0, 0x7FFF, 0, 0, 0, 0, false, false, false, false⟩
  | .ocuMbox => ⟨.dev, 0x500018, 0, 1, 0xFFFFFFFF, 0, 0, 0, 0, 0, 0, 0, false, false, false, false⟩
  | .ocuWctr => ⟨.dev, 0x500100, 0x4, 16, 0xFFFF, 0, 0, 0, 0, 0, 0, 0, false, false, false, false⟩
  | .ocuBuf => ⟨.dev, 0x600000, 0x4, 524288, 0, 0, 0, 0, 0, 0xFFFFFFFF, 0, 0, false, false, false, false⟩
  | .bfcCtl => ⟨.quad, 0x20000, 0, 1, 0xF, 0, 0x100, 0, 0, 0, 0, 0xE, true, false, false, false⟩
  | .bfcEntryLo => ⟨.quad, 0x20004, 0, 1, 0xFFFFFFFC, 0, 0, 0, 0, 0, 0, 0, true, false, false, false⟩
  | .bfcEntryHi => ⟨.quad, 0x20008, 0, 1, 0xFF, 0, 0, 0, 0, 0, 0, 0, true, false, false, false⟩
  | .bfcL2stat => ⟨.quad, 0x2000C, 0, 1, 0, 0, 0, 0, 0, 0xFFFF, 0, 0, false, false, false, false⟩
  | .sbdSlew => ⟨.dev, 0x200300, 0, 1, 0xFF, 0, 0, 0, 0, 0, 0, 0x64, true, false, false, false⟩
  | .sbdSsc => ⟨.dev, 0x200304, 0, 1, 0x1, 0, 0, 0, 0, 0, 0, 0x1, true, false, false, false⟩
  | .sbdPins => ⟨.dev, 0x200308, 0, 1, 0, 0, 0, 0, 0, 0x1FF, 0, 0x8, false, false, false, false⟩
  | .sbdFault => ⟨.dev, 0x20030C, 0, 1, 0, 0, 0, 0, 0, 0x3F, 0, 0, false, false, false, false⟩

/-- The registers replicated over: quadrant. -/
def CReg.ofQuad : List CReg :=
  [.bicSrc, .bicEoi, .bicRun, .bicSpur, .bicCtl, .winBaseLo, .winBaseHi, .winLen, .fxbWinvFirst, .fxbWinvCnt, .fxbWinvCtl, .fxbWalks] ++
  [.smlSrcLo, .smlSrcHi, .smlDst, .smlCtl, .smfSwapLo, .smfSwapHi, .smfSwapctl, .smfBcalH, .smfBcalV, .smfRepair, .dmfHot, .dmfCstall] ++
  [.dmfEcc, .fbrStat, .fbrWrbytes, .fbrRdbytes, .fbrMaxq, .bicWctr, .bicWtgt, .colStat, .colReports, .colSfull, .colInjLo, .colInjHi] ++
  [.bfcCtl, .bfcEntryLo, .bfcEntryHi, .bfcL2stat]

/-- The registers replicated over: core. -/
def CReg.ofCore : List CReg :=
  [.numSat, .numFtz, .numNan, .numMode, .matCtl, .matAbft, .matAbftcnt, .matSkip, .matPasses, .matGated, .mvpRows, .mvpPortwait] ++
  [.memBankwait, .memRtwait, .memCe, .memWcmiss, .smrStat, .smrTidx, .smrTdlo, .smrTdhi, .smrPready, .smrEntry, .smrVoids, .smrUnderrun] ++
  [.smrUnderinfo, .smrPerrcnt, .smrConflict, .smrFlits, .routeCtl, .routeTick, .rteCfg, .rteFill, .rteCnt]

/-- The registers replicated over: Spire. -/
def CReg.ofSpire : List CReg :=
  [.drumPp, .drumCe, .pcLock, .pcInv, .trtCtl, .trtStat, .trtListLo, .trtListHi, .trtSubLo, .trtSubHi, .trtSubstat, .trtAmax] ++
  [.trtRdbytes, .trtWrbytes, .trtLatmax, .trtFault, .cupCval, .cupClim, .cupCstat, .cupLstat, .cupLcfg, .cupDent, .cupDpar, .cupDwait] ++
  [.cupDwtgt, .cupDdone, .cupDctl, .cupDone, .cupDstat, .cupWuse, .cupWfull, .cupRefused, .cupOps, .cupQmax, .cupCunit, .cupLunit] ++
  [.cupBreak, .cupRank, .cupRankHi, .spdCtl, .spdStat, .spdDozecc, .spdWakes]

/-- The registers replicated over: the device. -/
def CReg.ofDev : List CReg :=
  [.tickCtl, .tickPeriod, .tickMin, .tickMax, .tickLead, .tickStat, .ctTimeLo, .ctTimeHi, .ctTickLo, .ctTickHi, .ctNextLo, .ctNextHi] ++
  [.ctEdgeLo, .ctEdgeHi, .ctSkew, .ctOut, .ctPartLo, .ctPartHi, .ctOvr, .ctDmgcnt, .ctWdt, .ctHbeat, .ctLogptr, .ctLog] ++
  [.ctAct, .skbDevid, .skbDims, .skbRtctl, .skbGroup, .skbStarve, .skbFantmo, .skbDiscard, .skbCollSubLo, .skbCollSubHi, .skbCollStat, .hifLink] ++
  [.hifB2base, .hifAtcmiss, .hifCmds, .pwrCtl, .pwrStatus, .pwrCclk, .pwrMinclk, .pwrMeas, .pwrVcore, .pwrTemp, .pwrWin, .pwrIdle] ++
  [.pdmDreq, .pdmDrain, .pdmRamp, .pdmLastoff, .pdmWakes, .pdmDstat, .ehCtl, .ehWin, .ehStat, .ehOvf, .ehMerged, .ehSfull] ++
  [.ehFwd, .ehPop, .ehFilt, .ehRec, .keepCtl, .keepBootstat, .keepRst, .keepLc, .keepLcreq, .keepDbg, .keepSerialLo, .keepSerialHi] ++
  [.keepSvn, .keepMbctl, .keepMbox, .keepFuse, .ocuCtl, .ocuSrc, .ocuPcint, .ocuDrop, .ocuWptr, .ocuHalt, .ocuMbox, .ocuWctr] ++
  [.ocuBuf, .sbdSlew, .sbdSsc, .sbdPins, .sbdFault]

/-- The registers replicated over: Skybridge port. -/
def CReg.ofPort : List CReg :=
  [.skbCtl, .skbStat, .skbPeerLo, .skbPeerHi, .skbLatns, .skbFeccorr, .skbFecunc, .skbCrcerr, .skbReplay, .skbRetrains, .skbTxdata, .skbRxdata] ++
  [.skbLoad, .skbBerth, .skbTfiCtl, .skbTfiRate, .skbTfiCount]

/-- The registers replicated over: command ring. -/
def CReg.ofRing : List CReg :=
  [.ringCbaseLo, .ringCbaseHi, .ringQbaseLo, .ringQbaseHi, .ringCfg, .ringDb, .ringHead, .ringQtail, .ringQhead, .ringStat]

/-- The registers replicated over: tenant. -/
def CReg.ofPart : List CReg :=
  [.partCfg, .partSpLo, .partSpHi]

/-- The control address of the first register of Spire `sp`'s control block (R209). -/
def spireBase (sp : Nat) : Nat := 0x1000000 * (sp / 16 + 1) + 0x40000 * (sp % 16)

/-- The control address of quadrant `q`'s services block (R209). -/
def quadBase (q : Nat) : Nat := 0x1000000 * (q + 1) + 0x400000

/-- Where the registers of one core lie behind each other in a Spire block: the distance between two cores' registers
(R157, R192, R212, R268, R348). -/
def coreStride (off : Nat) : Nat :=
  if off < 0x31000 then 0x80 else if off < 0x38000 then 0x40 else 0x400

/-- The control address of register `r` of unit `u`, copy `i`. -/
def CReg.addr (r : CReg) (u i : Nat) : Nat :=
  let w := r.row
  let base := match w.kind with
    | .dev => 0
    | .spire => spireBase u
    | .core => spireBase (u / 32) + coreStride w.off * (u % 32)
    | .quad => quadBase u
    | .port => 0x600000 + 0x8000 * u
    | .ring => 0x10000 + 0x1000 * (u / 16) + 0x40 * (u % 16)
    | .part => 0x20000 + 0x20 * u
  base + w.off + w.stride * i

/-- Find the register at an offset in a block. -/
def findReg (rs : List CReg) (rel : Nat) : Option (CReg × Nat) :=
  match rs with
  | [] => none
  | r :: rest =>
    let w := r.row
    if w.stride = 0 then
      if rel = w.off then some (r, 0) else findReg rest rel
    else if w.off ≤ rel ∧ (rel - w.off) % w.stride = 0 ∧ (rel - w.off) / w.stride < w.count then
      some (r, (rel - w.off) / w.stride)
    else findReg rest rel

/-- The register, its unit and its copy at a control address; none where no register of this table lies (R211).
[DEDUCED, log 20, 45] -/
def locate (a : Nat) : Option (CReg × Nat × Nat) :=
  if a < 0x10000 then none
  else if a < 0x20000 then
    if 0x400 ≤ a % 0x1000 then none
    else (findReg CReg.ofRing (a % 0x40)).map fun p => (p.1, ((a - 0x10000) / 0x1000) * 16 + (a % 0x1000) / 0x40, p.2)
  else if a < 0x20200 then
    (findReg CReg.ofPart (a % 0x20)).map fun p => (p.1, (a - 0x20000) / 0x20, p.2)
  else if 0x600000 ≤ a ∧ a < 0x640000 then
    (findReg CReg.ofPort (a % 0x8000)).map fun p => (p.1, (a - 0x600000) / 0x8000, p.2)
  else if a < 0x1000000 then (findReg CReg.ofDev a).map fun p => (p.1, 0, p.2)
  else
    let q := a / 0x1000000 - 1
    let m := a % 0x1000000
    if 4 ≤ q then none
    else if m < 0x400000 then
      let sp := 16 * q + m / 0x40000
      let o := m % 0x40000
      if o < 0x30000 then (findReg CReg.ofSpire o).map fun p => (p.1, sp, p.2)
      else
        let sec := if o < 0x31000 then 0x30000 else if o < 0x33000 then 0x32000 else if o < 0x35000 then 0x34000
          else if o < 0x37000 then 0x36000 else 0x38000
        let st := coreStride o
        let c := (o - sec) / st
        if o < sec ∨ 32 ≤ c then none
        else (findReg CReg.ofCore (sec + (o - sec) % st)).map fun p => (p.1, 32 * sp + c, p.2)
    else (findReg CReg.ofQuad (m - 0x400000)).map fun p => (p.1, q, p.2)

end Sys2Proof.Machine
end

