-- ==== Sys2Proof/Config.lean ====
section
/-! DEFINITION. What an implementation fixes and the free values: constants without a body, so that nothing can be
proved of their values. -/

namespace Sys2Proof.Config

open Sys2Proof

/-- FREE VALUE. The byte that undefined contents number `k` show at address `a`: memory and tiles whose contents the
spec calls undefined (R70, R71). [DESIGN CHOICE, log 8] -/
opaque freeByte (k a : Nat) : Byte

/-- FREE VALUE. The `n`-th undefined word that an instruction or an event leaves. [DESIGN CHOICE, log 8] -/
opaque freeWord (n : Nat) : BitVec 512

/-! ### Vector results that the spec does not state -/

/-- FREE VALUE. Whether `vclt` and `vcle` raise NV for a quiet NaN operand. -/
opaque orderedCompareSignals : Bool

/-- FREE VALUE. A pair lane of an operation (numbered by the caller) whose rounded result on FP32 pairs the spec does
not state. [DESIGN CHOICE, log 31] -/
opaque pairLane (op : Nat) (a b d : Nat) : Nat

/-- FREE VALUE. The flags that the rounding of such a result raises. [DESIGN CHOICE, log 31] -/
opaque pairFlags (op : Nat) (a b d : Nat) : BitVec 5

/-- FREE VALUE. The integer that `mchk` with P = 1 reads from two accumulator words of the INT32 class.
[DESIGN CHOICE, log 34] -/
opaque pairInteger (h l : Nat) : BitVec 32

/-- FREE VALUE. A lane of `w` bits shifted by `w` or more: `kind` 0 left, 1 logical right, 2 arithmetic right. -/
opaque wideShift (kind w x n : Nat) : Nat

/-- FREE VALUE. The 64-bit lane that `vbcast` and `vins` make of a 32-bit g register. -/
opaque wideLane (x : BitVec 32) : Nat

/-- FREE VALUE. The g register that `vext` makes of a lane of `w` bits, where `w` is not 32; of a narrower lane only the
bits above the lane are used. -/
opaque extWord (w lane : Nat) : BitVec 32

/-- FREE VALUE. What `vext` reads for a lane number that the type does not have. -/
opaque extBeyond (va : BitVec 512) (k : Nat) : BitVec 32

/-- FREE VALUE. What `vins` leaves for a lane number that the type does not have. -/
opaque insBeyond (vd : BitVec 512) (x : BitVec 32) (k : Nat) : BitVec 512

/-- FREE VALUE. The lane that `vperm` delivers for an index that the type does not have. -/
opaque permBeyond (va : BitVec 512) (k : Nat) : Nat

/-- FREE VALUE. The direction of `vrot`: whether lane i takes lane i + k. -/
opaque rotDown : Bool

/-- FREE VALUE. The result of `vzip`. -/
opaque zip (ty : BitVec 3) (a b : BitVec 512) : BitVec 512

/-- FREE VALUE. The result of `vunzip`. -/
opaque unzip (ty : BitVec 3) (a b : BitVec 512) : BitVec 512

/-- FREE VALUE. The lane that `vsel` delivers where the mask lane is neither all ones nor zero. -/
opaque selMixed (w m a b : Nat) : Nat

/-- FREE VALUE. A lane beyond the sixteen that a gather has addresses for. [DEDUCED, log 35] -/
opaque gatherBeyond (k : Nat) : Nat

/-- FREE VALUE. The packet error code that SMBus 3.1 gives a transaction of these bytes (R515). -/
opaque smbusPec (bs : List Byte) : Byte

/-! ### Other devices -/

/-- FREE VALUE. The manager of the group that another device belongs to, as the system's bring-up fixed it.
[DEDUCED, log 43] -/
opaque groupManager (dev : BitVec 10) : BitVec 10

/-- FREE VALUE. The device ID of the tick master, the manager of group 0. -/
opaque tickMaster : BitVec 10

/-- FREE VALUE. The device IDs of the group of a manager, itself among them, as its host gave it the map (R384). -/
opaque groupMembers (mgr : BitVec 10) : List (BitVec 10)

/-- FREE VALUE. The devices that Duboette has registered as participating in the ticks of an ELASTIC system. -/
opaque tickDevices : List (BitVec 10)

/-! ### Caches -/

/-- FREE VALUE. The way, modulo 16, that a Belfry L2 gives up for a new line the `n`-th time. [DESIGN CHOICE, log 46] -/
opaque l2Victim (n : Nat) : Nat

/-! ### Duboette -/

/-- FREE VALUE. The descriptor entry that Duboette loads for a Machine cause at thread enable: its handler, its stack
pointer, its section and KEEPIE are Duboette's. [DESIGN CHOICE, log 111] -/
opaque machineEntry (vec : BitVec 8) : BitVec 128

/-- FREE VALUE. The 64 bytes of Duboette's region of Far at which it puts the staging list of a Spire for a placement of a
task. [DESIGN CHOICE, log 9] -/
opaque stagingAddr (task place spire : Nat) : Nat

/-- FREE VALUE. The entry point and the stack address that an 8-byte entry of a Belfry entry list gives.
[DESIGN CHOICE, log 9] -/
opaque belfryEntry (e : BitVec 64) : BitVec 64 × BitVec 64

/-- FREE VALUE. Where Duboette keeps the window table of a tenant: a page of its region of Far (R484).
[DESIGN CHOICE, log 9] -/
opaque winTable (t : Nat) : Nat

/-- FREE VALUE. Which of several things that would do Duboette takes the `n`-th time that it chooses.
[DESIGN CHOICE, log 9; DEDUCED, log 88] -/
opaque choice (n : Nat) : Nat

/-- FREE VALUE. How many ATS translation requests the `n`-th access to host memory takes. [DESIGN CHOICE, log 104] -/
opaque atsRequests (n : Nat) : Nat

/-- FREE VALUE. The size of BAR2 as the host has set it: 2^36 to 2^39 bytes. [DESIGN CHOICE, log 104] -/
opaque bar2Size : BitVec 2

/-! ### The Oculus -/

/-- FREE VALUE. Whether a thread (or, for whole-core records, thread 0 of a core) is selected for trace.
[DESIGN CHOICE, log 42] -/
opaque ocuSelects (core thread : Nat) : Bool

/-! ### The Keep and the part -/

/-- FREE VALUE. The SHA-384 digest of bytes. [DESIGN CHOICE, log 11] -/
opaque sha384 (m : List (BitVec 8)) : BitVec 384

/-- FREE VALUE. Whether an ECDSA P-384 signature (r, then s) of a message verifies under a key (X, then Y).
[DESIGN CHOICE, log 11] -/
opaque ecdsaOk (key msg sig : List (BitVec 8)) : Bool

/-- FREE VALUE. Whether an ECDSA P-384 signature of a message verifies under a key whose SHA-384 is `hash`.
[DESIGN CHOICE, log 11] -/
opaque ecdsaHashOk (hash : BitVec 384) (msg sig : List (BitVec 8)) : Bool

/-- FREE VALUE. The serial number of the part. -/
opaque serial : BitVec 48

/-- FREE VALUE. The bypassed tile of Spire row `k` as fused (R262). [DESIGN CHOICE, log 4] -/
opaque bypassed (k : Nat) : BitVec 4

/-- FREE VALUE. The Spires that a binned part has disabled; none on a whole part (R2). [DESIGN CHOICE, log 4] -/
opaque binned : Option (List (BitVec 6))

/-- FREE VALUE. The SHA-384 of owner key `k` as fused. -/
opaque ownerKey (k : Nat) : BitVec 384

/-- FREE VALUE. The SHA-384 of the debug key as fused. -/
opaque debugKey : BitVec 384

/-- FREE VALUE. The fused voltage, in mV, of a CCLK in MHz. [DESIGN CHOICE, log 75] -/
opaque vf (mhz : Nat) : BitVec 10

/-- FREE VALUE. Word `k` of the fuse map as `KEEP_FUSE` shows it. -/
opaque fuseWord (k : Nat) : BitVec 32

/-- FREE VALUE. What the fuse map measures as, trims excepted, beside what the state holds of it. -/
opaque fuseBytes : List (BitVec 8)

/-- FREE VALUE. The bytes of the Keep ROM. [DESIGN CHOICE, log 11] -/
opaque keepRom : List (BitVec 8)

/-- FREE VALUE. The certificate chain in the flash, with the leaf that a lifecycle state derives.
[DESIGN CHOICE, log 11] -/
opaque certChain (lifecycle : BitVec 2) : List (BitVec 8)

/-- FREE VALUE. Jenarn's manufacturer code. -/
opaque manufacturer : BitVec 11

/-- FREE VALUE. The silicon revision. -/
opaque revision : BitVec 4

/-- FREE VALUE. What a JTAG boundary-scan instruction reads at the balls. -/
opaque boundary : BitVec 32

end Sys2Proof.Config
end

