-- ==== Sys2Proof/Machine/State.lean ====
section
/-! DEFINITION. The state of the device as plain data, and the state before power is first applied. -/

namespace Sys2Proof.Machine

open Sys2Proof

/-- Why a step stops with a fault. -/
inductive Fault where
  /-- Raised by nothing: the spec gives every command an effect, the operands' types bound their values, and what the
  hardware reports as an error is an exception, an error record or an answer in the next state. Safe. -/
  | malformed
  deriving DecidableEq, Repr

/-- Why a command has no meaning. -/
inductive Refusal where
  /-- Raised by an arm of `exec` that has no meaning yet: safe. -/
  | notModelled (mnemonic : String)
  deriving DecidableEq, Repr

/-! ### Memory -/

/-- What a byte that no write has reached reads as: zero, or the undefined contents number `k` (R70).
[DESIGN CHOICE, log 5] -/
inductive MemBase where
  | zero
  | free (k : Nat)
  deriving DecidableEq, Repr

/-- A data space: the bytes that differ from the base, in rising address order, and the aligned 64-bit words that are
poisoned, in rising order (R228). -/
structure Mem where
  base : MemBase
  bytes : List Host.Cell
  poison : List Nat
  deriving DecidableEq, Repr

/-! ### Threads -/

/-- Privilege, encoded as `TSTAT.PRIV` (R44, R91). -/
inductive Priv where
  | user | supervisor | machine
  deriving DecidableEq, Repr

/-- One hardware loop level (R58). -/
structure Loop where
  ls : Word
  le : Word
  lc : Word
  deriving DecidableEq, Repr

/-- A register bank: the main bank or the shadow bank of a thread (R34); `bad` marks the general registers whose parity is
wrong (R228). -/
structure Bank where
  g : Store Word
  n : Bool
  z : Bool
  c : Bool
  v : Bool
  p0 : Bool
  p1 : Bool
  loops : Store Loop
  depth : BitVec 2
  bad : BitVec 32
  deriving DecidableEq, Repr

/-- A load in flight: what it writes when it lands and in which register bank, how many following instructions still
read the old value, and whether its data has reached the core (R53 to R55). -/
structure Load where
  shadow : Bool
  g : List (Reg × Word)
  v : Option (Reg × VReg)
  left : Nat
  arrived : Bool
  deriving DecidableEq, Repr

/-- The operation of a scoped atomic (R77). -/
inductive AOp where
  | swap | cas | add | and | or | xor | min | max | minu | maxu | load | store | fadd
  deriving DecidableEq, Repr

/-- An atomic on its way: the operation, its width, its operands and its target (R77, R78). -/
structure Atomic where
  op : AOp
  wide : Bool
  scope : BitVec 3
  target : DWord
  cmp : DWord
  val : DWord
  deriving DecidableEq, Repr

/-- Why a thread issues nothing although it is neither disabled nor locked up (R37). [DESIGN CHOICE, log 14] -/
inductive Block where
  | wait (d : Reg)
  | swait (d : Reg) (operand target timeout : Word) (tag : Nat) (due : Option Nat) (seen : Option Word) (retry : Option Nat)
  | lock (d : Reg) (operand timeout : Word) (tag : Nat) (due : Option Nat) (retry : Option Nat)
  | atomic (d : Reg) (a : Atomic) (tag : Nat)
  | ctlrx (d : Reg) (addr : Word) (tag : Nat)
  | chopen (d : Reg) (tag : Nat)
  | chclose (h : BitVec 3)
  | send (h : BitVec 3) (words : List DWord) (due : Option Nat)
  | inject (h : BitVec 3) (words : List DWord) (done : Nat)
  | recv (d : Reg) (ep : BitVec 2)
  | recvv (d : Reg) (ep : BitVec 2)
  | fenceL
  | fenceS
  | fenceD
  | tickEnd
  | trel (mask : Word)
  | sissue (d : Reg) (desc : BitVec 512) (ticket : Nat)
  | cupDone (addr v : Word)
  | eret
  | guarded (seq : Nat)
  | fetch
  | preload (way first total done : Nat)
  deriving DecidableEq, Repr

/-- The states of R37. `armed` is an enabled thread that first issues at the next tick edge (R522); a stalled or
sleeping thread is `blocked`. -/
inductive Status where
  | disabled
  | armed
  | running
  | blocked (b : Block)
  | tickSleep
  | lockedUp
  deriving DecidableEq, Repr

/-- The thread's own control registers 0x000 to 0x0FF that no other part of the record holds (R42 to R44). -/
structure TCtl where
  rmode : BitVec 3
  mpass : BitVec 2
  fpstat : BitVec 5
  amax : Word
  cmp : DWord
  cmpLoHeld : Word
  cycHi : Option Word
  ctHi : Option Word
  wakeMask : Word
  sendTimeout : Word
  ssCode : BitVec 4
  ssHandle : BitVec 3
  tentry : Word
  bound : Bool
  boundNext : Bool
  cmpen : Bool
  codeBase : BitVec 27
  progress : Word
  issued : Word
  stalled : Word
  deriving DecidableEq, Repr

/-- One word in an endpoint's queue (R278, R282). -/
structure QWord where
  word : DWord
  last : Bool
  slot : Nat
  poison : Bool
  deriving DecidableEq, Repr

/-- An opener slot of an endpoint (R278, R280). -/
inductive Opener where
  | free
  | opened (t : Tid) (handle : BitVec 3) (share : Nat)
  | closing (acked : Bool)
  deriving DecidableEq, Repr

/-- A receive endpoint: its `EPCFG` register, its four opener slots and its readable queue (R44, R278). -/
structure Endpoint where
  cfg : Word
  openers : Store Opener
  queue : List QWord
  deriving DecidableEq, Repr

/-- A send handle (R83 to R86). `part` holds the words of an interrupted message that have entered the mesh, `hold` the
credit that it holds (R84, R111). -/
structure Handle where
  opened : Bool
  ep : BitVec 15
  slot : Nat
  epoch : Byte
  share : Nat
  credit : Nat
  unacked : Nat
  status : BitVec 4
  part : List DWord
  hold : Nat
  deriving DecidableEq, Repr

/-- One entry of the vector descriptor table as the Lantern's copy holds it (R96). -/
structure Desc where
  handler : DWord
  sp : Word
  ctl : Word
  deriving DecidableEq, Repr

/-- The bounded atomic section of the running handler (R108): `pending` until its first instruction issues. -/
inductive Section where
  | inactive
  | pending (n : Nat)
  | running (ends : Nat)
  | expired
  deriving DecidableEq, Repr

/-- A thread's Lantern (R115 to R118). `vec` is the vector delivered last; `fresh` has an entry for each handler that has
not returned, the innermost first: its level source until its first instruction has judged it (R117); `machPend` holds
Machine causes that the thread has not been able to take yet. -/
structure Lantern where
  ie : Bool
  abftf : Bool
  poisonf : Bool
  legacy : Bool
  edge : Word
  watchHigh : BitVec 8
  en : Word
  prio : Store (BitVec 6)
  stack : List (BitVec 5 × BitVec 6)
  vdt : BitVec 8
  vbase : BitVec 19
  copies : Store Desc
  atom : Section
  atomStack : List Bool
  spur : BitVec 16
  spurMarks : List (BitVec 5)
  fresh : List (Option (BitVec 5))
  vec : BitVec 8
  cause1 : BitVec 8
  cause2 : BitVec 8
  lockPc : Word
  ovr : Word
  watch : Store Word
  wtgt : Store Word
  watchRetry : Store Nat
  slotUnder : Bool
  machPend : List (BitVec 8 × Word)
  deriving DecidableEq, Repr

/-- A posted request's refusal waiting to be taken (R313). -/
structure RefusalRec where
  cause : BitVec 8
  detail : Word
  deriving DecidableEq, Repr

/-- A hardware thread (R34); `badV` marks the vector registers whose parity is wrong (R228). -/
structure Thread where
  status : Status
  enabled : Bool
  pc : Word
  main : Bank
  shadow : Bank
  inShadow : Bool
  priv : Priv
  vr : Store VReg
  badV : BitVec 32
  loads : List Load
  ctl : TCtl
  eps : Store Endpoint
  handles : Store Handle
  ltn : Lantern
  posted : Nat
  dStatus : List (BitVec 4 × BitVec 3)
  sFault : Bool
  refusals : List RefusalRec
  rankMask : BitVec 16
  tenant : BitVec 4
  epoch : Byte
  doneTick : Bool
  act : Bool
  overran : Bool
  deriving DecidableEq, Repr

/-! ### The compute core -/

/-- The vector operations of majors 0x28 to 0x2B, 0x2D and 0x2E (R65). -/
inductive VOp where
  | add | sub | mul | div | sqrt | min | max | abs | neg | and | or | xor | shl | shr | sar
  | fma | fms | fnma | fmaP
  | ceq | cne | clt | cle | cun | sel
  | bcast | ext | ins | perm | rot | zip | unzip | mov | zero
  | gather | scatter | cvt
  | radd | rmax | rmin | dot
  deriving DecidableEq, Repr

/-- An instruction in a unit queue, with the scalar operands it read at issue (R38). -/
inductive UnitIns where
  | vec (op : VOp) (ty : BitVec 3) (d a b : Reg) (x : Word)
  | topk (ty : BitVec 3) (sbase obase ctl : Word)
  | mload (target : BitVec 5) (base stride : Word) (tr : Bool)
  | mstore (source : BitVec 5) (base stride conv : Word) (cv : Bool)
  | mzero (target : BitVec 5)
  | mma (acc : BitVec 3) (w a fmt : BitVec 4) (pair accz mx : Bool) (aux : BitVec 4)
  | mmas (acc : BitVec 3) (w a fmt : BitVec 4) (pair accz ratio : Bool) (md : BitVec 4)
  | mchk (d : Reg) (acc : BitVec 3) (pair : Bool) (tol : Word)
  | mvm (acc : BitVec 3) (x : BitVec 4) (base : DWord) (rows : Word) (fmt : BitVec 4) (accz : Bool)
  deriving DecidableEq, Repr

/-- An entry of a unit queue (R38, R110): `start` counts the units a resumed instruction had completed, `service` is the
numeric mode it issued under, `shadow` the register bank, `empties` the passes that its operands' empty flags skipped at dispatch (R180). -/
structure UnitOp where
  seq : Nat
  thread : BitVec 2
  pc : Word
  ins : UnitIns
  rmode : BitVec 3
  mpass : BitVec 2
  start : Nat
  guard : Bool
  service : Bool
  shadow : Bool
  dispatched : Bool
  empties : List Bool
  deriving DecidableEq, Repr

/-- An entry of a core's instruction cache (R87): the physical line in a set and way. -/
abbrev CacheLine := Nat

/-- A run of a row's destination: its offset in the row, its address, and the bytes that go there with their poison. -/
structure WRun where
  off : Nat
  addr : Nat
  bytes : List (Byte × Bool)
  deriving DecidableEq, Repr

/-- What a row has computed and not yet had acknowledged: the runs still to be written here, and the tags and lengths of
its packets to another core or device that are not acknowledged (R287, R290). -/
structure PendingWrite where
  row : Nat
  runs : List WRun
  tags : List (Nat × Nat)
  deriving DecidableEq, Repr

/-- A part of a row's read: its offset and length, the tag under which another core or device was asked, and what has been
read (R216, R289). -/
structure ReadPart where
  lo : Nat
  n : Nat
  tag : Nat
  data : Option (List (Byte × Bool))
  deriving DecidableEq, Repr

/-- A row that is being read: its parts in rising order. -/
structure RowRead where
  row : Nat
  parts : List ReadPart
  deriving DecidableEq, Repr

/-- A translation that a window cache holds, or that a stream has used (R206). [DESIGN CHOICE, log 22] -/
structure WinEntry where
  tenant : BitVec 4
  granule : BitVec 27
  entry : DWord
  deriving DecidableEq, Repr

/-- A transfer stream in a core's slot or a Turret (R283, R294). `seq` is its place in its thread's order of issue,
`issued` and `due` the Clocktower times of its issue and timeout, `done` the destination bytes written, `held` the
translations it has used, `list` the index list as far as it has been read, `got` the rows whose read is not complete,
`acked` the rows done, `pos` the source bytes that an outbound SCHED stream has read, `sent` the S-mesh bytes that are
done, `out` the bytes an outbound one has ready
with their poison, `inb` the bytes of an inbound one that have arrived and are not yet written, a void flit's being
absent, `wback` whether it is a write-back entry of a staging list, `noted` whether its generated NaN is logged (R155). -/
structure Stream where
  state : BitVec 2
  desc : BitVec 512
  owner : Tid
  tenant : BitVec 4
  seq : Nat
  issued : Nat
  due : Option Nat
  fault : BitVec 4
  poisoned : Bool
  done : Nat
  amax : Word
  held : List WinEntry
  list : List Word
  listPoison : List Nat
  got : List RowRead
  pending : List PendingWrite
  acked : List Nat
  entry : BitVec 16
  wback : Bool
  pos : Nat
  sent : Nat
  out : List (Byte × Bool)
  inb : List (Option (Byte × Bool))
  noted : Bool
  deriving DecidableEq, Repr

/-- The arithmetic class of an accumulator's checksums (R185). -/
inductive ChkClass where
  | fp32 | int32 | fp64 | pair
  deriving DecidableEq, Repr

/-- The checksum state of an accumulator: row sums, column sums with the corner under key 32, VALID and the class,
absent while it is open (R185). -/
structure Checksum where
  valid : Bool
  cls : Option ChkClass
  rows : Store DWord
  cols : Store DWord
  deriving DecidableEq, Repr

/-- A tile or an accumulator: its owner, its empty flag, its 2 KiB or 4 KiB and its checksums (R160, R168). -/
structure TileSt where
  owner : Option (BitVec 2)
  empty : Bool
  data : Mem
  chk : Checksum
  deriving DecidableEq, Repr

/-- The tile and accumulator file: the gated banks, and for each bank the cycle from which its 64 idle cycles count
(R160 to R164). -/
structure TileFile where
  tiles : Store TileSt
  accs : Store TileSt
  gated : Word
  idleFrom : Store Nat
  deriving DecidableEq, Repr

/-- A flit: void or its 64 bytes, with the 64-bit words that travel poisoned (R234, R235). -/
structure Flit where
  void : Bool
  data : BitVec 512
  poison : BitVec 8
  deriving DecidableEq, Repr

/-- A schedule bank: 4,096 entries and eight port channel descriptors of 16 bytes (R244, R253). -/
structure SBank where
  entries : Store DWord
  chans : Store (BitVec 128)
  deriving DecidableEq, Repr

/-- A flit at the core port that has not been written: the run, index and word of the entry that delivers it, its
channel and index n there, the router cycle in which it is written, and whether it is the result of a CRED reduction
(R246 to R250). -/
structure Delivery where
  run : Nat
  index : Nat
  entry : DWord
  chan : Nat
  n : Nat
  due : Nat
  cred : Bool
  flit : Flit
  deriving DecidableEq, Repr

/-- A result in the reduce unit: the router cycle in which it leaves, the entry that accepted it, the flit (R242). -/
structure Reduced where
  due : Nat
  run : Nat
  index : Nat
  entry : DWord
  flit : Flit
  deriving DecidableEq, Repr

/-- An S-mesh router (R241 to R261). It is `live` while it runs a schedule; `cycle` counts its cycles since the edge,
`run` its entries; `freed` are the channels whose own thread has set `SMR_PREADY` in this tick (R260); `core` is the CORE flit read for its next cycle; `sigs` are the signals of ended entries whose
deliveries are not all written; `latch` holds what a read of `SMR_TDLO` latched. -/
structure Router where
  active : Bool
  bank0 : SBank
  bank1 : SBank
  ready : Bool
  tenant : BitVec 4
  live : Bool
  wref : Bool
  ovr : Bool
  perr : Bool
  index : Nat
  left : Nat
  cycle : Nat
  run : Nat
  ptrs : Store Nat
  pready : BitVec 8
  freed : BitVec 8
  raised : BitVec 8
  underSet : Bool
  core : Option Flit
  reduced : List Reduced
  deliveries : List Delivery
  sigs : List (Nat × BitVec 16)
  swap : Bool
  latch : List (Agent × DWord)
  deriving DecidableEq, Repr

/-- The routing registers in force in this tick (R344). -/
structure Route where
  ctl : Word
  cfg : Store Word
  deriving DecidableEq, Repr

/-- The DOZE state of a Spire (R345): whether it dozes, and since which cycle. -/
structure Doze where
  dozing : Bool
  since : Nat
  deriving DecidableEq, Repr

/-- A core's instruction cache: the lines held, keyed by 4 × set + way, and the way last filled in each set (R87). -/
structure ICache where
  lines : Store CacheLine
  lock : BitVec 4
  next : Store Nat
  deriving DecidableEq, Repr

/-- A compute core: what its four threads share (R34). `miss` is the instruction-cache miss that is outstanding: the
thread that missed and the physical line (R87). -/
structure Core where
  mem : Mem
  icache : ICache
  miss : Option (Tid × Nat)
  icmiss : Word
  freeze : Word
  lastIssue : BitVec 2
  cmap : BitVec 1024
  lmap : BitVec 1024
  epoch : Byte
  tenant : BitVec 4
  queueV : List UnitOp
  queueM : List UnitOp
  queueMV : List UnitOp
  nextSeq : Nat
  slots : Store Stream
  wcache : List WinEntry
  tile : TileFile
  router : Router
  route : Route
  service : Bool
  retired : Option (Nat × Nat)
  deriving DecidableEq, Repr

/-! ### The Cupola -/

/-- Who watches a counter (R311): another device's watch is known by the tag of its registration. -/
inductive Watcher where
  | lantern (t : Tid) (k : BitVec 3)
  | belfry (q : Quad) (n : BitVec 9)
  | remote (dev : BitVec 10) (tag : BitVec 16)
  deriving DecidableEq, Repr

/-- Who requests a lock or an `swait`: a compute thread, a Belfry core, or another device through its packet tag (R304,
R309, R397). -/
inductive Requester where
  | thread (t : Tid)
  | belfry (b : BCore)
  | remote (dev : BitVec 10) (tag : BitVec 16)
  deriving DecidableEq, Repr

/-- What a waiter entry waits for (R311, R318). -/
inductive WaitFor where
  | swait (r : Requester) (tag : Nat) (target : Word)
  | watch (w : Watcher) (target : Word) (above : Bool)
  | lock (r : Requester) (tag : Nat)
  deriving DecidableEq, Repr

/-- A waiter entry of a Cupola, on a counter index or a lock index. -/
structure Waiter where
  obj : Nat
  want : WaitFor
  deriving DecidableEq, Repr

/-- The state of a lock (R318, R320). -/
structure LockSt where
  holder : Option Requester
  broken : Bool
  deriving DecidableEq, Repr

/-- The states of a dispatch slot (R321). -/
inductive SlotSt where
  | empty | waiting | running | closing
  deriving DecidableEq, Repr

/-- A Spire: its Drum, Cupola, Turret and program cache. -/
structure SpireSt where
  drum : Mem
  ppPend : Option Word
  phase : Bool
  waiters : List Waiter
  locks : Store LockSt
  slots : Store SlotSt
  pcLines : Store CacheLine
  pcUsed : List Nat
  turret : Store Stream
  wcache : List WinEntry
  staged : Bool
  listTodo : List (Nat × Bool)
  listLeft : Nat
  listBase : Nat
  listShift : Int
  cycBase : Nat
  cycHeld : Option Nat
  doze : Doze
  deriving DecidableEq, Repr

/-! ### The dynamic mesh -/

/-- Who makes a signal (R308, R314). -/
inductive Signaller where
  | thread (t : Tid)
  | belfry (b : BCore)
  | agent
  | stream (e : Engine) (t : Option Tid)
  | slot (k : BitVec 6)
  | remote (dev : BitVec 10) (tag : BitVec 16)
  deriving DecidableEq, Repr

/-- A refusal: the cause and its detail (R313). -/
abbrev Refuse := Option (BitVec 8 × Word)

/-- What a D-mesh packet carries (R271). -/
inductive Body where
  | ctlWrite (who : Tid) (priv : Priv) (addr v : Word)
  | ctlRead (t : Tid) (tag : Nat) (addr : Word)
  | ctlData (t : Tid) (tag : Nat) (v : Word) (refuse : Refuse)
  | chopen (t : Tid) (tag : Nat) (ep : BitVec 15)
  | chopenReply (t : Tid) (tag : Nat) (code : BitVec 4) (ep : BitVec 15) (slot share : Nat) (epoch : Byte)
  | message (t : Tid) (h : BitVec 3) (ep : BitVec 15) (slot : Nat) (epoch : Byte) (words : List DWord)
      (bad : List Nat)
  | msgAck (t : Tid) (h : BitVec 3) (code : BitVec 4)
  | credit (t : Tid) (h : BitVec 3) (n : Nat)
  | closeNotice (t : Tid) (h : BitVec 3) (ep : BitVec 15) (slot : Nat)
  | closeAck (ep : BitVec 15) (slot : Nat)
  | signal (who : Signaller) (ctr : BitVec 16) (inc : Word) (poison : Bool)
  | swait (r : Requester) (tag : Nat) (ctr : BitVec 16) (target : Word)
  | swaitAnswer (who : Hart) (tag : Nat) (value : Word) (status : BitVec 2) (refuse : Refuse)
  | withdraw (r : Requester) (tag : Nat) (lock : Bool) (obj : BitVec 16)
  | lock (r : Requester) (tag : Nat) (lock : BitVec 14) (rank : Option (BitVec 4))
  | lockGrant (who : Hart) (tag : Nat) (lock : BitVec 14) (status : BitVec 2) (refuse : Refuse)
  | unlock (who : Hart) (lock : BitVec 14)
  | ack (who : Hart) (refuse : Refuse)
  | watchReg (w : Watcher) (tenant : BitVec 4) (ctr : BitVec 16) (target : Option Word)
  | watchEvent (w : Watcher) (above : Bool)
  | atomic (who : Hart) (tag : Nat) (a : Atomic) (phys : DWord)
  | atomicAnswer (who : Hart) (tag : Nat) (old : DWord) (fault : Option (BitVec 8))
  | chclose (t : Tid) (h : BitVec 3) (ep : BitVec 15) (slot : Nat)
  | strRead (e : Engine) (row tag addr n : Nat)
  | strData (e : Engine) (row tag : Nat) (bytes : List (Byte × Bool)) (fault : BitVec 4)
  | strWrite (e : Engine) (row tag addr : Nat) (epoch : Byte) (bytes : List (Byte × Bool))
  | strAck (e : Engine) (row tag : Nat) (fault : BitVec 4)
  deriving DecidableEq, Repr

/-- A D-mesh packet in flight (R271 to R273): its route, class and VC, its placement epoch, where it is, the input at
which it waits there (0 the router's own, 1 to 4 from the north, east, south and west), the cycle from which it may go
on, and what it carries; `bad` says that its data word is poisoned (R275). -/
structure Packet where
  id : Nat
  src : CoreId
  dst : CoreId
  pos : CoreId
  inp : Nat
  since : Nat
  resp : Bool
  vc1 : Bool
  tenant : BitVec 4
  epoch : Byte
  bad : Bool
  body : Body
  deriving DecidableEq, Repr

/-- An output of a D-mesh router: the cycle until which its last packet holds it, how many times it started a response
although a request waited, and the input VC last served in each class (R273). -/
structure DOut where
  until_ : Nat
  skipped : Nat
  lastReq : Nat
  lastResp : Nat
  deriving DecidableEq, Repr

/-- Credits on their way back to the router before: the router and the input VC whose buffer the flits left, how many,
and the cycle in which they arrive (R273). -/
structure DCredit where
  router : CoreId
  inVc : Nat
  n : Nat
  due : Nat
  deriving DecidableEq, Repr

/-! ### Errors -/

/-- A report on its way to the hub (R460, R466). -/
structure Report where
  kind : BitVec 4
  index : BitVec 12
  cls : Byte
  sev : BitVec 2
  poison : Bool
  count : Nat
  first : Nat
  last : Nat
  detail : DWord
  tenant : BitVec 4
  device : BitVec 10
  level : BitVec 2
  deriving DecidableEq, Repr

/-- A record in the error hub's queue (R464, R466). -/
structure HubRec where
  rep : Report
  seq : Nat
  overflow : Bool
  rpt : Bool
  fwd : Bool
  deriving DecidableEq, Repr

/-- An open entry of a suspect filter: the first report, and the count, the earliest and the latest time that wait (R469, R472, R473).
[DEDUCED, log 61] -/
structure FiltEnt where
  rep : Report
  pend : Nat
  since : Nat
  last : Nat
  deriving DecidableEq, Repr

/-! ### Quadrants, power and the Clocktower -/

/-- The states of a switched domain (R441). -/
inductive DomSt where
  | off | ramp | on | closing | failed | retained
  deriving DecidableEq, Repr

/-- A switched domain (R440 to R449): its state, `FAILS`, `CAUSE`, `PEND`, the ramp stage (4 after the last), whether it is to
close at the next edge or once it is ON, and when its stage or its drain began. -/
structure Dom where
  st : DomSt
  fails : BitVec 2
  cause : BitVec 3
  pend : Bool
  stage : Nat
  offAtEdge : Bool
  since : Nat
  deriving DecidableEq, Repr

/-- A drop of translations in progress in a quadrant (R208). -/
structure WinvDrop where
  tenant : BitVec 4
  first : BitVec 27
  count : BitVec 21
  deriving DecidableEq, Repr

/-- A line of a Belfry cluster's L2: its 64 bytes, the mask of the dirty ones (R225) and that of the poisoned 64-bit words
(R228). -/
structure L2Line where
  data : BitVec 512
  dirty : BitVec 64
  bad : BitVec 8
  deriving DecidableEq, Repr

/-- A quadrant: collector, interrupt controller, window control and fabric; `l2` holds the lines of the Belfry
cluster's L2 (R225), `load` the index and Far address of the schedule loader's block (R254), `edged` whether
its routers have started a tick. -/
structure QuadSt where
  reports : List Report
  bicEdge : Store Bool
  bicWatch : Store Bool
  watchRetry : Store Nat
  bicStacks : Store (List (BitVec 10 × BitVec 6))
  bicSpurMarks : Store (List (BitVec 10))
  watchTenant : Store (BitVec 4)
  winv : Option WinvDrop
  winPend : List (Nat × Word)
  l2 : Store L2Line
  wcacheB : List WinEntry
  wcacheF : List WinEntry
  load : Option (Nat × Nat)
  edged : Bool
  filter : List FiltEnt
  deriving DecidableEq, Repr

/-- The Clocktower (R350 to R368): the tick and its edge time, whether edges are fired, the cycle of an edge whose
notice was given, whether the next edge begins `CT_NEXT`; the mode, source and period in force; whether the next edge
falls at `TICK_MAX`; the target time and number of an edge from outside; the Spires of parity errors; whether the swap
was decided; the watchdog's start; reports and messages of an ELASTIC system; how far the time is ahead of the
master's, and whether the last slew left it more than 20 ns from it; the last watchdog sample. -/
structure Clocktower where
  tick : BitVec 48
  edgeNs : Nat
  running : Bool
  notice : Option Nat
  first : Bool
  mode : Bool
  src : BitVec 2
  period : Nat
  atMax : Bool
  target : Option (Nat × BitVec 48)
  lastTarget : Nat
  locked : Bool
  lost : Bool
  parity : List Nat
  swap : Bool
  wdtStart : Nat
  readySent : Bool
  readyFrom : List (BitVec 10)
  sent : Bool
  lastIn : Option Nat
  nsFrac : Nat
  ahead : Nat
  apart : Bool
  synced : Bool
  sampled : Nat
  logN : Nat
  latch : List (Agent × Word)
  deriving DecidableEq, Repr

/-- A Belfry core's exception state (R119 to R122): `block` is what it waits for, `fresh` has an entry for each handler that
has not returned, as a Lantern's, `ranks` the ranks of the locks it holds (R318). [DESIGN CHOICE, log 103] -/
structure Belfry where
  regs : Store DWord
  status : DWord
  locked : Bool
  held : Bool
  halted : Bool
  pc : DWord
  progress : Word
  g : Store DWord
  tenant : BitVec 4
  block : Option Block
  fresh : List (Option (BitVec 10))
  ranks : BitVec 16
  deriving DecidableEq, Repr

/-- What a packet sent to another device waits for under its tag (R375). -/
inductive SkbFor where
  | streamRead (e : Engine) (row : Nat)
  | streamWrite (e : Engine) (row : Nat)
  | atomic (who : Hart) (tag : Nat)
  | counter (who : Hart) (tag : Nat)
  | posted (who : Hart) (w : Word)
  deriving DecidableEq, Repr

/-- A tag in use and the device that answers it. -/
structure SkbWait where
  tag : BitVec 16
  dev : BitVec 10
  what : SkbFor
  deriving DecidableEq, Repr

/-! ### Power and boot -/

/-- What is powered (R450 to R452, R479): no rail at all; the always-on rails only; a boot that waits for the regulators or
runs through the steps of R479; ON; the entry to RETAIN; RETAIN; a wake that waits for the regulators or runs. -/
inductive Phase where
  | dark | off | bootWait | boot | on | entering | retain | wakeWait | waking
  deriving DecidableEq, Repr

/-- The power loop's verdict on a window (R456). -/
inductive Verdict where
  | none | lower | raise | hold
  deriving DecidableEq, Repr

/-- The PDM and the package's pins (R443 to R459, R508, R514, R520): the phase, pins, sampled straps (MGT_ADDR in [2:0],
MGR_SEL in [3], LEGACY_ZN2 in [4]), the start of the power window, its verdict and the windows ended so far, a voltage on its way to the
regulator, what a wake remembers, whether the host waits for an exit from L1, when each Spire was last used, whether the PDM has
failed, and the set point of VDD_SRAM in mV (R509, R510).
[DEDUCED, log 66, 69, 72, 73, 74] -/
structure Power where
  phase : Phase
  vrGood : Bool
  pwrReq : Bool
  thermtrip : Bool
  straps : BitVec 5
  lastOff : BitVec 4
  window : Nat
  verdict : Verdict
  windows : Nat
  avs : Option Nat
  perstWake : Bool
  match_ : Bool
  l1Exit : Bool
  savedCtl : Word
  used : Store Nat
  failed : Bool
  sramMv : Nat
  deriving DecidableEq, Repr

/-- The fuse map (R487): what the device reads of it, and what an uncorrectable word of it has taken: the Spires whose
repair words, and the domains whose ramp limits or trims, cannot be read, the debug key, the password slots. -/
structure Fuses where
  repair : Store (BitVec 4)
  disable : BitVec 64
  part : Byte
  serial : BitVec 48
  keys : List (BitVec 384)
  revoked : BitVec 4
  debugKey : BitVec 384
  svn : Nat
  lifecycle : BitVec 2
  slots : List (BitVec 128 × BitVec 384)
  stop : Bool
  badRepair : BitVec 64
  badRamp : BitVec 96
  badTrim : BitVec 96
  badDebug : Bool
  badSlots : Byte
  deriving DecidableEq, Repr

/-- An answer of the Keep to an SPDM request (R489). -/
inductive SpdmMsg where
  | version
  | capabilities
  | algorithms
  | digests (d : BitVec 384)
  | certificate (part : List Byte) (left : Nat)
  | challengeAuth (nonce : BitVec 256)
  | measurements (ms : List (Nat × BitVec 384))
  | error
  deriving DecidableEq, Repr

/-- The Keep (R478 to R500): the flash, the lifecycle in force, the booted slot, whether Duboette runs, whether boot
stopped, the nonce that waits for a token, whether the open level permits RMA, mailbox and flash programming, scan mode,
the JTAG instruction selected and the data that it has shifted out, the digest of the fuse map as sensed.
[DEDUCED, log 67, 72, 76, 94, 95, 96, 97, 98] -/
structure Keep where
  flash : List SlotImage
  lifecycle : BitVec 2
  slot : Bool
  booted : Bool
  duboette : Bool
  stopped : Bool
  nonce : Option (BitVec 256)
  rma : Bool
  upload : List Byte
  progSlot : Option Bool
  scan : Bool
  jtag : JtagOp
  jtagOut : Option Word
  fuseDigest : BitVec 384
  spdm : List SpdmMsg
  deriving DecidableEq, Repr

/-! ### The host -/

/-- What the device sends to its host: writes to the memory of a function, MSI-X messages, completions of reads and
requests (R407 to R413). [DESIGN CHOICE, log 9] -/
inductive HostOut where
  | write (fn : BitVec 4) (addr : DWord) (data : List Byte)
  | msix (fn : BitVec 4) (vec : BitVec 7)
  | data (bytes : List Byte)
  | invalidated (tag : Nat)
  | unsupported
  | retry
  | ok
  | linkUp
  deriving DecidableEq, Repr

/-- Where a command came from: a ring, another device's COMMAND packet, or a group command of this device (R419). -/
inductive Origin where
  | ring (r : Ring)
  | remote (dev : BitVec 10) (tag : BitVec 16)
  | fan (parent : Nat)
  deriving DecidableEq, Repr

/-- A device's answer to a forwarded command (R419). -/
structure Reply where
  dev : BitVec 10
  status : Nat
  r0 : DWord
  r1 : DWord
  r2 : DWord
  deriving DecidableEq, Repr

/-- How far a command is. -/
inductive CmdSt where
  | waiting | started
  deriving DecidableEq, Repr

/-- A command that has been fetched and not completed (R411 to R420): the header's bytes and its parameters, the devices
that have still to answer a forwarded one, when it started, an image that was read, the dispatch slot (Spire, index) of a
`DISPATCH` and the status with which that slot retired, how many of its steps are done. -/
structure Cmd where
  origin : Origin
  header : DWord
  params : List Byte
  st : CmdSt
  waitFor : List (BitVec 10)
  replies : List Reply
  since : Nat
  image : List Byte
  slot : Option (Nat × Nat)
  ended : Option Nat
  step : Nat
  deriving DecidableEq, Repr

/-- A ring beside its registers (R410 to R413): the last doorbell, the pass, whether a DMA error or a doorbell out of
range stopped it, whether it may send its vector, the entries with NOTIFY that the host has not consumed. -/
structure RingSt where
  tail : Nat
  phase : Bool
  stopped : Bool
  armed : Bool
  notes : List Nat
  deriving DecidableEq, Repr

/-- The stages of a run: it waits for the clock (R457), is armed for tick n0, its threads are enabled, it runs, it ends
(R424). -/
inductive RunSt where
  | waiting | armed | prepared | running | ending
  deriving DecidableEq, Repr

/-- A run of a task (R424, R425). -/
structure Run where
  cmd : Nat
  n0 : Nat
  count : Nat
  last : Option Nat
  st : RunSt
  stopped : Bool
  damaged : List Nat
  overruns : Nat
  deriving DecidableEq, Repr

/-- A migration of a task (R429, R430): its command, the target, the tick whose edge it takes effect at, and when it has. -/
structure Mig where
  cmd : Nat
  place : Nat
  edge : Nat
  switched : Option Nat
  deriving DecidableEq, Repr

/-- A loaded image (R422 to R430): its bytes, its active placement and the epoch, its Belfry cores, its run and its
migration, the placement whose cores are still reserved, the last tick that it ran, its `TICK_OVERRUN` deliveries, and
the values of its counters at the start (R316). -/
structure Task where
  tenant : BitVec 4
  image : List Byte
  place : Nat
  epoch : Byte
  belfry : List Nat
  begun : Bool
  run : Option Run
  mig : Option Mig
  old : Option Nat
  lastTick : Nat
  overruns : Nat
  start : Store Word
  deriving DecidableEq, Repr

/-! ### Skybridge -/

/-- A packet that waits at a port's output (R379): its class and VC, the input it came from (8 for the local injection),
since when, the packet. -/
structure SkbQueued where
  cls : BitVec 3
  inp : Nat
  since : Nat
  pkt : SkbPacket
  deriving DecidableEq, Repr

/-- A flit in a replay buffer (R374): its SEQ, the packet that it carries a part of and whether it starts it, its
bytes. -/
structure SentFlit where
  seq : BitVec 12
  sop : Bool
  queued : SkbQueued
  bytes : List Byte
  deriving DecidableEq, Repr

/-- A packet that a port is sending (R375): the payloads of its flits that are still to come. -/
structure SkbActive where
  queued : SkbQueued
  rest : List (List Byte)
  deriving DecidableEq, Repr

/-- A Skybridge port beside its registers (R371 to R383): the SEQ it expects, whether it has asked for a resend, the bytes
of packets on their way by class, the next SEQ to send, the flits no ACK has covered, the SEQ last asked for and how often,
when an ACK last advanced, packets that wait, the credits used and owed, the input last served by class and VC, the VC
last served by class, the starts since REQ had one, the flits since the last injected event, whether it has been UP, the
packets on their way out, at most one for a class and VC, a millisecond and the FEC symbols corrected in it. -/
structure PortSt where
  expect : BitVec 12
  nak : Bool
  partial_ : Store (List Byte)
  seq : BitVec 12
  replay : List SentFlit
  nakSeq : BitVec 12
  resent : Nat
  ackNs : Nat
  waiting : List SkbQueued
  used : Store Nat
  owed : Store Nat
  lastInp : Store Nat
  lastVc : Store Nat
  skips : Nat
  tfi : Nat
  wasUp : Bool
  active : List SkbActive
  ber : Nat × Nat
  deriving DecidableEq, Repr

/-- Bytes of a collective with their poison. -/
abbrev SegData := Option (List (Byte × Bool))

/-- What a collective holds of one segment: the incoming values of the X line, the Y column and the Z column, and whether
its own part has been sent on and the result written (R391). -/
structure SegSt where
  xin : SegData
  yin : SegData
  zin : SegData
  sent : Bool
  done : Bool
  deriving DecidableEq, Repr

/-- A collective of this device (R390 to R393). -/
structure Coll where
  busy : Bool
  desc : BitVec 512
  due : Option Nat
  segs : Store SegSt
  deriving DecidableEq, Repr

/-- The whole device. -/
structure State where
  pending : List Instr
  now : Nat
  ns : Nat
  free : Nat
  nextId : Nat
  threads : Store Thread
  cores : Store Core
  spires : Store SpireSt
  quads : Store QuadSt
  regs : Store Word
  flight : List Packet
  cleared : Store Nat
  douts : Store DOut
  dcredits : List DCredit
  links : Store (List (Nat × Flit))
  far : Mem
  ct : Clocktower
  doms : Store Dom
  belfry : Store Belfry
  faultSrc : BitVec 6
  hubQueue : List HubRec
  toSkb : List SkbPacket
  skbWaits : List SkbWait
  skbTag : BitVec 16
  ports : Store PortSt
  skbIn : List (SkbPacket × Nat)
  colls : Store Coll
  locked : Bool
  heard : Store Nat
  lostWorkers : List (BitVec 10)
  hubSeq : Nat
  grpFilter : List FiltEnt
  sysFilter : List FiltEnt
  hubLatch : List (Agent × List Word)
  lostTotal : Nat
  devFault : Bool
  power : Power
  fuses : Fuses
  keep : Keep
  toHost : List HostOut
  rings : Store RingSt
  cmds : Store Cmd
  tasks : Store Task
  smbus : List (List Byte)
  smbHeld : Bool
  tickOut : List Nat
  ocu : Mem
  ocuLast : Option Nat
  ocuFull : Bool
  deriving DecidableEq, Repr

/-! ### Reset values -/

/-- A closed loop level. -/
def Loop.reset : Loop := { ls := 0, le := 0, lc := 0 }

/-- A register bank at reset: every register zero (DESIGN CHOICE, log 4), flags and predicates 0, no loop level.
[DESIGN CHOICE, log 4] -/
def Bank.reset : Bank :=
  { g := [], n := false, z := false, c := false, v := false, p0 := false, p1 := false, loops := [], depth := 0, bad := 0 }

/-- The thread control registers at their reset values (R42, R44). -/
def TCtl.reset : TCtl :=
  { rmode := 0, mpass := 1, fpstat := 0, amax := 0, cmp := BitVec.allOnes 64, cmpLoHeld := BitVec.allOnes 32,
    cycHi := none, ctHi := none, wakeMask := 0, sendTimeout := 0, ssCode := 0, ssHandle := 0, tentry := 0,
    bound := true, boundNext := true, cmpen := false, codeBase := 0, progress := 0, issued := 0, stalled := 0 }

/-- An endpoint with no opener and an empty queue (R44). -/
def Endpoint.reset : Endpoint := { cfg := 0, openers := [], queue := [] }

/-- A closed send handle. -/
def Handle.reset : Handle :=
  { opened := false, ep := 0, slot := 0, epoch := 0, share := 0, credit := 0, unacked := 0, status := 0, part := [],
    hold := 0 }

/-- A descriptor copy that is not valid. -/
def Desc.reset : Desc := { handler := 0, sp := 0, ctl := 0 }

/-- A Lantern at reset (R118). -/
def Lantern.reset : Lantern :=
  { ie := false, abftf := false, poisonf := false, legacy := false, edge := 0, watchHigh := 0, en := 0, prio := [],
    stack := [], vdt := 0, vbase := 0, copies := [], atom := .inactive, atomStack := [], spur := 0, spurMarks := [], fresh := [],
    vec := 0, cause1 := 0, cause2 := 0, lockPc := 0, ovr := 0, watch := [], wtgt := [], watchRetry := [], slotUnder := false, machPend := [] }

/-- A thread after its Spire leaves reset (R37, R42): Disabled, in User, in the main bank. [DESIGN CHOICE, log 4] -/
def Thread.reset : Thread :=
  { status := .disabled, enabled := false, pc := 0, main := Bank.reset, shadow := Bank.reset, inShadow := false,
    priv := .user, vr := [], badV := 0, loads := [], ctl := TCtl.reset, eps := [], handles := [], ltn := Lantern.reset,
    posted := 0, dStatus := [], sFault := false, refusals := [], rankMask := 0, tenant := 0, epoch := 0,
    doneTick := false, act := false, overran := false }

/-- A data space of zeros: the Spire's initialisation writes every word of its arrays with zero (R446).
[DESIGN CHOICE, log 5] -/
def Mem.zeros : Mem := { base := .zero, bytes := [], poison := [] }

/-- Checksums that are not valid. -/
def Checksum.reset : Checksum := { valid := false, cls := none, rows := [], cols := [] }

/-- A tile that no thread owns. -/
def TileSt.reset : TileSt := { owner := none, empty := true, data := Mem.zeros, chk := Checksum.reset }

/-- A void flit. -/
def Flit.none : Flit := { void := true, data := 0, poison := 0 }

/-- A bank of zeros: entry 0 has DUR = 0 and every channel is disabled. -/
def SBank.reset : SBank := { entries := [], chans := [] }

/-- A router whose banks hold no schedule. -/
def Router.reset : Router :=
  { active := false, bank0 := SBank.reset, bank1 := SBank.reset, ready := false, tenant := 0, live := false,
    wref := false, ovr := false, perr := false, index := 0, left := 0, cycle := 0, run := 0, ptrs := [], pready := 0,
    freed := 0, raised := 0, underSet := false, core := none, reduced := [], deliveries := [], sigs := [], swap := false, latch := [] }

/-- A stream slot that was never used (R284). -/
def Stream.reset : Stream :=
  { state := 0, desc := 0, owner := { core := 0, thread := 0 }, tenant := 0, seq := 0, issued := 0, due := none,
    fault := 0, poisoned := false, done := 0, amax := 0, held := [], list := [], listPoison := [], got := [],
    pending := [], acked := [], entry := 0, wback := false, pos := 0, sent := 0, out := [], inb := [], noted := false }

/-- A D-mesh output that has granted nothing. -/
def DOut.reset : DOut := { until_ := 0, skipped := 0, lastReq := 0, lastResp := 0 }

/-- A core after its Spire leaves reset. -/
def Core.reset : Core :=
  { mem := Mem.zeros, icache := { lines := [], lock := 0, next := [] }, miss := none, icmiss := 0, freeze := 0, lastIssue := 3,
    cmap := 0, lmap := 0, epoch := 0, tenant := 0, queueV := [], queueM := [], queueMV := [], nextSeq := 0,
    slots := [], wcache := [], tile := { tiles := [], accs := [], gated := 0, idleFrom := [] },
    router := Router.reset, route := { ctl := 0, cfg := [] }, service := true, retired := none }

/-- A free lock. -/
def LockSt.reset : LockSt := { holder := none, broken := false }

/-- A Spire after its domain leaves reset. -/
def SpireSt.reset : SpireSt :=
  { drum := Mem.zeros, ppPend := none, phase := false, waiters := [], locks := [], slots := [], pcLines := [],
    pcUsed := [], turret := [], wcache := [], staged := false, listTodo := [], listLeft := 0,
    listBase := 0, listShift := 0, cycBase := 0, cycHeld := none,
    doze := { dozing := false, since := 0 } }

/-- A domain with its switches open (R441). [DESIGN CHOICE, log 3] -/
def Dom.reset : Dom :=
  { st := .off, fails := 0, cause := 0, pend := false, stage := 0, offAtEdge := false, since := 0 }

/-- A quadrant after reset. -/
def QuadSt.reset : QuadSt :=
  { reports := [], bicEdge := [], bicWatch := [], watchRetry := [], bicStacks := [], bicSpurMarks := [], watchTenant := [], winv := none, winPend := [],
    l2 := [], wcacheB := [], wcacheF := [], load := none, edged := false, filter := [] }

/-- The Clocktower after reset: no edges are fired (R368). -/
def Clocktower.reset : Clocktower :=
  { tick := 0, edgeNs := 0, running := false, notice := none, first := true, mode := false, src := 0,
    period := 0x186A0, atMax := false, target := none, lastTarget := 0, locked := false, lost := false,
    parity := [], swap := false, wdtStart := 0, readySent := false, readyFrom := [], sent := false, lastIn := none,
    nsFrac := 0, ahead := 0, apart := false, synced := false, sampled := 0, logN := 0, latch := [] }

/-- A Belfry core after reset: in Machine, held (R121, R500). [DESIGN CHOICE, log 4] -/
def Belfry.reset : Belfry :=
  { regs := [], status := 0x300, locked := false, held := true, halted := false, pc := 0, progress := 0, g := [],
    tenant := 0, block := none, fresh := [], ranks := 0 }

/-- No rail is valid. [DESIGN CHOICE, log 3] -/
def Power.reset : Power :=
  { phase := .dark, vrGood := false, pwrReq := false, thermtrip := false, straps := 0, lastOff := 0, window := 0,
    verdict := .none, windows := 0, avs := none, perstWake := false, match_ := false, l1Exit := false, savedCtl := 0, used := [], failed := false,
    sramMv := 800 }

/-- Whether four Spires are ones that a ZN4-1920-288L may have disabled: no quadrant has more than two of them (R2). -/
def binLegal (l : List Spire) : Bool :=
  decide (l.length = 4) && decide l.Nodup &&
  ((List.range 4).all fun q => decide ((l.filter fun sp => sp.toNat / 16 = q).length ≤ 2))

/-- The Spires that the part has disabled: none on a ZN4-2048-288L (R1, R2). -/
def partDisabled : List Spire :=
  match Config.binned with
  | some l => if binLegal l then l else []
  | none => []

/-- The bypassed tiles as fused: 0 to 8 for each Spire row, 8 being a row with none (R262). -/
def partRepair : Store (BitVec 4) :=
  ((List.range 256).map fun k => (k, if (Config.bypassed k).toNat < 8 then Config.bypassed k else 8#4)).filter fun p =>
    p.2 ≠ 8#4

/-- The fuse map of a part in FIELD, in which parts ship (R490): the disabled Spires of its part code (R2), its bypassed
tiles, no password slot, its serial number and keys. [DESIGN CHOICE, log 4] -/
def Fuses.reset : Fuses :=
  { repair := partRepair, disable := partDisabled.foldl (fun m sp => m ||| (1#64 <<< sp.toNat)) 0,
    part := if partDisabled.isEmpty then 0 else 1, serial := Config.serial, keys := (List.range 4).map Config.ownerKey, revoked := 0,
    debugKey := Config.debugKey, svn := 0, lifecycle := 1, slots := [], stop := false, badRepair := 0, badRamp := 0,
    badTrim := 0, badDebug := false, badSlots := 0 }

/-- The Keep without power, beside an empty flash. [DESIGN CHOICE, log 4] -/
def Keep.reset : Keep :=
  { flash := [], lifecycle := 1, slot := false, booted := false, duboette := false, stopped := false,
    nonce := none, rma := false, upload := [], progSlot := none, scan := false, jtag := .idcode, jtagOut := none, fuseDigest := 0, spdm := [] }

/-- A ring that is not enabled. -/
def RingSt.reset : RingSt := { tail := 0, phase := true, stopped := false, armed := true, notes := [] }

/-- A port that has not trained. -/
def PortSt.reset : PortSt :=
  { expect := 0, nak := false, partial_ := [], seq := 0, replay := [], nakSeq := 0, resent := 0, ackNs := 0, waiting := [],
    used := [], owed := [], lastInp := [], lastVc := [], skips := 0, tfi := 0, wasUp := false, active := [], ber := (0, 0) }

/-- A segment of which nothing has arrived. -/
def SegSt.reset : SegSt := { xin := none, yin := none, zin := none, sent := false, done := false }

/-- A collective that is free. -/
def Coll.reset : Coll := { busy := false, desc := 0, due := none, segs := [] }

/-- The device before power is first applied: every domain OFF, every register at its reset value.
[DESIGN CHOICE, log 3, 5] -/
def State.reset : State :=
  { pending := [], now := 0, ns := 0, free := 0, nextId := 0, threads := [], cores := [], spires := [], quads := [],
    regs := [], cleared := [], flight := [], douts := [], dcredits := [], links := [], far := Mem.zeros, ct := Clocktower.reset, doms := [], belfry := [], faultSrc := 0,
    hubQueue := [], toSkb := [], skbWaits := [], skbTag := 0, ports := [], skbIn := [], colls := [], locked := false,
    heard := [], lostWorkers := [], hubSeq := 0, grpFilter := [], sysFilter := [], hubLatch := [], lostTotal := 0, devFault := false,
    power := Power.reset, fuses := Fuses.reset, keep := Keep.reset, toHost := [], rings := [], cmds := [], tasks := [],
    smbus := [], smbHeld := false, tickOut := [],
    ocu := Mem.zeros, ocuLast := none, ocuFull := false }

end Sys2Proof.Machine
end

