-- ==== Sys2Proof/Machine/Store.lean ====
section
/-! DEFINITION. Reading and writing the plain list store, and the data spaces built on it. -/

namespace Sys2Proof.Machine

open Sys2Proof

/-- The value listed under `k`. -/
def Store.find? {α : Type} : Store α → Nat → Option α
  | [], _ => none
  | (j, v) :: r, k => if j = k then some v else Store.find? r k

/-- The value under `k`, or the default of an unlisted key. -/
def Store.get {α : Type} (d : α) (st : Store α) (k : Nat) : α := (Store.find? st k).getD d

/-- List `v` under `k`, keeping the keys in rising order. -/
def Store.put {α : Type} : Store α → Nat → α → Store α
  | [], k, v => [(k, v)]
  | (j, w) :: r, k, v =>
    if k < j then (k, v) :: (j, w) :: r
    else if k = j then (k, v) :: r
    else (j, w) :: Store.put r k v

/-- Unlist `k`. -/
def Store.del {α : Type} (st : Store α) (k : Nat) : Store α := st.filter fun e => e.1 ≠ k

/-- Make `k` hold `v` where an unlisted key holds `d`: a value equal to the default is not listed. -/
def Store.set {α : Type} [DecidableEq α] (d : α) (st : Store α) (k : Nat) (v : α) : Store α :=
  if v = d then Store.del st k else Store.put st k v

/-- The canonical form: keys strictly rising and no entry equal to the default. -/
def Store.wf {α : Type} [DecidableEq α] (d : Nat → α) : Store α → Bool
  | [] => true
  | [(k, v)] => decide (v ≠ d k)
  | (k, v) :: (j, w) :: r => decide (v ≠ d k) && decide (k < j) && Store.wf d ((j, w) :: r)

/-- The keys strictly rising. -/
def Store.rising {α : Type} : Store α → Bool
  | [] => true
  | [_] => true
  | (k, _) :: (j, w) :: r => decide (k < j) && Store.rising ((j, w) :: r)

/-- What an unlisted byte reads as. -/
def MemBase.byte : MemBase → Nat → Byte
  | .zero, _ => 0
  | .free k, a => Config.freeByte k a


/-- The byte at address `a`. [DESIGN CHOICE, log 5] -/
def Mem.byte (m : Mem) (a : Nat) : Byte := Store.get (m.base.byte a) m.bytes a

/-- Write one byte, keeping the canonical form. -/
def Mem.setByte (m : Mem) (a : Nat) (b : Byte) : Mem :=
  { m with bytes := Store.set (m.base.byte a) m.bytes a b }

/-- The canonical form of a data space's byte list. -/
def Mem.wf (m : Mem) : Bool := Store.wf m.base.byte m.bytes

/-- The `n` bytes from address `a`, the lowest first. -/
def Mem.read (m : Mem) (a : Nat) : Nat → List Byte
  | 0 => []
  | n + 1 => m.byte a :: Mem.read m (a + 1) n

/-- Write bytes from address `a` upward. -/
def Mem.write (m : Mem) (a : Nat) : List Byte → Mem
  | [] => m
  | b :: r => Mem.write (m.setByte a b) (a + 1) r

/-- The number that little-endian bytes hold. [DEDUCED, log 12] -/
def leNat : List Byte → Nat
  | [] => 0
  | b :: r => b.toNat + 256 * leNat r

/-- The low `n` bytes of a number, little-endian. [DEDUCED, log 12] -/
def leBytes : Nat → Nat → List Byte
  | 0, _ => []
  | n + 1, x => BitVec.ofNat 8 x :: leBytes n (x / 256)

/-- Read `n` bytes as an unsigned little-endian number. [DEDUCED, log 12] -/
def Mem.readNat (m : Mem) (a n : Nat) : Nat := leNat (m.read a n)

/-- Whether any aligned 64-bit word that the `n` bytes from `a` touch is poisoned (R228). -/
def Mem.poisoned (m : Mem) (a n : Nat) : Bool :=
  m.poison.any fun w => decide (a / 8 ≤ w) && decide (w * 8 < a + n)

/-- Insert into a rising list without repeats. -/
def insNat : List Nat → Nat → List Nat
  | [], k => [k]
  | j :: r, k => if k < j then k :: j :: r else if k = j then j :: r else j :: insNat r k

/-- Poison the aligned word that holds address `a`. -/
def Mem.poisonWord (m : Mem) (a : Nat) : Mem := { m with poison := insNat m.poison (a / 8) }

/-- Clear the poison of the aligned words that a write of `n` bytes from `a` covers whole; a partial write keeps the
poison (R228). -/
def Mem.cure (m : Mem) (a n : Nat) : Mem :=
  { m with poison := m.poison.filter fun w => ! (decide (a ≤ w * 8) && decide (w * 8 + 8 ≤ a + n)) }

/-- Store bytes at `a`: full words lose their poison, partial words keep it. -/
def Mem.store (m : Mem) (a : Nat) (bs : List Byte) : Mem := (m.write a bs).cure a bs.length

/-- Store the low `n` bytes of a number at `a`. [DEDUCED, log 12] -/
def Mem.storeNat (m : Mem) (a n x : Nat) : Mem := m.store a (leBytes n x)

end Sys2Proof.Machine
end

