-- ==== Sys2Proof/Machine/Ops.lean ====
section
/-! DEFINITION. The named operations over the state: records and registers, errors, issue and retirement of a thread's
instruction, exception entry, the shadow window and return. -/

namespace Sys2Proof.Machine

open Sys2Proof

/-! ### Bits -/

/-- Bit `k` of a vector. -/
def bit {w : Nat} (x : BitVec w) (k : Nat) : Bool := x.getLsbD k

/-- Bits [hi:lo] as a number. -/
def fld {w : Nat} (x : BitVec w) (hi lo : Nat) : Nat := (x.extractLsb' lo (hi - lo + 1)).toNat

/-- Replace bits [hi:lo] by the low bits of `v`. -/
def setFld {w : Nat} (x : BitVec w) (hi lo v : Nat) : BitVec w :=
  let m : BitVec w := (BitVec.ofNat w (2 ^ (hi - lo + 1) - 1)) <<< lo
  (x &&& ~~~ m) ||| ((BitVec.ofNat w v <<< lo) &&& m)

/-- A Boolean as a number. -/
def b2n (b : Bool) : Nat := if b then 1 else 0

/-! ### Records -/

/-- The key of a thread in the store of threads. -/
def tidKey (t : Tid) : Nat := 4 * t.core.toNat + t.thread.toNat

/-- The thread's record. -/
def State.thread (s : State) (t : Tid) : Thread := Store.get Thread.reset s.threads (tidKey t)

/-- Replace the thread's record. -/
def State.setThread (s : State) (t : Tid) (th : Thread) : State :=
  { s with threads := Store.set Thread.reset s.threads (tidKey t) th }

/-- Change the thread's record. -/
def State.modThread (s : State) (t : Tid) (f : Thread → Thread) : State := s.setThread t (f (s.thread t))

/-- The core's record. -/
def State.core (s : State) (c : CoreId) : Core := Store.get Core.reset s.cores c.toNat

/-- Replace the core's record. -/
def State.setCore (s : State) (c : CoreId) (k : Core) : State :=
  { s with cores := Store.set Core.reset s.cores c.toNat k }

/-- Change the core's record. -/
def State.modCore (s : State) (c : CoreId) (f : Core → Core) : State := s.setCore c (f (s.core c))

/-- The Spire's record. -/
def State.spire (s : State) (sp : Spire) : SpireSt := Store.get SpireSt.reset s.spires sp.toNat

/-- Change the Spire's record. -/
def State.modSpire (s : State) (sp : Spire) (f : SpireSt → SpireSt) : State :=
  { s with spires := Store.set SpireSt.reset s.spires sp.toNat (f (s.spire sp)) }

/-- The quadrant's record. -/
def State.quad (s : State) (q : Quad) : QuadSt := Store.get QuadSt.reset s.quads q.toNat

/-- Change the quadrant's record. -/
def State.modQuad (s : State) (q : Quad) (f : QuadSt → QuadSt) : State :=
  { s with quads := Store.set QuadSt.reset s.quads q.toNat (f (s.quad q)) }

/-- The domain's record (R440). -/
def State.dom (s : State) (n : Nat) : Dom := Store.get Dom.reset s.doms n

/-- Change the domain's record. -/
def State.modDom (s : State) (n : Nat) (f : Dom → Dom) : State :=
  { s with doms := Store.set Dom.reset s.doms n (f (s.dom n)) }

/-- The Belfry core's record. -/
def State.bel (s : State) (b : BCore) : Belfry := Store.get Belfry.reset s.belfry b.toNat

/-- Change the Belfry core's record. -/
def State.modBel (s : State) (b : BCore) (f : Belfry → Belfry) : State :=
  { s with belfry := Store.set Belfry.reset s.belfry b.toNat (f (s.bel b)) }

/-- The stored value of a control register. -/
def State.creg (s : State) (r : CReg) (u i : Nat) : Word := Store.get r.row.reset s.regs (r.addr u i)

/-- Store a control register. -/
def State.setCreg (s : State) (r : CReg) (u i : Nat) (v : Word) : State :=
  { s with regs := Store.set r.row.reset s.regs (r.addr u i) v }

/-- Add to a 32-bit counter, saturating at its largest value. -/
def satAdd (x : Word) (n : Nat) : Word := if x.toNat + n < 2 ^ 32 then BitVec.ofNat 32 (x.toNat + n) else BitVec.allOnes 32

/-- Add to a counting register, saturating. -/
def State.bump (s : State) (r : CReg) (u i n : Nat) : State := s.setCreg r u i (satAdd (s.creg r u i) n)

/-- Raise a register to at least `v`. -/
def State.maxReg (s : State) (r : CReg) (u i v : Nat) : State :=
  if (s.creg r u i).toNat < v then s.setCreg r u i (BitVec.ofNat 32 v) else s

/-! ### Places -/

/-- The Spire of a core (R17). -/
def spireOf (c : CoreId) : Spire := c.extractLsb' 5 6

/-- The quadrant of a Spire (R16). -/
def quadOf (sp : Spire) : Quad := sp.extractLsb' 4 2

/-- Core `c` of the Spire. -/
def coreOf (sp : Spire) (c : BitVec 5) : CoreId := sp ++ c

/-- The router at which the Cupola of a Spire attaches: core c11 (R270). -/
def cupolaRouter (sp : Spire) : CoreId := coreOf sp 11

/-- The router of a quadrant's service port: core c0 of its Spire 5 (R270). -/
def servicePort (q : Quad) : CoreId := coreOf (q ++ 5#4) 0

/-- The mesh column of a router (R16). -/
def meshCol (c : CoreId) : Nat := 32 * (c.toNat / 512 % 2) + 8 * (c.toNat / 32 % 4) + c.toNat % 8

/-- The mesh row of a router (R16). -/
def meshRow (c : CoreId) : Nat := 16 * (c.toNat / 1024) + 4 * (c.toNat / 128 % 4) + c.toNat / 8 % 4

/-- The router at a mesh row and column (R16). -/
def routerAt (row col : Nat) : CoreId :=
  BitVec.ofNat 11 (512 * (2 * (row / 16) + col / 32) + 128 * (row / 4 % 4) + 32 * (col / 8 % 4) + 8 * (row % 4) + col % 8)

/-- Whether the Spire's domain runs: ON, or CLOSING and draining (R441), and its clocks are not gated by DOZE. -/
def State.spireRuns (s : State) (sp : Spire) : Bool :=
  match (s.dom sp.toNat).st with
  | .on | .closing => ! (s.spire sp).doze.dozing
  | _ => false

/-- Whether a domain takes new work (R447). -/
def State.domOpen (s : State) (n : Nat) : Bool := (s.dom n).st = .on

/-- Whether a domain still carries the work it has accepted: ON or CLOSING (R447). -/
def State.domCarries (s : State) (n : Nat) : Bool := (s.dom n).st = .on || (s.dom n).st = .closing

/-! ### Free values -/

/-- Take the next free value. [DESIGN CHOICE, log 8] -/
def State.fresh (s : State) : BitVec 512 × State := (Config.freeWord s.free, { s with free := s.free + 1 })

/-- Take an identity for a packet or a request. [DESIGN CHOICE, log 7] -/
def State.newId (s : State) : Nat × State := (s.nextId, { s with nextId := s.nextId + 1 })

/-! ### Error reports (R460, R466) -/

/-- A report of one event at this moment. -/
def State.mkReport (s : State) (kind : BitVec 4) (index : BitVec 12) (cls : Byte) (sev : BitVec 2) (detail : DWord)
    (tenant : BitVec 4) : Report :=
  { kind := kind, index := index, cls := cls, sev := sev, poison := false, count := 1, first := s.ns, last := s.ns,
    detail := detail, tenant := tenant, device := (s.creg .skbDevid 0 0).setWidth 10, level := 0 }

/-- A unit reports to the collector of quadrant `q`. -/
def State.report (s : State) (q : Quad) (r : Report) : State :=
  (s.modQuad q fun k => { k with reports := k.reports ++ [r] }).bump .colReports q.toNat 0 1

/-- A compute core reports. [DEDUCED, log 52] -/
def State.reportCore (s : State) (c : CoreId) (cls : Byte) (sev : BitVec 2) (detail : DWord) (tenant : BitVec 4) :
    State :=
  s.report (quadOf (spireOf c)) (s.mkReport 0 (c.setWidth 12) cls sev detail tenant)

/-- A compute core reports a deferred error, with the POISON flag where poisoned data was written or consumed (R460). -/
def State.reportPoison (s : State) (c : CoreId) (cls : Byte) (detail : DWord) (tenant : BitVec 4) (poison : Bool) : State :=
  s.report (quadOf (spireOf c)) { s.mkReport 0 (c.setWidth 12) cls 1 detail tenant with poison := poison }

/-- A Spire reports. -/
def State.reportSpire (s : State) (sp : Spire) (cls : Byte) (sev : BitVec 2) (detail : DWord) (tenant : BitVec 4) :
    State :=
  s.report (quadOf sp) (s.mkReport 1 (sp.setWidth 12) cls sev detail tenant)

/-- A unit that lies in no quadrant reports to Q0's collector. -/
def State.reportDevice (s : State) (kind : BitVec 4) (index : BitVec 12) (cls : Byte) (sev : BitVec 2)
    (detail : DWord) (tenant : BitVec 4) : State :=
  s.report 0 (s.mkReport kind index cls sev detail tenant)

/-- Latch an edge on a source of a Belfry interrupt controller (R122). -/
def State.raiseBic (s : State) (q : Quad) (n : Nat) : State :=
  s.modQuad q fun k => { k with bicEdge := Store.set false k.bicEdge n true }

/-- Latch an edge on a source of every quadrant's controller. -/
def State.raiseBicAll (s : State) (n : Nat) : State :=
  (((s.raiseBic 0 n).raiseBic 1 n).raiseBic 2 n).raiseBic 3 n

/-! ### Registers of a thread -/

/-- The bank in use (R34, R44). -/
def Thread.bank (th : Thread) : Bank := if th.inShadow then th.shadow else th.main

/-- Replace the bank in use. -/
def Thread.setBank (th : Thread) (b : Bank) : Thread :=
  if th.inShadow then { th with shadow := b } else { th with main := b }

/-- A general register: g31 reads as zero (R40). -/
def Bank.reg (b : Bank) (r : Reg) : Word := if r = 31 then 0 else Store.get 0 b.g r.toNat

/-- Write a general register: writes to g31 are discarded (R40); the register's parity is right again (R228). -/
def Bank.setReg (b : Bank) (r : Reg) (v : Word) : Bank :=
  if r = 31 then b else { b with g := Store.set 0 b.g r.toNat v, bad := b.bad &&& ~~~ (1#32 <<< r.toNat) }

/-- A general register of the bank in use. -/
def Thread.g (th : Thread) (r : Reg) : Word := th.bank.reg r

/-- Write a general register of the bank in use. -/
def Thread.setG (th : Thread) (r : Reg) (v : Word) : Thread := th.setBank (th.bank.setReg r v)

/-- A pair: the low half in the even register (R40). -/
def Thread.pair (th : Thread) (r : Reg) : DWord := th.g (r + 1) ++ th.g r

/-- Write a pair. -/
def Thread.setPair (th : Thread) (r : Reg) (v : DWord) : Thread :=
  (th.setG r (v.setWidth 32)).setG (r + 1) (v.extractLsb' 32 32)

/-- A pair must begin at an even register (R40). -/
def evenReg (r : Reg) : Bool := ! r.getLsbD 0

/-- A vector register. -/
def Thread.v (th : Thread) (r : Reg) : VReg := Store.get 0 th.vr r.toNat

/-- Write a vector register: its parity is right again (R228). -/
def Thread.setV (th : Thread) (r : Reg) (v : VReg) : Thread :=
  { th with vr := Store.set 0 th.vr r.toNat v, badV := th.badV &&& ~~~ (1#32 <<< r.toNat) }

/-- A loop level of a bank. -/
def Bank.loop (b : Bank) (k : Nat) : Loop := Store.get Loop.reset b.loops k

/-- Replace a loop level. -/
def Bank.setLoop (b : Bank) (k : Nat) (l : Loop) : Bank := { b with loops := Store.set Loop.reset b.loops k l }

/-- Privilege as the two bits of `TSTAT.PRIV` (R44). -/
def Priv.code : Priv → BitVec 2
  | .user => 0 | .supervisor => 1 | .machine => 3

/-- The privilege of two bits; 0b10 is no privilege and reads as Machine, which R97 keeps out of every copy. -/
def Priv.ofCode (c : BitVec 2) : Priv := if c = 0 then .user else if c = 1 then .supervisor else .machine

/-- Whether privilege `p` is at or above `q`. -/
def Priv.atLeast (p q : Priv) : Bool := q.code ≤ p.code

/-- The Lantern record changed. -/
def Thread.modLtn (th : Thread) (f : Lantern → Lantern) : Thread := { th with ltn := f th.ltn }

/-- The thread control registers changed. -/
def Thread.modCtl (th : Thread) (f : TCtl → TCtl) : Thread := { th with ctl := f th.ctl }

/-- A receive endpoint. -/
def Thread.ep (th : Thread) (n : BitVec 2) : Endpoint := Store.get Endpoint.reset th.eps n.toNat

/-- Replace a receive endpoint. -/
def Thread.setEp (th : Thread) (n : BitVec 2) (e : Endpoint) : Thread :=
  { th with eps := Store.set Endpoint.reset th.eps n.toNat e }

/-- A send handle. -/
def Thread.handle (th : Thread) (h : BitVec 3) : Handle := Store.get Handle.reset th.handles h.toNat

/-- Replace a send handle. -/
def Thread.setHandle (th : Thread) (h : BitVec 3) (x : Handle) : Thread :=
  { th with handles := Store.set Handle.reset th.handles h.toNat x }

/-- A thread's Lantern with the mode that is in force: the strap's until a first enable has latched another (R118,
R123). -/
def State.lanternOf (s : State) (t : Tid) : Lantern :=
  let l := (s.thread t).ltn
  { l with legacy := l.legacy || bit s.power.straps 4 }

/-- Latch an edge source of a thread's Lantern (R115). -/
def State.latch (s : State) (t : Tid) (n : Nat) : State :=
  s.modThread t fun th => th.modLtn fun l => { l with edge := l.edge ||| (1#32 <<< n) }

/-! ### The load delay (R53 to R57) -/

/-- Write a general register of the bank that a load or a unit instruction was issued in (R34). -/
def Thread.setGIn (th : Thread) (shadow : Bool) (r : Reg) (x : Word) : Thread :=
  if shadow then { th with shadow := th.shadow.setReg r x } else { th with main := th.main.setReg r x }

/-- One load writes its destination. -/
def Thread.landOne (th : Thread) (l : Load) : Thread :=
  let th := l.g.foldl (fun th p => th.setGIn l.shadow p.1 p.2) th
  match l.v with
  | some (r, x) => th.setV r x
  | none => th

/-- The loads whose following instructions have all issued, in order. -/
def Thread.due (th : Thread) : List Load := th.loads.filter fun l => l.left = 0

/-- Every load that is due writes its destination, the earlier first (R54). -/
def Thread.landDue (th : Thread) : Thread :=
  let t1 := th.due.foldl Thread.landOne th
  { t1 with loads := th.loads.filter fun l => l.left ≠ 0 }

/-- Every load in flight that no unit instruction is in the way of (`busy`) writes its destination, and the others land
before the next instruction issues: what a handler's first instruction finds (R38, R57). -/
def Thread.landAll (th : Thread) (busy : Load → Bool) : Thread :=
  let t1 := (th.loads.filter fun l => ! busy l).foldl Thread.landOne th
  { t1 with loads := (th.loads.filter busy).map fun l => { l with left := 0 } }

/-- One more instruction of the thread has issued (R53, R55). -/
def Thread.countLoads (th : Thread) : Thread :=
  { th with loads := th.loads.map fun l => { l with left := l.left - 1 } }

/-! ### Unit queues: what an instruction must wait for (R38) -/

/-- The general register that a queued unit instruction will write (R38). -/
def UnitIns.writesG : UnitIns → List Reg
  | .vec .ext _ d _ _ _ => [d]
  | .mchk d _ _ _ => [d]
  | _ => []

/-- The vector registers that a queued unit instruction reads or writes. -/
def UnitIns.usesV : UnitIns → List Reg
  | .vec .ext _ _ a b _ => [a, b]
  | .vec .bcast _ d _ _ _ => [d]
  | .vec _ _ d a b _ => [d, a, b]
  | _ => []

/-- The vector registers that a queued unit instruction reads. -/
def UnitIns.readsV : UnitIns → List Reg
  | .vec .bcast .. | .vec .zero .. => []
  | .vec .sqrt _ _ a _ _ | .vec .abs _ _ a _ _ | .vec .neg _ _ a _ _ | .vec .mov _ _ a _ _ | .vec .cvt _ _ a _ _
  | .vec .gather _ _ a _ _ | .vec .radd _ _ a _ _ | .vec .rmax _ _ a _ _ | .vec .rmin _ _ a _ _ => [a]
  | .vec .ins _ d _ b _ => [d, b]
  | .vec .scatter _ d a _ _ => [d, a]
  | .vec .fma _ d a b _ | .vec .fms _ d a b _ | .vec .fnma _ d a b _ | .vec .fmaP _ d a b _
  | .vec .sel _ d a b _ => [d, a, b]
  | .vec _ _ _ a b _ => [a, b]
  | _ => []

/-- The unit instructions of a core that have not completed. -/
def Core.queued (k : Core) : List UnitOp := k.queueV ++ k.queueM ++ k.queueMV

/-- The thread's unit instructions that have not completed. -/
def State.queuedOf (s : State) (t : Tid) : List UnitOp := (s.core t.core).queued.filter fun u => u.thread = t.thread

/-- Whether a general register waits for a unit's result (R38). -/
def State.gBusy (s : State) (t : Tid) (r : Reg) : Bool := (s.queuedOf t).any fun u => u.ins.writesG.contains r

/-- Whether a vector register is named by a queued unit instruction of the thread (R38). -/
def State.vBusy (s : State) (t : Tid) (r : Reg) : Bool := (s.queuedOf t).any fun u => u.ins.usesV.contains r

/-- Whether a queued unit instruction of the thread still writes or reads a destination of a load (R38). -/
def State.loadBusy (s : State) (t : Tid) (l : Load) : Bool :=
  (l.g.any fun p => s.gBusy t p.1) || (match l.v with | some (r, _) => s.vBusy t r | none => false)

/-- Every load of the thread lands that can (R57). -/
def State.landAll (s : State) (t : Tid) : Thread := (s.thread t).landAll (s.loadBusy t)

/-- The general registers and the vector registers that an instruction reads, `g` and `v`, and those that it writes, `wg`
and `wv`. -/
structure Uses where
  g : List Reg := []
  v : List Reg := []
  wg : List Reg := []
  wv : List Reg := []

/-- Whether a register that an instruction reads has wrong parity (R228). -/
def Thread.spoilt (th : Thread) (u : Uses) : Bool :=
  (u.g.any fun r => th.bank.bad.getLsbD r.toNat) || (u.v.any fun r => th.badV.getLsbD r.toNat)

/-- A thread is ready to issue (R36): its Spire runs, it is enabled and awake, every load that is due has its data and
an interlocked register is not in the way. [DESIGN CHOICE, log 13] -/
def State.ready (s : State) (t : Tid) (u : Uses) : Bool :=
  let th := s.thread t
  s.spireRuns (spireOf t.core) && decide (th.status = .running) &&
  (th.due.all fun l => l.arrived && ! s.loadBusy t l) &&
  ((u.g ++ u.wg).all fun r => ! s.gBusy t r) && ((u.v ++ u.wv).all fun r => ! s.vBusy t r)

/-! ### Loops and retirement (R58 to R60) -/

/-- Test the top loop level at the address of a completed instruction: the next address and the bank after it. The
number bounds the levels that can close in one step. -/
def loopTest (b : Bank) (pc : Word) : Nat → Word × Bank
  | 0 => (pc + 4, b)
  | n + 1 =>
    if b.depth = 0 then (pc + 4, b)
    else
      let k := b.depth.toNat - 1
      let l := b.loop k
      if l.le ≠ pc then (pc + 4, b)
      else if 1 < l.lc.toNat then (l.ls, b.setLoop k { l with lc := l.lc - 1 })
      else loopTest ({ b.setLoop k { l with lc := 0 } with depth := b.depth - 1 }) pc n

/-- Abandon the top levels whose body excludes the target (R60). -/
def abandon (b : Bank) (target : Word) : Nat → Bank
  | 0 => b
  | n + 1 =>
    if b.depth = 0 then b
    else
      let l := b.loop (b.depth.toNat - 1)
      if l.ls ≤ target ∧ target ≤ l.le then b
      else abandon { b with depth := b.depth - 1 } target n

/-- What every issued instruction leaves behind: one more counted for the load delay, for `ISSUED` and for the
activity bit (R53, R366). -/
def Thread.account (th : Thread) : Thread :=
  let th := th.countLoads
  { th with act := true, ctl := { th.ctl with issued := satAdd th.ctl.issued 1 } }

/-- A level source delivered while low is marked at its handler's first instruction (R117). -/
def Thread.noteFresh (th : Thread) (low : BitVec 5 → Bool) : Thread :=
  match th.ltn.fresh with
  | some n :: rest =>
    th.modLtn fun l => { l with fresh := none :: rest, spurMarks := if low n then n :: l.spurMarks else l.spurMarks }
  | _ => th

/-- A handler's atomic section runs from the cycle of its first instruction (R108). -/
def Thread.openSection (th : Thread) (now : Nat) : Thread :=
  match th.ltn.atom with
  | .pending n => th.modLtn fun l => { l with atom := .running (now + n) }
  | _ => th

/-- The instruction completes without a taken branch: the loop test, then the next address (R59). -/
def Thread.retire (th : Thread) : Thread :=
  let r := loopTest th.bank th.pc 3
  { th.setBank r.2 with pc := r.1 }

/-- The unit field of a cause word (R101). -/
inductive UnitCode where
  | scalar | vector | matrix | mv | stream | channel | lantern | other
  deriving DecidableEq, Repr

/-- Its three bits. -/
def UnitCode.code : UnitCode → Nat
  | .scalar => 0 | .vector => 1 | .matrix => 2 | .mv => 3 | .stream => 4 | .channel => 5 | .lantern => 6 | .other => 7

/-! ### Exception entry (R97 to R105) -/

/-- Causes that the device fixes at Machine on a compute core (R94). -/
def fixedMachine (v : BitVec 8) : Bool := v = 0x38 ∨ v = 0x3A ∨ v = 0x3B ∨ v = 0x3F

/-- A descriptor copy that R97 calls invalid for vector `v`. -/
def Desc.invalid (d : Desc) (v : BitVec 8) : Bool :=
  ! d.ctl.getLsbD 14 || fld d.ctl 13 12 = 0 || fld d.ctl 13 12 = 2 || fld d.handler 1 0 ≠ 0 ||
  fld d.handler 63 32 ≠ 0 || (fixedMachine v && fld d.ctl 13 12 ≠ 3)

/-- What an entry carries (R101), and the level source that an interrupt delivers (R117). -/
structure Entry where
  vec : BitVec 8
  detail : Word
  ret : Word
  prio : Nat
  unit : UnitCode
  ppriv : Priv
  pie : Bool
  forced : Bool
  level : Option (BitVec 5) := none
  deriving DecidableEq, Repr

/-- The cause word of an entry (R101). -/
def Entry.causeWord (e : Entry) : Word :=
  BitVec.ofNat 32 (e.vec.toNat + e.prio * 2 ^ 8 + e.ppriv.code.toNat * 2 ^ 14 + b2n e.pie * 2 ^ 16 +
    b2n e.forced * 2 ^ 17 + e.unit.code * 2 ^ 18)

/-- The `LTN_LOCKUP` word of a thread (R118). -/
def Thread.lockupWord (th : Thread) : Word :=
  BitVec.ofNat 32 (th.ltn.cause1.toNat + th.ltn.cause2.toNat * 2 ^ 8 +
    b2n (decide (th.status = .lockedUp)) * 2 ^ 16)

/-- The source bits of `SBD_FAULT` become set and `FAULT_N` is driven (R516). -/
def State.assertFault (s : State) (src : Nat) : State := { s with faultSrc := s.faultSrc ||| (1#6 <<< src) }

/-- A thread locks up: it is frozen, the lockup registers hold both causes and the PC, and an error record names the
core (R113). -/
def State.lockup (s : State) (t : Tid) (handling cause : BitVec 8) (pc : Word) : State :=
  let s := s.modThread t fun th =>
    { th with status := .lockedUp, ltn := { th.ltn with cause1 := handling, cause2 := cause, lockPc := pc } }
  let th := s.thread t
  let s := s.reportCore t.core 0x28 2 (th.lockupWord.setWidth 64) th.tenant
  if bit (s.creg .bicCtl (quadOf (spireOf t.core)).toNat 0) 0 then s.assertFault 0 else s

/-- The vector that a thread in its shadow window is handling; 0 for a thread outside of it, which handles nothing that
its lockup could name. [DESIGN CHOICE, log 107] -/
def Thread.handling (th : Thread) : BitVec 8 := if th.inShadow then th.ltn.vec else 0

/-- Enter the handler at `pc` with privilege `p` through the shadow bank; `sp` is a descriptor's stack pointer and is
absent where the entry leaves g29 alone (R100 to R102, R123). The loads of the interrupted code have landed. -/
def Thread.enterHandler (th : Thread) (tick : Word) (e : Entry) (pc : Word) (p : Priv) (sp : Option Word)
    (keepie : Bool) (sect : Section) : Thread :=
  let oldSp := th.g 29
  let b := th.shadow
  let b := { b with n := false, z := false, c := false, v := false, p0 := false, p1 := false, depth := 0 }
  let b := (((b.setReg 25 tick).setReg 26 e.causeWord).setReg 27 e.detail).setReg 28 e.ret
  let b := match sp with
    | some v => b.setReg 29 (if e.ppriv.code < p.code then v else oldSp)
    | none => b
  { th with
    status := .running, shadow := b, inShadow := true, priv := p, pc := pc,
    ltn := { th.ltn with ie := keepie && th.ltn.ie, atom := sect, vec := e.vec, fresh := e.level :: th.ltn.fresh,
                         atomStack := decide (th.ltn.atom ≠ .inactive) :: th.ltn.atomStack } }

/-- Deliver a vector to a thread whose main bank is in use: through the descriptor copy, as `MACHINE_CHECK` where the
copy is invalid, to lockup where that entry is invalid too (R97); in ZN2 compatibility mode the vectors not fixed at
Machine enter at `LTN_VBASE` (R123). A MACHINE_CHECK that stands for an interrupt keeps its PRI and UNIT.
[DEDUCED, log 21] -/
def State.deliver (s : State) (t : Tid) (e : Entry) : State :=
  let th := s.landAll t
  let tick := s.ct.tick.setWidth 32
  if th.ltn.legacy ∧ ! fixedMachine e.vec then
    let pc : Word := (th.ltn.vbase.setWidth 32 <<< 13) + BitVec.ofNat 32 (32 * e.vec.toNat)
    s.setThread t (th.enterHandler tick e pc .supervisor none false .inactive)
  else
    let go (d : Desc) (e : Entry) : State :=
      let n := fld d.ctl 11 0
      let sect : Section := if n = 0 ∨ th.ltn.legacy then .inactive else .pending n
      s.setThread t (th.enterHandler tick e (d.handler.setWidth 32) (Priv.ofCode (BitVec.ofNat 2 (fld d.ctl 13 12)))
        (some d.sp) (d.ctl.getLsbD 15) sect)
    let d := Store.get Desc.reset th.ltn.copies e.vec.toNat
    if ! d.invalid e.vec then go d e
    else
      let m := Store.get Desc.reset th.ltn.copies 0x3F
      if ! m.invalid 0x3F then go m { e with vec := 0x3F, detail := e.vec.setWidth 32 }
      else s.lockup t th.handling e.vec th.pc

/-- An entry with the interrupted privilege and `IE`. -/
def Thread.entry (th : Thread) (vec : BitVec 8) (detail ret : Word) (unit : UnitCode) : Entry :=
  { vec := vec, detail := detail, ret := ret, prio := 0, unit := unit, ppriv := th.priv, pie := th.ltn.ie,
    forced := false }

/-- A synchronous exception: an entry, or a lockup in the shadow window (R103). -/
def State.syncExc (s : State) (t : Tid) (cause : BitVec 8) (detail ret : Word) (unit : UnitCode) : State :=
  let th := s.thread t
  if th.inShadow then s.lockup t th.handling cause th.pc
  else s.deliver t (th.entry cause detail ret unit)

/-! ### The shadow window (R104, R105) -/

/-- The words of the 176-byte frame (R104). -/
def Thread.frame (th : Thread) : List Word :=
  let b := th.main
  (List.range 31).map (fun k => b.reg (BitVec.ofNat 5 k)) ++
  [BitVec.ofNat 32 (b2n b.v + 2 * b2n b.c + 4 * b2n b.z + 8 * b2n b.n + 16 * b2n b.p0 + 32 * b2n b.p1),
   (b.loop 0).ls, (b.loop 1).ls, (b.loop 2).ls, (b.loop 0).le, (b.loop 1).le, (b.loop 2).le,
   (b.loop 0).lc, (b.loop 1).lc, (b.loop 2).lc, b.depth.setWidth 32, th.ctl.progress, th.shadow.reg 26]

/-- Words as little-endian bytes. -/
def wordBytes (ws : List Word) : List Byte := ws.flatMap fun w => leBytes 4 w.toNat

/-- The cause that an access of `n` bytes at Local address `a` with alignment `al` raises, if any (R49, R79). -/
def localFault (m : Mem) (a n al : Nat) (reads : Bool) : Option (BitVec 8) :=
  if a % al ≠ 0 then some 0x03
  else if 0xC0000 < a + n then some 0x04
  else if reads ∧ m.poisoned a n then some 0x05
  else none

/-- A thread whose shadow bank is about to become its main bank: the interrupted code's loads have landed, so that the
frame holds them, and the handler's own go on to the bank that takes their registers (R57, R104). [DEDUCED, log 106] -/
def State.frameThread (s : State) (t : Tid) : Thread :=
  let th := s.thread t
  let stay := fun l : Load => l.shadow || s.loadBusy t l
  { (th.loads.filter fun l => ! stay l).foldl Thread.landOne th with
      loads := (th.loads.filter stay).map fun l => { l with shadow := false } }

/-- Write the shadow window's frame and continue in the main bank; or the cause and address of the fault (R104).
[DEDUCED, log 28] -/
def State.saveShadow (s : State) (t : Tid) : Except (BitVec 8 × Word) State :=
  let th := s.frameThread t
  let a := th.shadow.reg 29 - 176
  match localFault (s.core t.core).mem a.toNat 176 8 false with
  | some c => .error (c, a)
  | none =>
    let s := s.modCore t.core fun k => { k with mem := k.mem.store a.toNat (wordBytes th.frame) }
    .ok (s.setThread t
      { th with main := th.shadow.setReg 29 a, inShadow := false, ctl := { th.ctl with progress := 0 } })

/-- Deliver an asynchronous vector: a thread in its shadow window first takes a forced save, and locks up where that
faults (R105). -/
def State.asyncExc (s : State) (t : Tid) (mk : Thread → Entry) : State :=
  let th := s.thread t
  if th.inShadow then
    match s.saveShadow t with
    | .error _ => s.lockup t th.handling (mk th).vec th.pc
    | .ok s => s.deliver t { mk (s.thread t) with forced := true }
  else s.deliver t (mk th)

/-! ### Return from exception (R106) -/

/-- Restore a bank and `PROGRESS` from the words of a frame. -/
def Thread.restoreFrame (th : Thread) (ws : List Word) : Thread :=
  let w := fun k => ws.getD k 0
  let b : Bank := (List.range 31).foldl (fun b k => b.setReg (BitVec.ofNat 5 k) (w k)) th.main
  let f := w 31
  let b := { b with v := bit f 0, c := bit f 1, z := bit f 2, n := bit f 3, p0 := bit f 4, p1 := bit f 5,
                    depth := (w 41).setWidth 2 }
  let b := ((b.setLoop 0 { ls := w 32, le := w 35, lc := w 38 }).setLoop 1 { ls := w 33, le := w 36, lc := w 39 }).setLoop 2
    { ls := w 34, le := w 37, lc := w 40 }
  { th with main := b, ctl := { th.ctl with progress := w 42 } }

/-- The words that little-endian bytes hold. -/
def bytesWords : Nat → List Byte → List Word
  | 0, _ => []
  | n + 1, bs => BitVec.ofNat 32 (leNat (bs.take 4)) :: bytesWords n (bs.drop 4)

/-- The end that both forms of return share: privilege and `IE` from the entry record, the handler's atomic section
ended; a handler returned to runs with its own section expired (R106, R107). -/
def Thread.leave (th : Thread) (cw target : Word) : Thread :=
  { th with pc := target, priv := Priv.ofCode (cw.extractLsb' 14 2),
            ltn := { th.ltn with ie := bit cw 16, atom := if th.ltn.atomStack.headD false then .expired else .inactive,
                                 atomStack := th.ltn.atomStack.tail, fresh := th.ltn.fresh.tail } }

/-- `eret` at its effect: the state after it, or the cause it raises (R106). [DEDUCED, log 28] -/
def State.eret (s : State) (t : Tid) : Except (BitVec 8 × Word) State :=
  let th := s.thread t
  let cw := th.g 26
  let target := th.g 28
  if th.priv.code < (Priv.ofCode (cw.extractLsb' 14 2)).code then .error (0x02, 0)
  else if fld target 1 0 ≠ 0 then .error (0x03, 0)
  else if th.inShadow then
    .ok (s.setThread t ({ th with inShadow := false }.leave cw target))
  else
    let a := (th.g 29).toNat
    match localFault (s.core t.core).mem a 176 8 true with
    | some c => .error (c, th.g 29)
    | none =>
      let ws := bytesWords 44 ((s.core t.core).mem.read a 176)
      .ok (s.setThread t ((th.restoreFrame ws).leave cw target))

/-! ### The Lantern's sources (R109, R115) -/

/-- Level sources (R115). -/
def levelSource (n : Nat) : Bool := (2 ≤ n ∧ n ≤ 5) ∨ (8 ≤ n ∧ n ≤ 15) ∨ n = 25 ∨ n = 26

/-- Whether the error hub holds a record for a tenant with severity in the given half (R115, R468). -/
def State.hubHolds (s : State) (tenant : BitVec 4) (fatal : Bool) : Bool :=
  s.hubQueue.any fun r => decide (r.rep.tenant = tenant) && decide ((2 ≤ r.rep.sev.toNat) = fatal)

/-- The condition of a level source at this moment. -/
def State.levelCond (s : State) (th : Thread) (n : Nat) : Bool :=
  if 2 ≤ n ∧ n ≤ 5 then ! (th.ep (BitVec.ofNat 2 (n - 2))).queue.isEmpty
  else if 8 ≤ n ∧ n ≤ 15 then th.ltn.watchHigh.getLsbD (n - 8)
  else if n = 25 then s.hubHolds th.tenant false
  else if n = 26 then s.hubHolds th.tenant true
  else false

/-- Whether a source is on the priority stack. -/
def Lantern.onStack (l : Lantern) (n : Nat) : Bool := l.stack.any fun e => e.1.toNat = n

/-- The pending bit of a source: latched for an edge source; the condition for a level source, held at its value at
delivery while the source is on the stack (R115). -/
def State.pendBit (s : State) (th : Thread) (n : Nat) : Bool :=
  if levelSource n then th.ltn.onStack n || s.levelCond th n
  else th.ltn.edge.getLsbD n

/-- `LTN_PEND`. -/
def State.pendWord (s : State) (th : Thread) : Word :=
  BitVec.ofNat 32 ((List.range 32).foldl (fun a n => a + b2n (s.pendBit th n) * 2 ^ n) 0)

/-- The wake set of a `wait` (R66). -/
def State.wakeSet (s : State) (th : Thread) : Word := s.pendWord th &&& th.ctl.wakeMask

/-- The priority of a source: six bits, of which ZN2 compatibility mode uses four (R118, R123). -/
def Lantern.prioOf (l : Lantern) (n : Nat) : Nat :=
  let p := (Store.get 63 l.prio n).toNat
  if l.legacy then p % 16 else p

/-- The running priority (R116, R123). -/
def Lantern.running (l : Lantern) : Nat :=
  match l.stack with
  | [] => if l.legacy then 16 else 64
  | e :: _ => if l.legacy then e.2.toNat % 16 else e.2.toNat

/-- Whether interrupts may be taken: `IE`, or an expired atomic section (R108, R109). -/
def Lantern.open_ (l : Lantern) : Bool := l.ie || decide (l.atom = .expired)

/-- Whether a thread's state lets a vector reach it: it runs, is stalled or is asleep. Tick sleep ends only at the
edge, and a Disabled thread has not begun (R37, R522). [DEDUCED, log 17] -/
def Thread.takesVectors (th : Thread) : Bool :=
  match th.status with
  | .running => true
  | .blocked _ => true
  | _ => false

/-- Whether source `n` is deliverable as far as the Lantern judges it (R109). -/
def State.deliverable (s : State) (th : Thread) (n : Nat) : Bool :=
  let l := th.ltn
  s.pendBit th n && l.en.getLsbD n && ! l.onStack n && decide (l.prioOf n < l.running) &&
  decide (l.stack.length < 16) && l.open_ && th.takesVectors

/-- The deliverable source of lowest priority value, the lowest number among equals (R115). -/
def State.bestSource (s : State) (th : Thread) : Option Nat :=
  (List.range 32).foldl (fun best n =>
    if s.deliverable th n then
      match best with
      | none => some n
      | some m => if th.ltn.prioOf n < th.ltn.prioOf m then some n else some m
    else best) none

/-! ### Issue (R35, R36, R50, R51) -/

/-- Condition codes of R50. -/
def condHolds (b : Bank) (c : BitVec 4) : Bool :=
  match c.toNat with
  | 0x0 => true
  | 0x1 => b.z
  | 0x2 => ! b.z
  | 0x3 => b.n != b.v
  | 0x4 => b.n == b.v
  | 0x5 => ! b.c
  | 0x6 => b.c
  | 0x7 => ! b.z && (b.n == b.v)
  | 0x8 => b.z || (b.n != b.v)
  | 0x9 => b.n
  | 0xA => ! b.n
  | 0xB => b.v
  | 0xC => b.p0
  | 0xD => ! b.p0
  | 0xE => b.p1
  | _ => ! b.p1

/-- What an issued instruction does. -/
inductive Eff where
  /-- It completes; execution goes on at the next instruction. -/
  | done (s : State)
  /-- It completes as a taken branch that may abandon loop levels (`b`, `jr`, `ret`) or not (`bl`, `jalr`). -/
  | jump (s : State) (target : Word) (drop : Bool)
  /-- It raises a synchronous exception at itself, with no other effect. -/
  | exc (cause : BitVec 8) (detail : Word) (unit : UnitCode)
  /-- It issues and holds its thread. -/
  | block (s : State) (b : Block)
  /-- It may not issue yet; nothing happens. -/
  | hold
  /-- It may not issue yet; a counter notes the cycle. -/
  | stall (s : State)
  /-- It has set the thread's next instruction itself. -/
  | moved (s : State)

/-- Count an issued instruction of a thread and note who issued last (R35, R53). -/
def State.accounted (s : State) (t : Tid) : State :=
  (s.modThread t Thread.account).modCore t.core fun k => { k with lastIssue := t.thread }

/-- The instruction completes and the thread goes on. -/
def State.retired (s : State) (t : Tid) : State := (s.accounted t).modThread t Thread.retire

/-- What the instruction finds when it issues: the loads that are due have landed, and a handler's first instruction
has judged its source and begun its atomic section (R54, R108, R117). -/
def State.landed (s : State) (t : Tid) : State :=
  s.modThread t fun th => ((th.landDue).noteFresh fun n => ! s.levelCond th n.toNat).openSection s.now

/-- The effect of an issued instruction on the thread's control state. -/
def State.settle (s : State) (t : Tid) : Eff → State
  | .done s' => s'.retired t
  | .jump s' target drop =>
    if fld target 1 0 ≠ 0 then s.syncExc t 0x03 0 (s.thread t).pc .scalar
    else
      (s'.accounted t).modThread t fun th =>
        { (if drop then th.setBank (abandon th.bank target 3) else th) with pc := target }
  | .exc c d u => s.syncExc t c d (s.thread t).pc u
  | .block s' b => (s'.accounted t).modThread t fun th => { th with status := .blocked b }
  | .hold => s
  | .stall s' => s'
  | .moved s' => s'.accounted t

/-- Issue an instruction: nothing happens unless the thread is ready; a false condition makes it an instruction
without effect that still counts (R51); one that reads a register of wrong parity raises ECC_UNCORRECTED (R228).
[DESIGN CHOICE, log 13] -/
def issue (i : Iss) (u : Uses) (s : State) (f : Tid → State → Eff) : Host.Outcome State Fault Refusal :=
  let t : Tid := { core := i.core, thread := i.thread }
  .next (
    if ! s.ready t u then s
    else
      let s1 := s.landed t
      if condHolds (s1.thread t).bank i.cond then
        match (if (s1.thread t).spoilt u then .exc 0x05 0 .scalar else f t s1) with
        | .hold => s
        | e => s1.settle t e
      else s1.retired t)

/-- A stalled instruction completes: its thread goes on at the next instruction (R37). [DESIGN CHOICE, log 14] -/
def State.resume (s : State) (t : Tid) : State :=
  s.modThread t fun th => { th.retire with status := .running }

end Sys2Proof.Machine
end

