-- ==== Sys2Proof/Machine/Flags.lean ====
section
/-! DEFINITION. Results and flags of the scalar operations (R52, R65). -/

namespace Sys2Proof.Machine

open Sys2Proof

/-- The result of a scalar operation with the C and V it would set. -/
structure Res where
  val : Word
  c : Bool
  v : Bool
  deriving DecidableEq, Repr

/-- N, Z, C and V from a result (R52). -/
def Bank.setFlags (b : Bank) (r : Res) : Bank :=
  { b with n := r.val.msb, z := decide (r.val = 0), c := r.c, v := r.v }

/-- a + b + carry, with carry out and signed overflow. -/
def addRes (a b : Word) (cin : Bool) : Res :=
  let u := a.toNat + b.toNat + b2n cin
  let i := a.toInt + b.toInt + b2n cin
  let v := BitVec.ofNat 32 u
  { val := v, c := decide (2 ^ 32 ≤ u), v := decide (v.toInt ≠ i) }

/-- a − b − borrow: C is 1 when there is no borrow. -/
def subRes (a b : Word) (noBorrow : Bool) : Res :=
  let u : Int := a.toNat - b.toNat - (1 - b2n noBorrow : Int)
  let i := a.toInt - b.toInt - (1 - b2n noBorrow : Int)
  let v := BitVec.ofInt 32 u
  { val := v, c := decide (0 ≤ u), v := decide (v.toInt ≠ i) }

/-- A logical result or a product: C and V are 0. -/
def logicRes (v : Word) : Res := { val := v, c := false, v := false }

/-- Shift left: C is the last bit shifted out, 0 for a shift by 0. -/
def shlRes (a : Word) (n : Nat) : Res := { val := a <<< n, c := decide (0 < n) && a.getLsbD (32 - n), v := false }

/-- Logical shift right. -/
def shrRes (a : Word) (n : Nat) : Res := { val := a >>> n, c := decide (0 < n) && a.getLsbD (n - 1), v := false }

/-- Arithmetic shift right. -/
def sarRes (a : Word) (n : Nat) : Res :=
  { val := a.sshiftRight n, c := decide (0 < n) && a.getLsbD (n - 1), v := false }

/-- Rotate left: C is bit 0 of the result, 0 for a rotate by 0. -/
def rolRes (a : Word) (n : Nat) : Res :=
  { val := a.rotateLeft n, c := decide (0 < n) && (a.rotateLeft n).getLsbD 0, v := false }

/-- The quotient rounded toward zero; a zero divisor gives all ones, −2^31 by −1 gives −2^31. -/
def divRes (a b : Word) : Res :=
  { val := if b = 0 then BitVec.allOnes 32 else BitVec.ofInt 32 (a.toInt.tdiv b.toInt), c := false, v := decide (b = 0) }

/-- The unsigned quotient. -/
def divuRes (a b : Word) : Res :=
  { val := if b = 0 then BitVec.allOnes 32 else BitVec.ofNat 32 (a.toNat / b.toNat), c := false, v := decide (b = 0) }

/-- The remainder with the dividend's sign; a zero divisor gives the dividend. -/
def remRes (a b : Word) : Res :=
  { val := if b = 0 then a else BitVec.ofInt 32 (a.toInt.tmod b.toInt), c := false, v := decide (b = 0) }

/-- The unsigned remainder. -/
def remuRes (a b : Word) : Res :=
  { val := if b = 0 then a else BitVec.ofNat 32 (a.toNat % b.toNat), c := false, v := decide (b = 0) }

/-- The high word of the signed product. -/
def mulhsVal (a b : Word) : Word := BitVec.ofInt 32 ((a.toInt * b.toInt) / 2 ^ 32)

/-- The high word of the unsigned product. -/
def mulhuVal (a b : Word) : Word := BitVec.ofNat 32 ((a.toNat * b.toNat) / 2 ^ 32)

/-- The number of leading zeros. -/
def clzVal (a : Word) : Word :=
  BitVec.ofNat 32 ((List.range 32).foldl (fun n k => if a.getLsbD k then 31 - k else n) 32)

/-- The number of set bits. -/
def popcVal (a : Word) : Word := BitVec.ofNat 32 ((List.range 32).foldl (fun n k => n + b2n (a.getLsbD k)) 0)

/-- Which flags an operation with F writes; operations that R52 does not name leave all flags. -/
inductive FlagUse where
  | writes
  | keeps
  deriving DecidableEq, Repr

end Sys2Proof.Machine
end

