-- ==== Sys2Proof/Machine/Operands.lean ====
section
/-! DEFINITION. The operand forms of the scalar classes (R47, R49): register and immediate operands, and the Local
address of the M class. -/

namespace Sys2Proof.Machine

open Sys2Proof

/-- Class I with a sign-extended immediate. -/
def immS (imm : BitVec 12) : Word := imm.signExtend 32

/-- Class I with a zero-extended immediate. -/
def immZ (imm : BitVec 12) : Word := imm.setWidth 32

/-- The bytes that the size field of class M selects (R49). -/
def sizeBytes (size : BitVec 2) : Nat := 2 ^ size.toNat

/-- The effective Local address of class M: the base plus the signed offset scaled by the access size (R49). -/
def effAddr (base : Word) (off : BitVec 10) (scale : Nat) : Word :=
  base + BitVec.ofInt 32 (off.toInt * scale)

/-- The target of a class B branch: signed, in instructions, relative to the branch (R47). -/
def branchTarget (pc : Word) (off : BitVec 22) : Word := pc + (off.signExtend 32 <<< 2)

/-- Read two registers, compute, write d, and with F set the flags (R52, R65). -/
def aluOp (i : Iss) (f : Bool) (d a b : Reg) (use : FlagUse) (op : Bank → Word → Word → Res) (s : State) :
    Host.Outcome State Fault Refusal :=
  issue i { g := [a, b], wg := [d] } s fun t s =>
    let th := s.thread t
    let k := th.bank
    let r := op k (k.reg a) (k.reg b)
    let k := k.setReg d r.val
    .done (s.setThread t (th.setBank (if f ∧ use = .writes then k.setFlags r else k)))

/-- Compute a word from one register and an immediate and write d; no flag is written. -/
def immOp (i : Iss) (d a : Reg) (op : Word → Word) (s : State) : Host.Outcome State Fault Refusal :=
  issue i { g := [a], wg := [d] } s fun t s => .done (s.modThread t fun th => th.setG d (op (th.g a)))

/-- Set the flags from a result and write nothing else. -/
def flagOp (i : Iss) (rs : List Reg) (op : Bank → Res) (s : State) : Host.Outcome State Fault Refusal :=
  issue i { g := rs } s fun t s => .done (s.modThread t fun th => th.setBank (th.bank.setFlags (op th.bank)))

/-- Write predicate p[d[0]] (R65). -/
def Bank.setP (b : Bank) (d : Reg) (x : Bool) : Bank :=
  if d.getLsbD 0 then { b with p1 := x } else { b with p0 := x }

/-- Predicate p[d[0]]. -/
def Bank.getP (b : Bank) (d : Reg) : Bool := if d.getLsbD 0 then b.p1 else b.p0

end Sys2Proof.Machine
end

