-- ==== Sys2Proof/Machine/Access.lean ====
section
/-! DEFINITION. Who may reach a control register (R209 to R212, R313, R447), and the D-mesh packets that carry requests
(R270 to R274). -/

namespace Sys2Proof.Machine

open Sys2Proof

/-! ### Privilege of an agent -/

/-- Whether the agent is a compute thread. -/
def agentIsThread : Agent → Bool
  | .thread _ => true
  | _ => false

/-- The privilege at which an agent makes a control access: a thread's and a Belfry core's own; the PF and JTAG write
the registers marked M as Machine does, a VF does not (R212, R328). -/
def State.agentPriv (s : State) : Agent → Priv
  | .thread t => (s.thread t).priv
  | .belfry b => Priv.ofCode ((s.bel b).status.extractLsb' 8 2)
  | .host fn => if fn = 0 then .machine else .user
  | .jtag => .machine

/-- Duboette runs on core 0 of each quadrant's Belfry cluster in Machine. -/
def State.isDuboette (s : State) : Agent → Bool
  | .belfry b => decide (b.extractLsb' 0 2 = 0) && decide (s.agentPriv (.belfry b) = .machine)
  | _ => false

/-! ### Domains -/

/-- The power domain in which a register's block lies; none for the always-on PDM and for the collectors and the hub,
which report whatever the state of the others (R440, R459). -/
def CReg.domain (r : CReg) (u : Nat) : Option Nat :=
  match r.row.kind with
  | .spire => some u
  | .core => some (u / 32)
  | .port => some (84 + u)
  | .ring | .part => some 92
  | .quad =>
    let o := r.row.off
    if o < 0x10000 then none
    else if o < 0x30000 then some (64 + u)
    else if o < 0x40000 then some (72 + u)
    else some (68 + u)
  | .dev =>
    let o := r.row.off
    if o < 0x40000 then some 92
    else if o < 0x200000 then some 95
    else if o < 0x400000 then none
    else if o < 0x500000 then some 93
    else if o < 0x600000 then some 94
    else none

/-- Whether the block of a register takes requests. -/
def State.blockOpen (s : State) (r : CReg) (u : Nat) : Bool :=
  match r.domain u with
  | none => true
  | some n => s.domOpen n

/-- Whether the tenant's partition holds a Spire (R434). -/
def State.inPartition (s : State) (t : BitVec 4) (sp : Spire) : Bool :=
  if sp.toNat < 32 then bit (s.creg .partSpLo t.toNat 0) sp.toNat else bit (s.creg .partSpHi t.toNat 0) (sp.toNat - 32)

/-- Whether a Belfry core in User may not reach a register: a tenant's code reaches the control blocks of its own Spires
and its own ring page (R438). -/
def State.outOfReach (s : State) (ag : Agent) (r : CReg) (u : Nat) : Bool :=
  match ag with
  | .belfry b =>
    decide (s.agentPriv ag = .user) &&
    ! (match r.row.kind with
       | .spire => s.inPartition (s.bel b).tenant (BitVec.ofNat 6 u)
       | .core => s.inPartition (s.bel b).tenant (BitVec.ofNat 6 (u / 32))
       | .ring => decide (u / 16 = (s.bel b).tenant.toNat)
       | _ => false)
  | _ => false

/-- Whether JTAG or a host function has a way to a register: JTAG reaches the control space only with debug access open,
the Keep only at FULL (R492); a VF reaches its own ring page (R405), and in recovery the PF reaches the Keep alone
(R483). [DEDUCED, log 45] -/
def State.hasWay (s : State) (ag : Agent) (r : CReg) (u : Nat) : Bool :=
  let keep := decide (r.row.kind = .dev) && decide (0x400000 ≤ r.row.off) && decide (r.row.off < 0x500000)
  match ag with
  | .jtag => if keep then decide (fld (s.creg .keepDbg 0 0) 1 0 = 2) else decide (fld (s.creg .keepDbg 0 0) 1 0 ≠ 0)
  | .host fn =>
    if fn = 0 then keep || ! bit (s.creg .keepBootstat 0 0) 7
    else decide (r.row.kind = .ring) && decide (u / 16 = fn.toNat)
  | _ => true

/-- What becomes of a control write before its effect. -/
inductive Gate where
  /-- It is performed. -/
  | ok
  /-- It is refused with a cause, which a compute thread takes as an exception (R313). -/
  | refuse (cause : BitVec 8)
  /-- It is ignored. -/
  | ignore
  /-- It is ignored and a CORRECTED record names the requester (R211, R447). -/
  | ignoreLogged
  deriving DecidableEq, Repr

/-- The gate of R212, R313, R438, R447 and R492 for a write by an agent at privilege `p`. -/
def State.gate (s : State) (ag : Agent) (p : Priv) (r : CReg) (u : Nat) : Gate :=
  let w := r.row
  if ! s.hasWay ag r u then .ignore
  else if s.outOfReach ag r u then .ignoreLogged
  else if ! s.blockOpen r u then (if agentIsThread ag then .refuse 0x12 else .ignoreLogged)
  else if w.mach && decide (p ≠ .machine) then (if agentIsThread ag then .refuse 0x02 else .ignore)
  else if w.belf && agentIsThread ag then .ignore
  else if w.duet && ! s.isDuboette ag then .ignore
  else .ok

/-- The CORRECTED record of a control access that reaches nothing: it names the requester (R211). -/
def State.logAccess (s : State) (ag : Agent) (addr : DWord) : State :=
  match ag with
  | .thread t => s.reportCore t.core 0x08 0 addr (s.thread t).tenant
  | .belfry b => s.report (b.extractLsb' 2 2) (s.mkReport 6 (b.setWidth 12) 0x08 0 addr 0)
  | .host fn => s.reportDevice 5 0 0x08 0 addr fn
  | .jtag => s.reportDevice 10 0 0x08 0 addr 0

/-- Perform a control write command on a named register: its effect where the gate lets it through. A refused write
by a thread reaches the thread through the acknowledgement of its `ctlwx`; the command itself changes nothing. -/
def State.gated (s : State) (ag : Agent) (r : CReg) (u : Nat) (f : State → State) : State :=
  match s.gate ag (s.agentPriv ag) r u with
  | .ok => f s
  | .refuse _ => s
  | .ignore => s
  | .ignoreLogged => s.logAccess ag (BitVec.ofNat 64 (r.addr u 0))

/-- A plain write by the access codes of the table: RW bits take the value, W1C bits clear, W1S bits set; the other
bits stay (R11, R13). -/
def RegRow.write (w : RegRow) (old v : Word) : Word :=
  (((old &&& ~~~ w.rw) ||| (v &&& w.rw)) &&& ~~~ (v &&& w.w1c)) ||| (v &&& w.w1s)

/-- The plain write of a register that has no behaviour of its own. -/
def State.plainWrite (s : State) (r : CReg) (u i : Nat) (v : Word) : State :=
  s.setCreg r u i (r.row.write (s.creg r u i) v)

/-! ### D-mesh packets -/

/-- The quadrant of a Belfry core. -/
def belQuad (b : BCore) : Quad := b.extractLsb' 2 2

/-- The router at which a requester attaches (R270). -/
def hartRouter : Hart → CoreId
  | .thread t => t.core
  | .belfry b => servicePort (belQuad b)

/-- The tenant and the epoch for which a requester acts: a Belfry core's image gives its epoch. -/
def State.hartTenant (s : State) : Hart → BitVec 4 × Byte
  | .thread t => ((s.thread t).tenant, (s.thread t).epoch)
  | .belfry b =>
    ((s.bel b).tenant, match s.tasks.find? fun p => p.2.belfry.contains b.toNat with | some p => p.2.epoch | none => 0)

/-- Whether a packet is performed by a Cupola in its one order: an operation, or a write of one of its registers (R270,
R304). -/
def cupolaBody : Body → Bool
  | .signal .. | .swait .. | .withdraw .. | .lock .. | .unlock .. | .watchReg .. => true
  | .ctlWrite _ _ addr _ =>
    match locate addr.toNat with
    | some (r, _, _) => decide (r.row.kind = .spire) && decide (r.row.off < 0x8000)
    | none => false
  | _ => false

/-- The requests that wait at the Cupola of a router (R304). -/
def State.cupolaQueue (s : State) (c : CoreId) : List Packet :=
  s.flight.filter fun p => decide (p.pos = c) && decide (p.dst = c) && cupolaBody p.body

/-- A packet has reached its router: `CUP_QMAX` follows the requests that wait at a Cupola, 64 at most (R328). -/
def State.queued (s : State) (p : Packet) : State :=
  if p.pos = p.dst ∧ cupolaBody p.body then
    s.maxReg .cupQmax (spireOf p.dst).toNat 0 (min 64 (s.cupolaQueue p.dst).length)
  else s

/-- The bytes of data that a packet carries after its head flit. [DESIGN CHOICE, log 41] -/
def bodyBytes : Body → Nat
  | .message _ _ _ _ _ words _ => 8 * words.length
  | .strData _ _ _ bs _ => bs.length
  | .strWrite _ _ _ _ _ bs => bs.length
  | .ctlWrite .. | .ctlData .. | .signal .. | .swait .. | .swaitAnswer .. | .watchReg .. | .atomicAnswer .. => 8
  | .atomic .. => 16
  | _ => 0

/-- The length of a packet: its head flit and 0 to 4 data flits of 16 bytes (R271). -/
def Packet.flits (p : Packet) : Nat := 1 + min 4 ((bodyBytes p.body + 15) / 16)

/-- The placement epoch in the head flit: that of a channel message or a stream, else that of the source core (R271, R281,
R292). -/
def State.bodyEpoch (s : State) (src : CoreId) : Body → Byte
  | .message _ _ _ _ epoch _ _ => epoch
  | .strWrite _ _ _ _ epoch _ => epoch
  | _ => (s.core src).epoch

/-- Put a packet into the mesh at its source router `wait` cycles from now. [DEDUCED, log 25] -/
def State.sendIn (s : State) (wait : Nat) (src dst : CoreId) (resp vc1 : Bool) (tenant : BitVec 4) (b : Body) : State :=
  let r := s.newId
  let s := r.2
  let p : Packet :=
    { id := r.1, src := src, dst := dst, pos := src, inp := 0, since := s.now + wait, resp := resp, vc1 := vc1,
      tenant := tenant, epoch := s.bodyEpoch src b, bad := false, body := b }
  ({ s with flight := s.flight ++ [p] } : State).queued p

/-- Put a packet into the mesh at its source router. -/
def State.send (s : State) (src dst : CoreId) (resp vc1 : Bool) (tenant : BitVec 4) (b : Body) : State :=
  s.sendIn 0 src dst resp vc1 tenant b

/-- Packets that R274 keeps in order: one source, one destination, one class and VC. -/
def Packet.sameFlow (p q : Packet) : Bool :=
  decide (p.src = q.src) && decide (p.dst = q.dst) && decide (p.resp = q.resp) && decide (p.vc1 = q.vc1)

/-- The oldest packet of a packet's flow. -/
def flowHead (ps : List Packet) (p : Packet) : Option Packet := ps.find? fun q => q.sameFlow p

/-- Whether a packet reached its router before another: in an earlier cycle, or sent first (R304). -/
def Packet.before (p q : Packet) : Bool := decide (p.since < q.since) || (decide (p.since = q.since) && decide (p.id < q.id))

/-- Whether a requester is a thread. -/
def onCore : Hart → Bool
  | .thread _ => true
  | .belfry _ => false

/-- Whether a packet at a router of a Spire is for one of its cores, its Drum or its control block outside the Cupola:
what DOZE gates (R346). -/
def Body.forSpire : Body → Bool
  | .ctlWrite _ _ a _ | .ctlRead _ _ a =>
    decide (0x1000000 ≤ a.toNat) && decide (a.toNat < 0x5000000) && decide (a.toNat % 0x1000000 < 0x400000) &&
      decide (0x8000 ≤ a.toNat % 0x40000)
  | .signal .. | .swait .. | .withdraw .. | .lock .. | .unlock .. | .watchReg .. => false
  | .swaitAnswer w .. | .lockGrant w .. | .ack w _ | .atomicAnswer w .. => onCore w
  | .watchEvent w _ => match w with | .lantern _ _ => true | _ => false
  | .atomic _ _ a _ => decide (fld a.target 49 48 < 2)
  | _ => true

/-- Whether the router of a dozing Spire holds a packet: its clocks must be restored first (R346). -/
def State.dozeHolds (s : State) (p : Packet) : Bool := (s.spire (spireOf p.dst)).doze.dozing && p.body.forSpire

/-- Whether a packet may be consumed: it has come to its destination, nothing of its flow is before it, a Cupola has
performed the requests that came before it, and no dozing Spire's router holds it (R274, R304, R346). -/
def State.consumable (s : State) (p : Packet) : Bool :=
  decide (p.pos = p.dst) && decide (p.since ≤ s.now) && decide ((flowHead s.flight p).map (·.id) = some p.id) &&
  (! cupolaBody p.body || ! (s.cupolaQueue p.dst).any fun q => q.before p) && ! s.dozeHolds p

/-- Whether a packet that carries such a body may be consumed now: what it brings comes before a timeout (R279, R310,
R319). -/
def State.comes (s : State) (f : Body → Bool) : Bool := s.flight.any fun p => f p.body && s.consumable p

/-- The packet `id` where it may be consumed. -/
def State.arrived? (s : State) (id : Nat) : Option Packet :=
  match s.flight.find? fun p => p.id = id with
  | none => none
  | some p => if s.consumable p then some p else none

/-- Remove a packet from the mesh. -/
def State.consume (s : State) (id : Nat) : State := { s with flight := s.flight.filter fun p => p.id ≠ id }

/-- The router at which a control block attaches (R524). -/
def ctlRouter (r : CReg) (u : Nat) : CoreId :=
  match r.row.kind with
  | .core => BitVec.ofNat 11 u
  | .spire =>
    let sp : Spire := BitVec.ofNat 6 u
    if 0x8000 ≤ r.row.off ∧ r.row.off < 0xC000 then coreOf sp 12 else coreOf sp 11
  | .quad => servicePort (BitVec.ofNat 2 u)
  | .port => servicePort (BitVec.ofNat 2 (u / 2))
  | .dev | .ring | .part => servicePort 0

/-- The Lantern that a control address names: its thread and the offset in its 1 KiB (R118). -/
def lanternAt (a : Nat) : Option (Tid × Nat) :=
  if a < 0x1000000 then none
  else
    let q := a / 0x1000000 - 1
    let m := a % 0x1000000
    let o := m % 0x40000
    if q < 4 ∧ m < 0x400000 ∧ 0x10000 ≤ o ∧ o < 0x30000 then
      let sp := 16 * q + m / 0x40000
      some ({ core := BitVec.ofNat 11 (32 * sp + (o - 0x10000) / 0x1000), thread := BitVec.ofNat 2 (o / 0x400) },
        o % 0x400)
    else none

/-- The router of an offset in a Spire's control block that names no register (R210, R524). -/
def spireRouter (sp : Spire) (o : Nat) : CoreId :=
  let core (base size : Nat) : CoreId := coreOf sp (BitVec.ofNat 5 ((o - base) / size))
  if 0x8000 ≤ o ∧ o < 0xC000 then coreOf sp 12
  else if 0x10000 ≤ o ∧ o < 0x30000 then core 0x10000 0x1000
  else if 0x30000 ≤ o ∧ o < 0x31000 then core 0x30000 0x80
  else if 0x32000 ≤ o ∧ o < 0x32800 then core 0x32000 0x40
  else if 0x34000 ≤ o ∧ o < 0x34800 then core 0x34000 0x40
  else if 0x36000 ≤ o ∧ o < 0x36800 then core 0x36000 0x40
  else if 0x38000 ≤ o then core 0x38000 0x400
  else cupolaRouter sp

/-- The router of a control address (R524); the block in which an address lies that names no register answers for it. -/
def addrRouter (a : Nat) : CoreId :=
  match lanternAt a with
  | some (t, _) => t.core
  | none =>
    match locate a with
    | some (r, u, _) => ctlRouter r u
    | none =>
      if 0x1000000 ≤ a ∧ a < 0x5000000 then
        let q := a / 0x1000000 - 1
        let m := a % 0x1000000
        if m < 0x400000 then spireRouter (BitVec.ofNat 6 (16 * q + m / 0x40000)) (m % 0x40000)
        else servicePort (BitVec.ofNat 2 q)
      else if 0x600000 ≤ a ∧ a < 0x640000 then servicePort (BitVec.ofNat 2 ((a - 0x600000) / 0x8000 / 2))
      else if 0x800000 ≤ a ∧ a < 0x1000000 then servicePort (BitVec.ofNat 2 ((a - 0x800000) / 0x100000 / 2))
      else servicePort 0

/-- The tenant for which an agent acts: a thread's, that of a Belfry core's image, or a host function's. -/
def State.agentTenant (s : State) : Agent → BitVec 4
  | .thread t => (s.thread t).tenant
  | .belfry b => (s.bel b).tenant
  | .host fn => fn
  | .jtag => 0

end Sys2Proof.Machine
end

