-- ==== Sys2Proof/Machine/Windows.lean ====
section
/-! DEFINITION. Far addresses, the tenant window tables and the window caches (R19, R201 to R208), the Drum's ping-pong
region (R199). -/

namespace Sys2Proof.Machine

open Sys2Proof

/-- A populated Far physical address (R19, R201). -/
def farPopulated (a : Nat) : Bool := decide (a < 2 ^ 39) && decide (a % 2 ^ 37 < 0x1200000000)

/-- The home quadrant of a Far physical address (R201). -/
def farQuad (a : Nat) : Quad := BitVec.ofNat 2 (a / 2 ^ 37)

/-- The HBM stack of a Far physical address (R201). -/
def farStack (a : Nat) : Nat := 2 * (farQuad a).toNat + a / 2 ^ 12 % 2

/-- Whether the Far crossbar and the HBM pair behind an address take work, and their quadrant was not removed (R29, R288,
R440). -/
def State.farOpen (s : State) (a : Nat) : Bool :=
  s.domOpen (72 + (farQuad a).toNat) && s.domOpen (76 + farStack a) && decide ((s.dom (68 + (farQuad a).toNat)).st ≠ .failed)

/-- Whether a Far address is homed in a quadrant that was removed: its Far crossbar or its mesh fabric FAILED (R14, R29). -/
def State.farDead (s : State) (a : Nat) : Bool :=
  decide ((s.dom (72 + (farQuad a).toNat)).st = .failed) || decide ((s.dom (68 + (farQuad a).toNat)).st = .failed)

/-- Whether the Far crossbar and the HBM pair behind an address still carry what they have accepted (R447). -/
def State.farCarries (s : State) (a : Nat) : Bool := s.domCarries (72 + (farQuad a).toNat) && s.domCarries (76 + farStack a)

/-- The quadrant whose window registers a cache reads (R203). -/
def cacheQuad : WinCache → Quad
  | .core c => quadOf (spireOf c)
  | .turret sp => quadOf sp
  | .belfry q => q
  | .fxb q => q

/-- The entries of a cache (R206). -/
def State.winEntries (s : State) : WinCache → List WinEntry
  | .core c => (s.core c).wcache
  | .turret sp => (s.spire sp).wcache
  | .belfry q => (s.quad q).wcacheB
  | .fxb q => (s.quad q).wcacheF

/-- Replace the entries of a cache. -/
def State.setWinEntries (s : State) (c : WinCache) (es : List WinEntry) : State :=
  match c with
  | .core k => s.modCore k fun r => { r with wcache := es }
  | .turret sp => s.modSpire sp fun r => { r with wcache := es }
  | .belfry q => s.modQuad q fun r => { r with wcacheB := es }
  | .fxb q => s.modQuad q fun r => { r with wcacheF := es }

/-- How many entries a cache holds (R206). -/
def winSize : WinCache → Nat
  | .core _ => 16
  | _ => 64

/-- What an access does with a granule (R204). -/
inductive Perm where
  | read | write | fetch
  deriving DecidableEq, Repr

/-- Whether an entry maps its granule for the access (R204). -/
def entryPermits (e : DWord) (p : Perm) : Bool :=
  bit e 0 && (match p with | .read => bit e 1 | .write => bit e 2 | .fetch => bit e 3)

/-- The Far address of tenant `t`'s table entry for a granule in quadrant `q`'s registers; none at or above `WIN_LEN`
(R203). -/
def State.entryAddr (s : State) (q : Quad) (t : BitVec 4) (g : Nat) : Option Nat :=
  if (s.creg .winLen q.toNat t.toNat).toNat ≤ g then none
  else some ((s.creg .winBaseHi q.toNat t.toNat).toNat * 2 ^ 32 + (s.creg .winBaseLo q.toNat t.toNat).toNat + 8 * g)

/-- A cache reads an entry from Far and keeps it, dropping its oldest entry when full; a poisoned entry is not cached
and is reported (R205, R206). Answers the entry. [DESIGN CHOICE, log 22] -/
def State.walk (s : State) (c : WinCache) (t : BitVec 4) (g : Nat) : Option DWord × State :=
  let q := cacheQuad c
  let s := match c with | .core k => s.bump .memWcmiss k.toNat 0 1 | _ => s
  match s.entryAddr q t g with
  | none => (none, s)
  | some a =>
    let s := s.bump .fxbWalks q.toNat 0 1
    if s.farDead a then (none, s)
    else if s.far.poisoned a 8 then
      (none, s.report (farQuad a)
        { s.mkReport 3 (BitVec.ofNat 12 (farStack a)) 0x02 1 (BitVec.ofNat 64 a) t with poison := true })
    else
      let e : DWord := BitVec.ofNat 64 (s.far.readNat a 8)
      let old := s.winEntries c
      let old := if old.length < winSize c then old else old.drop (old.length + 1 - winSize c)
      (some e, s.setWinEntries c (old ++ [{ tenant := t, granule := BitVec.ofNat 27 g, entry := e }]))

/-- The entry of a granule: from the cache, or read from Far (R206). -/
def State.winLookup (s : State) (c : WinCache) (t : BitVec 4) (g : Nat) : Option DWord × State :=
  match (s.winEntries c).find? fun e => decide (e.tenant = t) && decide (e.granule.toNat = g) with
  | some e => (some e.entry, s)
  | none => s.walk c t g

/-- The Far physical address that an entry gives a window address, where it permits the access (R204). -/
def entryPhys (e : DWord) (wa : Nat) (p : Perm) : Option Nat :=
  if entryPermits e p then some (fld e 26 8 * 2 ^ 21 + wa % 2 ^ 21) else none

/-- Translate a window address through a cache: the Far physical address, or none for a window miss (R203 to R206). -/
def State.translate (s : State) (c : WinCache) (t : BitVec 4) (wa : Nat) (p : Perm) : Option Nat × State :=
  let r := s.winLookup c t (wa / 2 ^ 21)
  (r.1.bind fun e => entryPhys e wa p, r.2)

/-- The location that a Drum address names under `DRUM_PP` (R199). -/
def State.drumAddr (s : State) (sp : Spire) (a : Nat) : Nat :=
  let w := s.creg .drumPp sp.toNat 0
  let b := fld w 6 0 * 65536
  let h := fld w 14 8 * 65536
  if (s.spire sp).phase then
    if b ≤ a ∧ a < b + h then a + h else if b + h ≤ a ∧ a < b + 2 * h then a - h else a
  else a

end Sys2Proof.Machine
end

