-- ==== Sys2Proof/Machine/BelfryOps.lean ====
section
/-! DEFINITION. The Belfry cores: the L2, exception entry and return, the exception registers (R119 to R121, R225). -/

namespace Sys2Proof.Machine

open Sys2Proof

/-! ### The L2 (R225) -/

/-- The line that the L2 holds at a line number. -/
def QuadSt.line? (k : QuadSt) (n : Nat) : Option L2Line := Store.find? k.l2 n

/-- Byte `o` of a line. -/
def L2Line.byte (l : L2Line) (o : Nat) : Byte := l.data.extractLsb' (8 * o) 8

/-- A line with a byte written: it is dirty. -/
def L2Line.write (l : L2Line) (o : Nat) (b : Byte) : L2Line :=
  { l with data := setFld l.data (8 * o + 7) (8 * o) b.toNat, dirty := l.dirty ||| (1#64 <<< o) }

/-- A line of 64 bytes that agrees with Far, poison included. -/
def State.farLine (s : State) (n : Nat) : L2Line :=
  { data := BitVec.ofNat 512 (s.far.readNat (64 * n) 64), dirty := 0,
    bad := BitVec.ofNat 8 ((List.range 8).foldl (fun m w => m + b2n (s.far.poisoned (64 * n + 8 * w) 8) * 2 ^ w) 0) }

/-- Write the dirty bytes of a line that `sel` selects to Far: a full aligned word is one write and leaves Far's word as
good or as poisoned as the line's, other bytes merge (R225, R228). [DEDUCED, log 46] -/
def State.cleanBytes (s : State) (n : Nat) (l : L2Line) (sel : Nat → Bool) : State :=
  let go (o : Nat) : Bool := l.dirty.getLsbD o && sel o
  (List.range 8).foldl (fun s w =>
    let a := 64 * n + 8 * w
    let far :=
      if (List.range 8).all fun k => go (8 * w + k) then s.far.store a ((List.range 8).map fun k => l.byte (8 * w + k))
      else (List.range 8).foldl (fun m k => if go (8 * w + k) then m.store (a + k) [l.byte (8 * w + k)] else m) s.far
    let far := if l.bad.getLsbD w && (List.range 8).any fun k => go (8 * w + k) then far.poisonWord a else far
    { s with far := far }) s

/-- A line leaves the L2, its dirty bytes written back where `sel` selects them. -/
def State.evictLine (s : State) (q : Quad) (n : Nat) (sel : Nat → Bool) : State :=
  match (s.quad q).line? n with
  | none => s
  | some l => (s.cleanBytes n l sel).modQuad q fun k => { k with l2 := Store.del k.l2 n }

/-- A line becomes clean and stays valid (R226). -/
def State.cleanLine (s : State) (q : Quad) (n : Nat) : State :=
  match (s.quad q).line? n with
  | none => s
  | some l => (s.cleanBytes n l fun _ => true).modQuad q fun k => { k with l2 := Store.put k.l2 n { l with dirty := 0 } }

/-- The lines of the set of line `n`: 8,192 sets of 16 ways (R225). -/
def QuadSt.l2Set (k : QuadSt) (n : Nat) : List Nat := (k.l2.map (·.1)).filter fun m => decide (m % 8192 = n % 8192)

/-- A line is held by the L2: it is read from Far where it is not; a full set gives up a line that the spec does not name.
[DESIGN CHOICE, log 46] -/
def State.fillL2 (s : State) (q : Quad) (n : Nat) : State :=
  match (s.quad q).line? n with
  | some _ => s
  | none =>
    let set := (s.quad q).l2Set n
    let s :=
      if set.length < 16 then s
      else
        ({ s with free := s.free + 1 } : State).evictLine q ((set[Config.l2Victim s.free % 16]?).getD 0) fun _ => true
    s.modQuad q fun k => { k with l2 := Store.put k.l2 n (s.farLine n) }

/-- Write bytes through the L1D into the L2: they become dirty bytes of their lines. A word that the write fills, whose
first byte `from_` does not lie beyond, loses its poison (R228). -/
def State.l2Bytes (s : State) (q : Quad) (from_ a : Nat) : List Byte → State
  | [] => s
  | b :: r =>
    let s := (s.fillL2 q (a / 64)).modQuad q fun k =>
      match k.line? (a / 64) with
      | some l =>
        let l := l.write (a % 64) b
        let l := if a % 8 = 7 ∧ from_ + 7 ≤ a then { l with bad := l.bad &&& ~~~ (1#8 <<< (a % 64 / 8)) } else l
        { k with l2 := Store.put k.l2 (a / 64) l }
      | none => k
    s.l2Bytes q from_ (a + 1) r

/-- Write bytes at an address. -/
def State.l2Write (s : State) (q : Quad) (a : Nat) (bs : List Byte) : State := s.l2Bytes q a a bs

/-- A byte as the quadrant's Belfry cores read it: from its line of the L2, else from Far. -/
def State.l2Byte (s : State) (q : Quad) (a : Nat) : Byte :=
  match (s.quad q).line? (a / 64) with
  | some l => l.byte (a % 64)
  | none => s.far.byte a

/-- A little-endian number as the quadrant's Belfry cores read it. -/
def State.l2Read (s : State) (q : Quad) (a n : Nat) : Nat := leNat ((List.range n).map fun k => s.l2Byte q (a + k))

/-- Whether a read of `n` bytes meets a poisoned word. -/
def State.l2Bad (s : State) (q : Quad) (a n : Nat) : Bool :=
  (List.range n).any fun k =>
    match (s.quad q).line? ((a + k) / 64) with
    | some l => l.bad.getLsbD ((a + k) % 64 / 8)
    | none => s.far.poisoned (a + k) 1

/-- The lines that a read of `n` bytes touches are in the L2 after it. -/
def State.l2Touch (s : State) (q : Quad) (a n : Nat) : State :=
  (List.range ((a + n - 1) / 64 + 1 - a / 64)).foldl (fun s k => s.fillL2 q (a / 64 + k)) s

/-- Dirty lines ÷ 64, saturating (R500). -/
def QuadSt.dirtyCount (k : QuadSt) : Nat := min 0xFFFF ((k.l2.filter fun p => p.2.dirty ≠ 0).length / 64)

/-- The physical line of a Belfry core's address: Duboette's is physical, a tenant core's goes through its window
table (R225, R226). -/
def State.belfryPhys (s : State) (b : BCore) (a : Nat) (p : Perm) : Option Nat × State :=
  if b.extractLsb' 0 2 = 0 then (some a, s) else s.translate (.belfry (belQuad b)) (s.bel b).tenant a p

/-! ### Registers -/

/-- A Belfry register of R121. -/
def Belfry.reg (k : Belfry) (n : Nat) : DWord := Store.get 0 k.regs n

/-- Replace it. -/
def Belfry.setReg (k : Belfry) (n : Nat) (v : DWord) : Belfry := { k with regs := Store.set 0 k.regs n v }

/-- A general register of a Belfry core; g31 reads as zero. -/
def Belfry.gr (k : Belfry) (n : Nat) : DWord := if n = 31 then 0 else Store.get 0 k.g n

/-- Write a general register; writes to g31 are discarded. -/
def Belfry.setGr (k : Belfry) (n : Nat) (v : DWord) : Belfry := if n = 31 then k else { k with g := Store.set 0 k.g n v }

/-- The current privilege. -/
def Belfry.priv (k : Belfry) : Priv := Priv.ofCode (k.status.extractLsb' 8 2)

/-! ### Exception entry (R96, R97, R119, R120) -/

/-- The descriptor of a vector in the core's table, invalid where it is poisoned (R96, R228). [DEDUCED, log 46] -/
def State.belfryDesc (s : State) (b : BCore) (v : Nat) : Desc :=
  let a := ((s.bel b).reg 0x80A).toNat + 16 * v
  if s.l2Bad (belQuad b) a 16 then Desc.reset
  else
  { handler := BitVec.ofNat 64 (s.l2Read (belQuad b) a 8), sp := 0,
    ctl := BitVec.ofNat 32 (s.l2Read (belQuad b) (a + 12) 4) }

/-- The L2 after the core has read a vector's descriptor. -/
def State.touchDesc (s : State) (b : BCore) (v : Nat) : State :=
  s.l2Touch (belQuad b) (((s.bel b).reg 0x80A).toNat + 16 * v) 16

/-- A descriptor that R97 calls invalid on a Belfry core. -/
def Desc.invalidBelfry (d : Desc) (v : BitVec 8) : Bool :=
  ! d.ctl.getLsbD 14 || fld d.ctl 13 12 = 0 || fld d.ctl 13 12 = 2 || fld d.handler 1 0 ≠ 0 ||
  ((fixedMachine v || decide (v = 0x09)) && fld d.ctl 13 12 ≠ 3)

/-- A Belfry core halts: `FAULT_N` is driven and a record with the stack address logged, FATAL_DEVICE for
core 0 of Q0 (R120). [DEDUCED, log 46] -/
def State.haltBelfry (s : State) (b : BCore) (at_ : DWord) : State :=
  let s := (s.modBel b fun k => { k with halted := true }).assertFault 1
  s.report (belQuad b) (s.mkReport 6 (b.setWidth 12) 0x29 (if b = 0 then 3 else 2) at_ (s.bel b).tenant)

/-- What a Belfry entry carries: `level` is the level source that it delivers. -/
structure BelEntry where
  vec : BitVec 8
  detail : DWord
  prio : Nat
  ret : DWord
  level : Option (BitVec 10)

/-- Push the 64-byte frame at `sp` and continue in the handler (R119). ATOMIC_N of the descriptor has no effect and
`PROGRESS` is clear in the handler. [DEDUCED, log 46] -/
def State.belfryPush (s : State) (b : BCore) (d : Desc) (e : BelEntry) (sp : DWord) : State :=
  let k := s.bel b
  let cause := ({ vec := e.vec, detail := 0, ret := 0, prio := e.prio, unit := .other, ppriv := k.priv,
                  pie := bit k.status 0, forced := false : Entry }).causeWord
  let frame := leBytes 8 e.ret.toNat ++ leBytes 8 k.status.toNat ++ leBytes 8 cause.toNat ++ leBytes 8 e.detail.toNat ++
    leBytes 8 (k.gr 29).toNat ++ leBytes 8 k.progress.toNat ++ leBytes 16 0
  let s := s.l2Write (belQuad b) sp.toNat frame
  let p := fld d.ctl 13 12
  s.modBel b fun k =>
    { ((((k.setReg 0x801 e.ret).setReg 0x802 (cause.setWidth 64)).setReg 0x803 e.detail).setGr 29 sp) with
        status := setFld (if d.ctl.getLsbD 15 then k.status else k.status &&& ~~~ 1#64) 9 8 p,
        pc := d.handler, progress := 0, block := none, fresh := e.level :: k.fresh }

/-- The stack that an entry at privilege `p` pushes on: its pointer and limit (R119, R120). -/
def Belfry.stackFor (k : Belfry) (p : Nat) : DWord × DWord :=
  let lim := k.reg (if p = 3 then 0x807 else 0x805)
  if p = k.priv.code.toNat then (k.gr 29, lim) else (k.reg (if p = 3 then 0x806 else 0x804), lim)

/-- Enter at Machine on the reserved stack, or halt where that is exhausted too: STACK_LIMIT, or MACHINE_CHECK where
its descriptor is invalid, and a halt where that is (R97, R120). -/
def State.belfryReserve (s : State) (b : BCore) (at_ ret : DWord) : State :=
  let k := s.bel b
  let sp := k.reg 0x808 - 64
  if (k.reg 0x808).toNat < 64 ∨ sp.toNat < (k.reg 0x809).toNat then s.haltBelfry b sp
  else
    let s := s.touchDesc b 0x09
    let d := s.belfryDesc b 0x09
    if ! d.invalidBelfry 0x09 then
      s.belfryPush b d { vec := 0x09, detail := at_, prio := 0, ret := ret, level := none } sp
    else
      let s := s.touchDesc b 0x3F
      let m := s.belfryDesc b 0x3F
      if ! m.invalidBelfry 0x3F then
        s.belfryPush b m { vec := 0x3F, detail := 0x09, prio := 0, ret := ret, level := none } sp
      else s.haltBelfry b sp

/-- Enter a vector whose descriptor is valid. -/
def State.belfryGo (s : State) (b : BCore) (d : Desc) (e : BelEntry) : State :=
  let x := (s.bel b).stackFor (fld d.ctl 13 12)
  let sp := x.1 - 64
  if x.1.toNat < 64 ∨ sp.toNat < x.2.toNat then s.belfryReserve b sp e.ret else s.belfryPush b d e sp

/-- Entry of a Belfry core: an invalid descriptor is delivered as MACHINE_CHECK, and halts the core where that entry is
invalid too (R97, R119). [DEDUCED, log 46] -/
def State.belfryTake (s : State) (b : BCore) (e : BelEntry) : State :=
  if (s.bel b).halted ∨ (s.bel b).held then s
  else
    let s := s.touchDesc b e.vec.toNat
    let d := s.belfryDesc b e.vec.toNat
    if ! d.invalidBelfry e.vec then s.belfryGo b d e
    else
      let s := s.touchDesc b 0x3F
      let m := s.belfryDesc b 0x3F
      if m.invalidBelfry 0x3F then s.haltBelfry b ((s.bel b).gr 29)
      else s.belfryGo b m { e with vec := 0x3F, detail := e.vec.setWidth 64 }

/-- An entry that returns to the core's program counter and delivers no level source. -/
def State.belfryEnter (s : State) (b : BCore) (vec : BitVec 8) (detail : DWord) (prio : Nat) : State :=
  s.belfryTake b { vec := vec, detail := detail, prio := prio, ret := (s.bel b).pc, level := none }

/-! ### The sources of the interrupt controllers (R122) -/

/-- Level sources of a controller: thread lockups, the error hub's, the PDM's and the Clocktower's status, the states of a
port, `WORKER_LOST`, and counter watches (R122, R327, R368, R402, R459, R468). -/
def bicLevel (n : Nat) : Bool :=
  decide (n < 0x10) || (decide (0x40 ≤ n) && decide (n < 0x45)) || decide (n = 0x70) || decide (n = 0x71) || decide (n = 0x73) ||
  decide (n = 0x79) || decide (n = 0x7A) || decide (n = 0x7B) ||
  (decide (0x100 ≤ n) && decide (n < 0x140) && (decide (n % 8 = 0) || decide (n % 8 = 2) || decide (n % 8 = 3))) ||
  decide (n = 0x142) || decide (0x200 ≤ n)

/-- Whether a Spire holds a locked-up thread. -/
def State.spireLocked (s : State) (sp : Spire) : Bool :=
  s.threads.any fun p => decide (p.1 / 128 = sp.toNat) && decide (p.2.status = .lockedUp)

/-- The condition of a level source of a port, which is raised in the port's own quadrant (R402). -/
def State.portCond (s : State) (q : Quad) (n : Nat) : Bool :=
  let p := (n - 0x100) / 8
  let st := s.creg .skbStat p 0
  decide (p / 2 = q.toNat) &&
  (match n % 8 with
   | 0 => ! (decide (fld st 2 0 = 2) || decide (fld st 2 0 = 3))
   | 2 => decide (fld st 2 0 = 4)
   | 3 => bit st 8
   | _ => false)

/-- The condition of a level source. -/
def State.bicCond (s : State) (q : Quad) (n : Nat) : Bool :=
  if n < 0x10 then s.spireLocked (q ++ BitVec.ofNat 4 n)
  else if n < 0x44 then s.hubQueue.any fun h => decide (h.rep.sev.toNat = n - 0x40)
  else if n = 0x44 then bit (s.creg .ehStat 0 0) 16
  else if n = 0x70 then s.doms.any fun p => decide (p.2.st = .failed)
  else if n = 0x71 then bit (s.creg .pwrStatus 0 0) 2
  else if n = 0x73 then bit (s.creg .pwrStatus 0 0) 3
  else if n = 0x79 then bit (s.creg .tickStat 0 0) 2
  else if n = 0x7A then bit (s.creg .tickStat 0 0) 1
  else if n = 0x7B then bit (s.creg .tickStat 0 0) 3
  else if n < 0x140 then s.portCond q n
  else if n = 0x142 then ! s.lostWorkers.isEmpty
  else Store.get false (s.quad q).bicWatch (n - 0x200)

/-- The first instruction of an interrupt's handler judges the level source that was delivered: low, it is spurious (R117,
R122). -/
def State.belfryJudge (s : State) (b : BCore) : State :=
  match (s.bel b).fresh with
  | some n :: rest =>
    let low := ! s.bicCond (belQuad b) n.toNat
    let c := b.toNat % 4
    let s := s.modBel b fun k => { k with fresh := none :: rest }
    if low then
      s.modQuad (belQuad b) fun r => { r with bicSpurMarks := Store.set [] r.bicSpurMarks c (n :: Store.get [] r.bicSpurMarks c) }
    else s
  | _ => s

/-! ### Instructions of a Belfry core -/

/-- A Belfry core executes an instruction: nothing happens while it is held, halted, waiting or without power.
[DESIGN CHOICE, log 103] -/
def State.belfryIssue (s : State) (b : BCore) (f : State → State) : Host.Outcome State Fault Refusal :=
  let k := s.bel b
  .next (if k.halted ∨ k.held ∨ k.block.isSome ∨ ! s.domCarries (64 + (belQuad b).toNat) then s else f (s.belfryJudge b))

/-- The core goes on at the next instruction. -/
def State.belfryNext (s : State) (b : BCore) : State := s.modBel b fun k => { k with pc := k.pc + 4 }

/-- `eret`: the frame at g29 gives back `BF_STATUS`, g29 and `PROGRESS`, and the core goes on at its return address; User
may not execute it, and no frame raises the privilege (R106, R119). [DEDUCED, log 46] -/
def State.belfryEret (s : State) (b : BCore) : State :=
  let k := s.bel b
  let q := belQuad b
  let a := (k.gr 29).toNat
  let s := s.l2Touch q a 64
  let w (o : Nat) : DWord := BitVec.ofNat 64 (s.l2Read q (a + o) 8)
  let status := w 0x08 &&& 0x301
  if k.priv = .user ∨ k.priv.code < (Priv.ofCode (status.extractLsb' 8 2)).code then s.belfryEnter b 0x02 0 0
  else if s.l2Bad q a 64 then s.belfryEnter b 0x05 (BitVec.ofNat 64 a) 0
  else if fld (w 0) 1 0 ≠ 0 then s.belfryEnter b 0x03 0 0
  else
    s.modBel b fun k =>
      { (k.setGr 29 (w 0x20)) with
          status := status, progress := (w 0x28).setWidth 32, pc := w 0, fresh := k.fresh.tail }

/-- `trap #n` (R93, R95). -/
def State.belfryTrap (s : State) (b : BCore) (n : BitVec 7) (low : BitVec 8) : State :=
  if low ≠ 0 then s.belfryEnter b 0x01 0 0
  else s.belfryTake b { vec := 0x80 + n.setWidth 8, detail := 0, prio := 0, ret := (s.bel b).pc + 4, level := none }

/-- What an exception register of R121 reads as. -/
def Belfry.shown (k : Belfry) (n : Nat) : Option DWord :=
  if n = 0x800 then some k.status
  else if n = 0x80B then some (BitVec.ofNat 64 (b2n k.locked))
  else if 0x801 ≤ n ∧ n ≤ 0x80A then some (k.reg n)
  else none

/-- A write of an exception register at privilege `p`: the registers that `BF_LOCK` locks keep their values while it is
set, LOCK is set at Machine alone (R121). -/
def Belfry.written (k : Belfry) (p : Priv) (n : Nat) (v : DWord) : Belfry :=
  if n = 0x800 then { k with status := setFld k.status 0 0 (fld v 0 0) }
  else if n = 0x804 then k.setReg n v
  else if 0x805 ≤ n ∧ n ≤ 0x809 then (if k.locked then k else k.setReg n v)
  else if n = 0x80A then (if k.locked then k else k.setReg n (v &&& 0xFFFFFFFFFFFFF000))
  else if n = 0x80B then (if p = .machine ∧ bit v 0 then { k with locked := true } else k)
  else k

/-- Access to an exception register by number: an unassigned number is illegal, User may not (R80, R121).
[DESIGN CHOICE, log 112] -/
def State.belfryCtl (s : State) (b : BCore) (n : Nat) (f : DWord → State) : State :=
  match (s.bel b).shown n with
  | none => s.belfryEnter b 0x01 0 0
  | some v => if (s.bel b).priv = .user then s.belfryEnter b 0x02 0 0 else f v

/-- `ctlr` of a Belfry core (R80, R121). -/
def State.belfryReadReg (s : State) (b : BCore) (g : Reg) (n : Nat) : Host.Outcome State Fault Refusal :=
  s.belfryIssue b fun s => s.belfryCtl b n fun v => (s.modBel b fun k => k.setGr g.toNat v).belfryNext b

/-- `ctlw`, `ctls` and `ctlc` of a Belfry core: `new` computes the value from the register and g (R80, R121). -/
def State.belfryWriteReg (s : State) (b : BCore) (g : Reg) (n : Nat) (new : DWord → DWord → DWord) :
    Host.Outcome State Fault Refusal :=
  s.belfryIssue b fun s => s.belfryCtl b n fun v =>
    (s.modBel b fun k => k.written k.priv n (new v (k.gr g.toNat))).belfryNext b

end Sys2Proof.Machine
end

