-- ==== Sys2Proof/Machine/Descriptor.lean ====
section
/-! DEFINITION. The stream descriptor's fields and the Local ranges that a core tracks (R213, R214, R285 to R288). -/

namespace Sys2Proof.Machine

open Sys2Proof

/-- A 64-byte stream descriptor (R285). -/
abbrev SDesc := BitVec 512

/-- SRC, the source address word. -/
def dSrc (d : SDesc) : DWord := d.extractLsb' 0 64
/-- DST, the destination address word. -/
def dDst (d : SDesc) : DWord := d.extractLsb' 64 64
/-- XLEN, source bytes per row. -/
def dXlen (d : SDesc) : Nat := fld d 151 128
/-- Rows per plane. -/
def dRows (d : SDesc) : Nat := fld d 163 152 + 1
/-- Planes. -/
def dPlanes (d : SDesc) : Nat := fld d 175 164 + 1
/-- SYS, the signed source row stride. -/
def dSys (d : SDesc) : Int := (d.extractLsb' 192 32).toInt
/-- SZS, the signed source plane stride. -/
def dSzs (d : SDesc) : Int := (d.extractLsb' 224 32).toInt
/-- DYS, the signed destination row stride. -/
def dDys (d : SDesc) : Int := (d.extractLsb' 256 32).toInt
/-- DZS, the signed destination plane stride. -/
def dDzs (d : SDesc) : Int := (d.extractLsb' 288 32).toInt
/-- GADDR, the list's address. -/
def dGaddr (d : SDesc) : Nat := fld d 367 320
/-- GSPACE, the list's space. -/
def dGspace (d : SDesc) : Nat := fld d 369 368
/-- GEN: a list is in use. -/
def dGen (d : SDesc) : Bool := bit d 370
/-- GSIDE: the list indexes the destination. -/
def dGside (d : SDesc) : Bool := bit d 371
/-- CSRC, the conversion's source format. -/
def dCsrc (d : SDesc) : Nat := fld d 387 384
/-- CDST, the conversion's destination format. -/
def dCdst (d : SDesc) : Nat := fld d 391 388
/-- SAT. -/
def dSat (d : SDesc) : Bool := bit d 392
/-- CONV. -/
def dConv (d : SDesc) : Bool := bit d 393
/-- SCALE, the E8M0 scale. -/
def dScale (d : SDesc) : Nat := fld d 401 394
/-- CLASS: a SCHED stream. -/
def dSched (d : SDesc) : Bool := bit d 402
/-- PCHAN. -/
def dPchan (d : SDesc) : Nat := fld d 405 403
/-- SDIR: inbound. -/
def dInbound (d : SDesc) : Bool := bit d 406
/-- CTR, the completion counter. -/
def dCtr (d : SDesc) : BitVec 16 := d.extractLsb' 408 16
/-- INC, the increment at completion. -/
def dInc (d : SDesc) : Nat := fld d 439 424
/-- EPOCH. -/
def dEpoch (d : SDesc) : Byte := d.extractLsb' 448 8
/-- TENANT. -/
def dTenant (d : SDesc) : BitVec 4 := d.extractLsb' 456 4
/-- PHYS. -/
def dPhys (d : SDesc) : Bool := bit d 460
/-- NOTE. -/
def dNote (d : SDesc) : Bool := bit d 461
/-- TMOV. -/
def dTmov (d : SDesc) : Nat := fld d 474 464
/-- TMOU: milliseconds. -/
def dTmou (d : SDesc) : Bool := bit d 475
/-- Whether a reserved bit of the descriptor is set. -/
def dReserved (d : SDesc) : Bool :=
  fld d 191 176 ≠ 0 || fld d 383 372 ≠ 0 || bit d 407 || fld d 447 440 ≠ 0 || fld d 463 462 ≠ 0 || fld d 511 476 ≠ 0

/-- SPACE of an address word (R286). -/
def aSpace (a : DWord) : Nat := fld a 49 48
/-- NODE of an address word. -/
def aNode (a : DWord) : Nat := fld a 60 50
/-- ADDR of an address word. -/
def aAddr (a : DWord) : Nat := fld a 47 0

/-- The width in bits of one element of a format code (R138); none for the unassigned code. -/
def fmtWidth (code : Nat) : Option Nat :=
  match code with
  | 0 => some 64 | 1 => some 32 | 2 => some 16 | 3 => some 16 | 4 => some 32 | 5 => some 16 | 6 => some 8 | 7 => some 64
  | 8 => some 8 | 9 => some 8 | 10 => some 6 | 11 => some 6 | 12 => some 4 | 13 => some 4 | 14 => some 8 | _ => none

/-- Destination bytes of a row: XLEN, or the converted length (R287). -/
def dDstLen (d : SDesc) : Nat :=
  if dConv d then
    match fmtWidth (dCsrc d), fmtWidth (dCdst d) with
    | some ws, some wd => dXlen d * 8 / ws * wd / 8
    | _, _ => 0
  else dXlen d

/-- The first byte of row (y, z) on a side without a list (R287). -/
def rowAt (addr : Nat) (sy sz : Int) (y z : Nat) : Int := addr + y * sy + z * sz

/-- The lowest byte and one past the highest byte of a side without a list over every row and plane (R288). -/
def sideExtent (d : SDesc) (addr : Nat) (sy sz : Int) (len : Nat) : Int × Int :=
  let my : Int := (dRows d - 1 : Nat) * sy
  let mz : Int := (dPlanes d - 1 : Nat) * sz
  (addr + min 0 my + min 0 mz, addr + max 0 my + max 0 mz + len)

/-- The extent of the source side. -/
def srcExtent (d : SDesc) : Int × Int := sideExtent d (aAddr (dSrc d)) (dSys d) (dSzs d) (dXlen d)

/-- The extent of the destination side. -/
def dstExtent (d : SDesc) : Int × Int := sideExtent d (aAddr (dDst d)) (dDys d) (dDzs d) (dDstLen d)

/-- A tracked Local range: its lowest byte, one past its highest, and whether it is written (R213). -/
structure LRange where
  lo : Int
  hi : Int
  writes : Bool
  deriving DecidableEq, Repr

/-- Whether a range meets `n` bytes at `a` with at least one of the two writing (R214). -/
def LRange.clash (r : LRange) (lo hi : Int) (writes : Bool) : Bool :=
  decide (r.lo < hi) && decide (lo < r.hi) && (r.writes || writes)

/-- Whether a side lies in core `c`'s Local. -/
def sideLocal (c : CoreId) (a : DWord) : Bool := decide (aSpace a = 0) && decide (aNode a = c.toNat)

/-- Whether a stream reads its source in core `c`'s Local. -/
def srcLocal (c : CoreId) (d : SDesc) : Bool := sideLocal c (dSrc d) && ! (dSched d && dInbound d)

/-- Whether a stream writes its destination in core `c`'s Local. -/
def dstLocal (c : CoreId) (d : SDesc) : Bool := sideLocal c (dDst d) && ! (dSched d && ! dInbound d)

/-- Whether a stream reads its index list in its core's Local. -/
def listLocal (d : SDesc) : Bool := dGen d && decide (dGspace d = 0)

/-- The smallest interval that contains ranges. -/
def hull : List LRange → List LRange
  | [] => []
  | r :: rs => [rs.foldl (fun a b => ⟨min a.lo b.lo, max a.hi b.hi, a.writes || b.writes⟩) r]

/-- The tracked range of a stream in core `c`'s Local: one interval, none where it has no Local side (R213, R334). -/
def streamRanges (c : CoreId) (d : SDesc) : List LRange :=
  let src : List LRange :=
    if ! srcLocal c d then []
    else if dGen d && ! dGside d then [⟨aAddr (dSrc d), 0xC0000, false⟩]
    else [⟨(srcExtent d).1, (srcExtent d).2, false⟩]
  let dst : List LRange :=
    if ! dstLocal c d then []
    else if dGen d && dGside d then [⟨aAddr (dDst d), 0xC0000, true⟩]
    else [⟨(dstExtent d).1, (dstExtent d).2, true⟩]
  let lst : List LRange :=
    if listLocal d then [⟨dGaddr d, dGaddr d + 4 * dRows d * dPlanes d, false⟩] else []
  hull (src ++ dst ++ lst)

/-- Rows of a stream. -/
def Stream.rows (st : Stream) : Nat := dRows st.desc * dPlanes st.desc

/-- Whether a stream runs. -/
def Stream.running (st : Stream) : Bool := decide (st.state = 1)

/-- Whether a stream has Local accesses in its core still to perform: list entries or rows to read, rows to write (R213). -/
def Stream.localBusy (st : Stream) (c : CoreId) : Bool :=
  let d := st.desc
  let going := decide (st.fault = 0)
  st.running &&
  ((listLocal d && going && decide (st.list.length < st.rows)) ||
   (srcLocal c d && going && decide (st.acked.length + st.pending.length < st.rows)) ||
   (dstLocal c d && (if dSched d then going else if going then decide (st.acked.length < st.rows) else ! st.pending.isEmpty)))

/-- The Local range of an `mload`, `mstore` or `mvm` (R172): its rows at a base and stride. -/
def rowsRange (base stride rows len : Nat) (writes : Bool) : LRange :=
  ⟨base, base + (rows - 1) * stride + len, writes⟩

/-- Rows that `mstore` copies: 16 in the FP64 view, else 32 (R166, R174). -/
def mstoreRows (conv : Word) (cv : Bool) : Nat := if cv ∧ fld conv 7 4 = 0 then 16 else 32

/-- Source bits of one row that `mstore` reads: 64 bytes of a tile, 128 of an accumulator, 256 of an FP64 row or of a
pair of accumulators (R174). -/
def mstoreBits (source : BitVec 5) (conv : Word) (cv : Bool) : Nat :=
  if source.toNat < 16 then 512 else if cv ∧ (fld conv 7 4 = 0 ∨ fld conv 7 4 = 7) then 2048 else 1024

/-- Bytes of one row that `mstore` writes (R174). -/
def mstoreRow (source : BitVec 5) (conv : Word) (cv : Bool) : Nat :=
  if cv then
    match fmtWidth (fld conv 7 4), fmtWidth (fld conv 3 0) with
    | some ws, some wd => mstoreBits source conv cv / ws * wd / 8
    | _, _ => 0
  else mstoreBits source conv cv / 8

/-- Bytes of one element of M (R170, R189). -/
def mvmWidth (fmt : BitVec 4) : Nat := if fmt = 11 then 8 else if fmt.toNat ≤ 1 then 2 else 1

/-- The tracked ranges of a queued unit instruction. -/
def UnitIns.ranges : UnitIns → List LRange
  | .mload target base stride _ =>
    [rowsRange base.toNat stride.toNat 32 (if 16 ≤ target.toNat then 128 else 64) false]
  | .mstore source base stride conv cv =>
    [rowsRange base.toNat stride.toNat (mstoreRows conv cv) (mstoreRow source conv cv) true]
  | .mvm _ _ base rows fmt _ =>
    [rowsRange (fld base 19 0) (fld base 63 48) (fld rows 19 10 + 1) (fld base 47 32 * mvmWidth fmt) false]
  | _ => []

/-- The Local ranges that a thread's streams and matrix copies issued before number `seq` still hold (R213). -/
def State.trackedBefore (s : State) (t : Tid) (seq : Nat) : List LRange :=
  let k := s.core t.core
  let st := k.slots.filter fun e => e.2.localBusy t.core && decide (e.2.owner = t) && decide (e.2.seq < seq)
  let us := (s.queuedOf t).filter fun u => decide (u.seq < seq)
  st.flatMap (fun e => streamRanges t.core e.2.desc) ++ us.flatMap fun u => u.ins.ranges

/-- The Local ranges that a thread's earlier streams and matrix copies still hold (R213). -/
def State.tracked (s : State) (t : Tid) : List LRange := s.trackedBefore t (s.core t.core).nextSeq

/-- Whether a Local access of `n` bytes at `a` must wait for an earlier stream or matrix copy of its thread (R214). -/
def State.mustWait (s : State) (t : Tid) (a n : Nat) (writes : Bool) : Bool :=
  (s.tracked t).any fun r => r.clash a (a + n : Nat) writes

/-- What a Local access of a thread meets: it must wait for an earlier operation, it raises a cause, or it goes on.
Alignment and range come first; poison is judged once the earlier operations are done (R49, R214, R228). -/
inductive LocalGate where
  | wait
  | exc (cause : BitVec 8)
  | go
  deriving DecidableEq, Repr

/-- Judge a Local access of `n` bytes at `a` with alignment `al`. -/
def State.localGate (s : State) (t : Tid) (a n al : Nat) (reads writes : Bool) : LocalGate :=
  let m := (s.core t.core).mem
  match localFault m a n al false with
  | some c => .exc c
  | none => if s.mustWait t a n writes then .wait else if reads ∧ m.poisoned a n then .exc 0x05 else .go

/-- Count a cycle stalled by range tracking (R212). -/
def State.rtWait (s : State) (t : Tid) : State := s.bump .memRtwait t.core.toNat 0 1

end Sys2Proof.Machine
end

