-- ==== Sys2Proof/Machine/ChannelOps.lean ====
section
/-! DEFINITION. The two ends of a channel (R82 to R86, R278 to R282). -/

namespace Sys2Proof.Machine

open Sys2Proof

/-- The thread of an endpoint ID (R17). -/
def epThread (ep : BitVec 15) : Tid := { core := ep.extractLsb' 4 11, thread := ep.extractLsb' 2 2 }

/-- The endpoint number of an endpoint ID. -/
def epIndex (ep : BitVec 15) : BitVec 2 := ep.extractLsb' 0 2

/-- The endpoint ID of endpoint `n` of a thread. -/
def epId (t : Tid) (n : BitVec 2) : BitVec 15 := t.core ++ (t.thread ++ n)

/-- An opener slot of an endpoint. -/
def Endpoint.opener (e : Endpoint) (k : Nat) : Opener := Store.get .free e.openers k

/-- Replace an opener slot. -/
def Endpoint.setOpener (e : Endpoint) (k : Nat) (o : Opener) : Endpoint :=
  { e with openers := Store.set .free e.openers k o }

/-- The credit share of slot `k` that `EPCFG` grants: 8 words, or SHk (R83). -/
def Endpoint.share (e : Endpoint) (k : Nat) : Nat := if bit e.cfg 1 then fld e.cfg (13 + 6 * k) (8 + 6 * k) else 8

/-- The words granted to open openers. -/
def Endpoint.granted (e : Endpoint) : Nat :=
  e.openers.foldl (fun n p => match p.2 with | .opened _ _ sh => n + sh | _ => n) 0

/-- A closing slot is free again once its notice is acknowledged and its last word is popped (R280). -/
def Endpoint.settleSlot (e : Endpoint) (k : Nat) : Endpoint :=
  match e.opener k with
  | .closing true => if e.queue.any fun w => w.slot = k then e else e.setOpener k .free
  | _ => e

/-- Channel status in `SSTAT` and V (R82). -/
def Thread.chanStatus (th : Thread) (code : BitVec 4) (h : BitVec 3) : Thread :=
  let th := th.modCtl fun c => { c with ssCode := code, ssHandle := h }
  th.setBank { th.bank with v := decide (code ≠ 0) }

/-- COUNT of a `PROGRESS` record of kind `k`, or 0 when there is none (R112). -/
def Thread.progressOf (th : Thread) (k : Nat) : Nat :=
  let p := th.ctl.progress
  if bit p 31 ∧ fld p 26 24 = k then fld p 15 0 else 0

/-- Clear the `PROGRESS` register (R104, R114, R522). -/
def Thread.clearProgress (th : Thread) : Thread := th.modCtl fun c => { c with progress := 0 }

/-- The instruction completes or starts over: the record's VALID clears (R112). -/
def Thread.endProgress (th : Thread) : Thread := th.modCtl fun c => { c with progress := c.progress &&& 0x7FFFFFFF }

/-- The lowest closed send handle. -/
def Thread.freeHandle (th : Thread) : Option (BitVec 3) :=
  ((List.range 8).map (BitVec.ofNat 3)).find? fun h => ! (th.handle h).opened

/-- A message takes the credit for all its words; what an earlier message on the handle was given up with comes back
(R84). [DESIGN CHOICE, log 44] -/
def State.claimCredit (s : State) (t : Tid) (h : BitVec 3) (words : List DWord) : State :=
  s.modThread t fun th =>
    let x := th.handle h
    th.setHandle h { x with credit := x.credit + x.hold - words.length, part := [], hold := words.length }

/-- The last word of a message has entered the mesh: the handle waits for its answer, the status is OK (R84). -/
def State.inject (s : State) (t : Tid) (h : BitVec 3) (words : List DWord) : State :=
  let x := (s.thread t).handle h
  let s := s.modThread t fun th =>
    { th.setHandle h { x with unacked := x.unacked + 1, part := [], hold := 0 } with posted := th.posted + 1 }
  let s := s.modThread t fun th => th.endProgress.chanStatus 0 h
  s.send t.core (epThread x.ep).core false true (s.thread t).tenant (.message t h x.ep x.slot x.epoch words [])

/-- A `send` judged: the status it returns at once, or nothing while it waits for credit; an answer that the handle holds
comes before its being closed (R82, R84, R86). -/
def Thread.sendVerdict (th : Thread) (h : BitVec 3) (total : Nat) : Option (BitVec 4) :=
  let x := th.handle h
  if x.status ≠ 0 then some x.status
  else if ! x.opened then some 4
  else if x.share < total then some 7
  else none

/-- Report a handle's held answer and forget it (R86, R525); `fence.d` still tells of it (R75). -/
def Thread.reportHandle (th : Thread) (code : BitVec 4) (h : BitVec 3) : Thread :=
  (th.setHandle h { th.handle h with status := 0 }).chanStatus code h

/-- A credit returns to an opener: with the others that were popped within 4 cc in one packet (R279). -/
def State.returnCredit (s : State) (t o : Tid) (h : BitVec 3) : State :=
  let mine (p : Packet) : Bool := decide (p.src = t.core) && decide (p.pos = t.core) && decide (s.now < p.since) &&
    (match p.body with | .credit a g _ => decide (a = o) && decide (g = h) | _ => false)
  match s.flight.find? mine with
  | some p =>
    { s with
        flight := s.flight.map fun x =>
          if x.id = p.id then { x with body := match x.body with | .credit a g n => .credit a g (n + 1) | b => b } else x }
  | none => s.sendIn 4 t.core o.core true false (s.thread t).tenant (.credit o h 1)

/-- Pop the first word of an endpoint: its credit returns to an opener that is still open (R279, R280).
[DEDUCED, log 18] -/
def State.popWord (s : State) (t : Tid) (n : BitVec 2) : State :=
  let e := (s.thread t).ep n
  match e.queue with
  | [] => s
  | w :: r =>
    let e' := ({ e with queue := r }).settleSlot w.slot
    let s := s.modThread t fun th => th.setEp n e'
    match e.opener w.slot with
    | .opened o h _ => s.returnCredit t o h
    | _ => s

/-- A successful `recv`: the pair, C for the last word, Z cleared (R85). -/
def State.recvWord (s : State) (t : Tid) (d : Reg) (n : BitVec 2) : State :=
  match ((s.thread t).ep n).queue with
  | [] => s
  | w :: _ =>
    (s.popWord t n).modThread t fun th =>
      let th := th.setPair d w.word
      th.setBank { th.bank with c := w.last, z := false }

/-- Pop `k` words one after the other. -/
def State.popWords (s : State) (t : Tid) (n : BitVec 2) : Nat → State
  | 0 => s
  | k + 1 => (s.popWord t n).popWords t n k

/-- Lanes 0 to 7 from eight words (R85). -/
def lanes8 (ws : List DWord) : VReg := BitVec.ofNat 512 (ws.foldr (fun w n => n * 2 ^ 64 + w.toNat) 0)

/-- A successful `recvv`. -/
def State.recvVec (s : State) (t : Tid) (d : Reg) (n : BitVec 2) : State :=
  let ws := (((s.thread t).ep n).queue.take 8).map (·.word)
  (s.popWords t n 8).modThread t fun th => th.setV d (lanes8 ws)

/-- Close every opener of an endpoint and send each its notice (R86, R280). -/
def State.closeOpeners (s : State) (t : Tid) (n : BitVec 2) : Nat → State
  | 0 => s
  | k + 1 =>
    let s := s.closeOpeners t n k
    let e := (s.thread t).ep n
    match e.opener k with
    | .opened o h _ =>
      let s := s.modThread t fun th => th.setEp n (e.setOpener k (.closing false))
      s.send t.core o.core true false (s.thread t).tenant (.closeNotice o h (epId t n) k)
    | _ => s

/-- A write of `EPCFGn`: clearing EN closes every opener (R44, R86). -/
def State.writeEpcfg (s : State) (t : Tid) (n : BitVec 2) (v : Word) : State :=
  let old := ((s.thread t).ep n).cfg
  let s := s.modThread t fun th => th.setEp n { th.ep n with cfg := v &&& 0xFFFFFF03 }
  if bit old 0 ∧ ! bit v 0 then s.closeOpeners t n 4 else s

/-- An opener's slot is released: free at once, or after its last word has been popped (R86, R280). -/
def State.freeOpener (s : State) (t : Tid) (h : BitVec 3) (ep : BitVec 15) (slot : Nat) : State :=
  let e := epThread ep
  let k := epIndex ep
  match ((s.thread e).ep k).opener slot with
  | .opened o g _ =>
    if o = t ∧ g = h then
      s.modThread e fun th => th.setEp k (((th.ep k).setOpener slot (.closing true)).settleSlot slot)
    else s
  | _ => s

/-- A `PROGRESS` record (R112). -/
def progressWord (count kind : Nat) : Word := BitVec.ofNat 32 (count % 2 ^ 16 + kind * 2 ^ 24 + 2 ^ 31)

end Sys2Proof.Machine
end

