-- ==== Sys2Proof/Machine/ThreadRegs.lean ====
section
/-! DEFINITION. The thread and core control registers 0x000 to 0x1FF (R41 to R44) and what a write of each does. -/

namespace Sys2Proof.Machine

open Sys2Proof

/-- The privileges of R42: who may read a register and, where it can be written, who may write it; none for an
unassigned number. -/
def tregPriv (n : Nat) : Option (Priv × Option Priv) :=
  if n ≤ 0x002 then some (.user, some .user)
  else if n = 0x003 then some (.user, none)
  else if n ≤ 0x006 then some (.user, some .user)
  else if n = 0x008 then some (.user, some .user)
  else if n = 0x009 then some (.user, none)
  else if n = 0x00A ∨ n = 0x00B then some (.user, some .supervisor)
  else if n = 0x00C ∨ n = 0x00D then some (.supervisor, some .supervisor)
  else if n = 0x00E ∨ n = 0x00F then some (.user, none)
  else if (0x010 ≤ n ∧ n ≤ 0x012) ∨ (0x014 ≤ n ∧ n ≤ 0x016) ∨ (0x018 ≤ n ∧ n ≤ 0x01B) then some (.user, some .user)
  else if 0x020 ≤ n ∧ n ≤ 0x023 then some (.user, some .user)
  else if 0x100 ≤ n ∧ n ≤ 0x102 then some (.user, none)
  else if n = 0x103 ∨ n = 0x104 then some (.supervisor, some .supervisor)
  else if 0x105 ≤ n ∧ n ≤ 0x10A then some (.user, none)
  else none

/-- The cycles since the core's Spire left reset (R43). -/
def State.cyc (s : State) (c : CoreId) : Nat :=
  let sp := s.spire (spireOf c)
  match sp.cycHeld with
  | some n => n
  | none => s.now - sp.cycBase

/-- `TSTAT` (R44). -/
def Thread.tstat (th : Thread) : Word :=
  let b := th.bank
  BitVec.ofNat 32 (b2n b.v + 2 * b2n b.c + 4 * b2n b.z + 8 * b2n b.n + 16 * b2n b.p0 + 32 * b2n b.p1 +
    th.priv.code.toNat * 2 ^ 8 + b2n th.inShadow * 2 ^ 10)

/-- `SSTAT` (R44). -/
def Thread.sstat (th : Thread) : Word :=
  BitVec.ofNat 32 (th.ctl.ssCode.toNat + th.ctl.ssHandle.toNat * 2 ^ 4 +
    (List.range 8).foldl (fun n h => n + b2n (th.handle (BitVec.ofNat 3 h)).opened * 2 ^ (8 + h)) 0)

/-- `TILE_ALLOC`, `TILE_OWN` and `ACC_OWN` (R44). -/
def TileFile.alloc (f : TileFile) : Word :=
  BitVec.ofNat 32 (
    (List.range 16).foldl (fun n k => n + b2n (Store.get TileSt.reset f.tiles k).owner.isSome * 2 ^ k) 0 +
    (List.range 8).foldl (fun n k => n + b2n (Store.get TileSt.reset f.accs k).owner.isSome * 2 ^ (16 + k)) 0)

/-- The owner fields of `count` tiles. -/
def ownWord (st : Store TileSt) (count : Nat) : Word :=
  BitVec.ofNat 32 ((List.range count).foldl (fun n k =>
    n + ((Store.get TileSt.reset st k).owner.getD 0).toNat * 2 ^ (2 * k)) 0)

/-- `UNITQ` (R44). -/
def Core.unitq (k : Core) : Word :=
  BitVec.ofNat 32 (k.queueV.length + k.queueM.length * 2 ^ 4 + k.queueMV.length * 2 ^ 8)

/-- Read control register `n` of thread `t` (or of its core) for reader `r`: the value, and the state with a read-clear
register cleared and a latched high word taken (R12, R42, R43). -/
def State.readTreg (s : State) (t r : Tid) (n : Nat) : Word × State :=
  let th := s.thread t
  let c := th.ctl
  let b := th.bank
  let k := s.core t.core
  if n = 0x000 then (th.tstat, s)
  else if n = 0x001 then (BitVec.ofNat 32 (c.rmode.toNat + c.mpass.toNat * 16), s)
  else if n = 0x002 then (c.fpstat.setWidth 32, s)
  else if n = 0x003 then (c.amax, s.modThread t fun th => th.modCtl fun c => { c with amax := 0 })
  else if n = 0x004 then (c.cmp.setWidth 32, s)
  else if n = 0x005 then (c.cmp.extractLsb' 32 32, s)
  else if n = 0x006 then (c.wakeMask, s)
  else if n = 0x008 then (c.sendTimeout, s)
  else if n = 0x009 then (th.sstat, s)
  else if n = 0x00A then (c.tentry, s)
  else if n = 0x00B then (BitVec.ofNat 32 (b2n c.boundNext + 2 * b2n c.cmpen), s)
  else if n = 0x00C then (c.codeBase.setWidth 32, s)
  else if n = 0x00D then (c.progress, s)
  else if n = 0x00E then (c.issued, s.modThread t fun th => th.modCtl fun c => { c with issued := 0 })
  else if n = 0x00F then (c.stalled, s.modThread t fun th => th.modCtl fun c => { c with stalled := 0 })
  else if n ≤ 0x012 then ((b.loop (n - 0x010)).ls, s)
  else if n ≤ 0x016 then ((b.loop (n - 0x014)).le, s)
  else if n ≤ 0x01A then ((b.loop (n - 0x018)).lc, s)
  else if n = 0x01B then (b.depth.setWidth 32, s)
  else if n ≤ 0x023 then ((th.ep (BitVec.ofNat 2 n)).cfg, s)
  else if n = 0x100 then
    (BitVec.ofNat 32 (s.cyc t.core),
      s.modThread r fun th => th.modCtl fun c => { c with cycHi := some (BitVec.ofNat 32 (s.cyc t.core / 2 ^ 32)) })
  else if n = 0x101 then
    match (s.thread r).ctl.cycHi with
    | some x => (x, s.modThread r fun th => th.modCtl fun c => { c with cycHi := none })
    | none => (BitVec.ofNat 32 (s.cyc t.core / 2 ^ 32), s)
  else if n = 0x102 then (BitVec.ofNat 32 (r.core.toNat + r.thread.toNat * 2 ^ 11), s)
  else if n = 0x103 then
    (BitVec.ofNat 32 ((List.range 4).foldl (fun m j =>
      m + b2n (s.thread { core := t.core, thread := BitVec.ofNat 2 j }).enabled * 2 ^ j) 0), s)
  else if n = 0x104 then (k.icache.lock.setWidth 32, s)
  else if n = 0x105 then (k.icmiss, s.modCore t.core fun k => { k with icmiss := 0 })
  else if n = 0x106 then (k.freeze, s.modCore t.core fun k => { k with freeze := 0 })
  else if n = 0x107 then (k.tile.alloc, s)
  else if n = 0x108 then (ownWord k.tile.tiles 16, s)
  else if n = 0x109 then (ownWord k.tile.accs 8, s)
  else if n = 0x10A then (k.unitq, s)
  else (0, s)

/-! ### Enabling and disabling threads (R37, R114, R522) -/

/-- A thread is disabled, its loads having completed: its rank mask clears, and whatever it waited for is given up
(R37, R317). -/
def Thread.disable (th : Thread) : Thread :=
  { th with status := .disabled, enabled := false, rankMask := 0, doneTick := false }

/-- ZN2 compatibility mode for a tenant: the device's strap, or its partition's bit (R9, R123). -/
def State.legacyOf (s : State) (tenant : BitVec 4) : Bool := bit s.power.straps 4 || bit (s.creg .partCfg tenant.toNat 0) 2

/-- The entry that Duboette loads for a Machine cause: valid, at Machine, with an aligned handler and stack (R96, R99).
[DESIGN CHOICE, log 111] -/
def machineDesc (v : BitVec 8) : Desc :=
  let e := Config.machineEntry v
  { handler := (e.extractLsb' 2 30 ++ 0#2 : BitVec 32).setWidth 64, sp := e.extractLsb' 67 29 ++ 0#3,
    ctl := ((e.extractLsb' 96 32 : Word) &&& 0x8FFF) ||| 0x7000 }

/-- What a Lantern takes at its thread's enable: the mode, which a change of the partition's applies from (R123), and the
Machine copies, which Duboette loads (R99). [DESIGN CHOICE, log 111] -/
def Lantern.enable (l : Lantern) (legacy : Bool) : Lantern :=
  { l with legacy := legacy,
           copies := [0x38, 0x3A, 0x3B, 0x3F].foldl (fun st v =>
             Store.set Desc.reset st v (machineDesc (BitVec.ofNat 8 v))) l.copies }

/-- A thread is enabled by software: it first issues at `TENTRY` at the next edge (R522). -/
def State.enableThread (s : State) (t : Tid) : State :=
  s.modThread t fun th =>
    if th.status = .lockedUp then { th with enabled := true }
    else if th.enabled then th
    else { th with status := .armed, enabled := true, doneTick := false,
                   ltn := th.ltn.enable (s.legacyOf th.tenant) }

/-- Software clears a thread's enable bit; a locked-up thread stays locked up (R37, R114). -/
def State.disableThread (s : State) (t : Tid) : State :=
  s.modThread t fun th =>
    if th.status = .lockedUp then { th with enabled := false } else (s.landAll t).disable

/-- A write of `THREAD_EN` (R44, R522). -/
def State.writeThreadEn (s : State) (c : CoreId) (v : Word) : Nat → State
  | 0 => s
  | k + 1 =>
    let s := s.writeThreadEn c v k
    let t : Tid := { core := c, thread := BitVec.ofNat 2 k }
    if bit v k then s.enableThread t else s.disableThread t

/-- A write of `TCFG`: BOUND from the next edge, CMPEN at once (R44). -/
def Thread.writeTcfg (th : Thread) (v : Word) : Thread :=
  th.modCtl fun c => { c with boundNext := bit v 0, cmpen := bit v 1 }

/-- The threads of a core that stall for a miss fetch again (R87). -/
def State.refetch (s : State) (c : CoreId) : State :=
  (List.range 4).foldl (fun s j =>
    s.modThread { core := c, thread := BitVec.ofNat 2 j } fun th =>
      if th.status = .blocked .fetch then { th with status := .running } else th) s

/-- A write of `ICCTL`: INV drops every line and the fill in progress and clears LOCK; a LOCK of all four ways leaves the
field (R44, R88). -/
def Core.writeIcctl (k : Core) (v : Word) : Core :=
  if bit v 8 then { k with icache := { lines := [], lock := 0, next := [] }, miss := none }
  else if v.setWidth 4 = (0xF : BitVec 4) then k
  else { k with icache := { k.icache with lock := v.setWidth 4 } }

/-- Write control register `n` of thread `t`, or of its core; `clr` tells `ctlc` where a W1C field takes the value as a
write of it (R42 to R44, R80). -/
def State.writeTreg (s : State) (t : Tid) (n : Nat) (v : Word) : State :=
  if n = 0x103 then s.writeThreadEn t.core v 4
  else if n = 0x104 then
    let s := s.modCore t.core fun k => k.writeIcctl v
    if bit v 8 then s.refetch t.core else s
  else if 0x020 ≤ n ∧ n ≤ 0x023 then s.writeEpcfg t (BitVec.ofNat 2 n) v
  else s.modThread t fun th =>
    let b := th.bank
    if n = 0x000 then
      th.setBank { b with v := bit v 0, c := bit v 1, z := bit v 2, n := bit v 3, p0 := bit v 4, p1 := bit v 5 }
    else if n = 0x001 then
      th.modCtl fun c => { c with
        rmode := if fld v 2 0 ≤ 4 then v.setWidth 3 else c.rmode,
        mpass := if fld v 5 4 = 0 then c.mpass else v.extractLsb' 4 2 }
    else if n = 0x002 then th.modCtl fun c => { c with fpstat := c.fpstat &&& ~~~ (v.setWidth 5) }
    else if n = 0x004 then th.modCtl fun c => { c with cmpLoHeld := v }
    else if n = 0x005 then th.modCtl fun c => { c with cmp := v ++ c.cmpLoHeld }
    else if n = 0x006 then th.modCtl fun c => { c with wakeMask := v }
    else if n = 0x008 then th.modCtl fun c => { c with sendTimeout := v }
    else if n = 0x00A then th.modCtl fun c => { c with tentry := v &&& 0xFFFFFFFC }
    else if n = 0x00B then th.writeTcfg v
    else if n = 0x00C then th.modCtl fun c => { c with codeBase := v.setWidth 27 }
    else if n = 0x00D then th.modCtl fun c => { c with progress := v &&& 0x8700FFFF }
    else if 0x010 ≤ n ∧ n ≤ 0x012 then
      th.setBank (b.setLoop (n - 0x010) { b.loop (n - 0x010) with ls := v &&& 0xFFFFFFFC })
    else if 0x014 ≤ n ∧ n ≤ 0x016 then
      th.setBank (b.setLoop (n - 0x014) { b.loop (n - 0x014) with le := v &&& 0xFFFFFFFC })
    else if 0x018 ≤ n ∧ n ≤ 0x01A then
      th.setBank (b.setLoop (n - 0x018) { b.loop (n - 0x018) with lc := v })
    else if n = 0x01B then th.setBank { b with depth := v.setWidth 2 }
    else th

/-- The current value of a writable register, for `ctls` and `ctlc`; a W1C field reads as 0 there, so that both act as
writes of the given value (R80). -/
def State.rmwTreg (s : State) (t r : Tid) (n : Nat) : Word :=
  if n = 0x002 then 0
  else if n = 0x004 then (s.thread t).ctl.cmpLoHeld
  else (s.readTreg t r n).1

/-- The thread and register that a 12-bit control-register number names for thread `t`, and whether it is the path
0x400 (R41). -/
def tregTarget (t : Tid) (num : BitVec 12) : Tid × Nat × Bool :=
  let n := num.toNat
  if 0x400 ≤ n ∧ n < 0x800 then ({ t with thread := BitVec.ofNat 2 ((n - 0x400) / 0x100) }, n % 0x100, true)
  else (t, n, false)

/-- Whether a number is assigned: the path 0x400 reaches the thread registers only (R41). -/
def tregAssigned (t : Tid) (num : BitVec 12) : Bool :=
  let x := tregTarget t num
  (tregPriv x.2.1).isSome && (decide (num.toNat < 0x400) || x.2.2)

end Sys2Proof.Machine
end

