-- ==== Sys2Proof/Machine/Trace.lean ====
section
/-! DEFINITION. The trace records of the Oculus (R497, R498). -/

namespace Sys2Proof.Machine

open Sys2Proof

/-- The debug level: 0 CLOSED, 1 LIMITED, 2 FULL (R493). -/
def State.dbgLevel (s : State) : Nat := fld (s.creg .keepDbg 0 0) 1 0

/-- Whether the Oculus takes records of a type (R496, R497). -/
def State.traces (s : State) (ty : Nat) : Bool :=
  decide (s.dbgLevel ≠ 0) && bit (s.creg .ocuCtl 0 0) 0 && bit (s.creg .ocuSrc 0 0) ty && s.domOpen 94

/-- Whether a Spire is disabled: by the mask, or by repair words that could not be read (R2, R487). -/
def State.spireDisabled (s : State) (n : Nat) : Bool := bit s.fuses.disable n || bit s.fuses.badRepair n

/-- The bypassed tile of row `r` of a Spire (R262, R264). -/
def State.bypass (s : State) (sp r : Nat) : Nat :=
  if s.spireDisabled sp then 8 else (Store.get 8 s.fuses.repair (4 * sp + r)).toNat

/-- The physical tile on which a core's logical column lies (R262). -/
def State.physTile (s : State) (c : CoreId) : Nat :=
  let col := fld c 2 0
  if col < s.bypass (spireOf c).toNat (fld c 4 3) then col else col + 1

/-- Byte 15 of a record that names a core: its physical tile at FULL, else 0 (R498). -/
def State.tileByte (s : State) (core : Option CoreId) : Nat :=
  match core with
  | some c => if s.dbgLevel = 2 then s.physTile c else 0
  | none => 0

/-- Write a trace record of a type, with the low 48 bits of the payload in bytes 9 to 14, or its 56 bits where it names
no core: one record per 4 ns, the buffer overwriting its oldest record or stopping when full (R498).
[DESIGN CHOICE, log 42] -/
def State.trace (s : State) (ty : Nat) (core : Option CoreId) (payload : Nat) : State :=
  if ! s.traces ty then s
  else if (match s.ocuLast with | some n => decide (s.ns < n + 4) | none => false) then s.bump .ocuDrop 0 0 1
  else if s.ocuFull ∧ ! bit (s.creg .ocuCtl 0 0) 1 then s
  else
    let w := (s.creg .ocuWptr 0 0).toNat
    let bytes := leBytes 8 s.ns ++ leBytes 1 ty ++
      (match core with
       | some _ => leBytes 6 payload ++ leBytes 1 (s.tileByte core)
       | none => leBytes 7 payload)
    let s := { s with ocu := s.ocu.store (16 * w) bytes, ocuLast := some s.ns, ocuFull := decide (w = 2 ^ 17 - 1) }
    s.setCreg .ocuWptr 0 0 (BitVec.ofNat 32 ((w + 1) % 2 ^ 17))

/-- A record of a delivery or end-of-interrupt of a selected thread. -/
def State.traceLantern (s : State) (t : Tid) (vec prio : Nat) : State :=
  if Config.ocuSelects t.core.toNat t.thread.toNat then
    s.trace 4 (some t.core) (t.core.toNat + t.thread.toNat * 2 ^ 11 + vec * 2 ^ 13 + prio * 2 ^ 21)
  else s

/-- A record of a stream's issue or completion on a selected core. -/
def State.traceStream (s : State) (c : CoreId) (slot fault : Nat) : State :=
  if Config.ocuSelects c.toNat 0 then s.trace 5 (some c) (c.toNat + slot * 2 ^ 11 + fault * 2 ^ 15) else s

/-- A record of an operation on a watched counter. -/
def State.traceCounter (s : State) (ctr : BitVec 16) (value : Word) : State :=
  if (List.range 16).any fun k => (s.creg .ocuWctr 0 k).setWidth 16 = ctr then
    s.trace 6 none (ctr.toNat + value.toNat * 2 ^ 16)
  else s

/-- A record of a router that becomes DONE on a selected core. -/
def State.traceDone (s : State) (c : CoreId) (index : Nat) : State :=
  if Config.ocuSelects c.toNat 0 then s.trace 7 (some c) (c.toNat + index * 2 ^ 11) else s

/-- Enter a state of a domain, with its trace record (R441, R497). -/
def State.enterDom (s : State) (n : Nat) (st : DomSt) : State :=
  let s := s.modDom n fun d => { d with st := st }
  let code := match st with | .off => 0 | .ramp => 1 | .on => 2 | .closing => 3 | .failed => 4 | .retained => 5
  s.trace 8 none (n + code * 2 ^ 7)

end Sys2Proof.Machine
end

