-- ==== Sys2Proof/Machine/CupolaOps.lean ====
section
/-! DEFINITION. The Cupola's operations: counters, waiter entries, locks and dispatch slots (R303 to R328). -/

namespace Sys2Proof.Machine

open Sys2Proof

/-- The Spire of a counter ID (R17). -/
def ctrSpire (c : BitVec 16) : Spire := c.extractLsb' 10 6

/-- The index of a counter in its Cupola. -/
def ctrIndex (c : BitVec 16) : Nat := fld c 9 0

/-- The Spire of a lock ID (R17). -/
def lockSpire (l : BitVec 14) : Spire := l.extractLsb' 8 6

/-- The index of a lock in its Cupola. -/
def lockIndex (l : BitVec 14) : Nat := fld l 7 0

/-- A counter's value (R303). -/
def State.ctrVal (s : State) (c : BitVec 16) : Word := s.creg .cupCval (ctrSpire c).toNat (ctrIndex c)

/-- A counter's limit. -/
def State.ctrLim (s : State) (c : BitVec 16) : Word := s.creg .cupClim (ctrSpire c).toNat (ctrIndex c)

/-- A counter's poison bit. -/
def State.ctrPoison (s : State) (c : BitVec 16) : Bool := bit (s.creg .cupCstat (ctrSpire c).toNat (ctrIndex c)) 0

/-- The owner and allocation of a counter's unit (R315). -/
def State.ctrUnit (s : State) (c : BitVec 16) : Word := s.creg .cupCunit (ctrSpire c).toNat (ctrIndex c / 64)

/-- Whether a tenant owns a counter. -/
def State.ownsCtr (s : State) (t : BitVec 4) (c : BitVec 16) : Bool :=
  bit (s.ctrUnit c) 4 && decide ((s.ctrUnit c).setWidth 4 = t)

/-- The owner and allocation of a lock's unit (R315). -/
def State.lockUnit (s : State) (l : BitVec 14) : Word := s.creg .cupLunit (lockSpire l).toNat (lockIndex l / 16)

/-- Whether a tenant owns a lock. -/
def State.ownsLock (s : State) (t : BitVec 4) (l : BitVec 14) : Bool :=
  bit (s.lockUnit l) 4 && decide ((s.lockUnit l).setWidth 4 = t)

/-- A waiter on a counter, not on a lock. -/
def WaitFor.onLock : WaitFor → Bool
  | .lock _ _ => true
  | _ => false

/-- A remote answer leaves over Skybridge (R397): ADDR holds the counter operand, ARG the value and the status. -/
def State.answerRemote (s : State) (dev : BitVec 10) (tag : BitVec 16) (obj : Nat) (value : Word) (status : BitVec 8)
    : State :=
  { s with toSkb := s.toSkb ++
    [{ dst := dev, src := (s.creg .skbDevid 0 0).setWidth 10, ptype := 7, tenant := 0, epoch := 0, tag := tag,
       poison := decide (status = 2), addr := BitVec.ofNat 64 obj, arg := status.setWidth 32 ++ value, e2eOk := true,
       data := [] }] }

/-- Answer an `swait` (R309). Status 3 is the RETRY answer of R311. -/
def State.answerSwait (s : State) (sp : Spire) (r : Requester) (tag : Nat) (obj : Nat) (value : Word)
    (status : BitVec 2) (refuse : Refuse) : State :=
  match r with
  | .thread t => s.send (cupolaRouter sp) t.core true false 0 (.swaitAnswer (.thread t) tag value status refuse)
  | .belfry b =>
    s.send (cupolaRouter sp) (servicePort (belQuad b)) true false 0 (.swaitAnswer (.belfry b) tag value status refuse)
  | .remote d g => s.answerRemote d g obj value (match refuse with | some (c, _) => c | none => status.setWidth 8)

/-- Tell a watcher that a counter has come above its target, or fallen below it (R311): its core's router or its
quadrant's service port, or over Skybridge with code 0x41 or 0x40. [DESIGN CHOICE, log 43] -/
def State.tellWatch (s : State) (sp : Spire) (obj : Nat) (who : Watcher) (up : Bool) : State :=
  match who with
  | .lantern t _ => s.send (cupolaRouter sp) t.core false false 0 (.watchEvent who up)
  | .belfry q _ => s.send (cupolaRouter sp) (servicePort q) false false 0 (.watchEvent who up)
  | .remote d g => s.answerRemote d g obj 0 (if up then 0x41 else 0x40)

/-- Judge one waiter entry against a counter: the answer it is due and the entry that stays (R309, R311). -/
def judgeWaiter (value : Word) (poison : Bool) (w : Waiter) : Option (BitVec 2) × Option Bool × Option Waiter :=
  match w.want with
  | .swait _ _ target =>
    if poison then (some 2, none, none)
    else if target ≤ value then (some 0, none, none)
    else (none, none, some w)
  | .watch who target above =>
    let now := poison || decide (target ≤ value)
    if now = above then (none, none, some w)
    else (none, some now, some { w with want := .watch who target now })
  | .lock _ _ => (none, none, some w)

/-- After a counter changed: satisfied waiters are answered and watches told, in the order in which the entries were
taken (R311). -/
def State.pokeWaiters (s : State) (sp : Spire) (idx : Nat) (value : Word) (poison : Bool) : List Waiter → State
  | [] => s
  | w :: r =>
    if w.obj ≠ idx ∨ w.want.onLock then
      let s := s.pokeWaiters sp idx value poison r
      s.modSpire sp fun k => { k with waiters := w :: k.waiters }
    else
      let j := judgeWaiter value poison w
      let s := match j.1, w.want with
        | some st, .swait q tag _ => s.answerSwait sp q tag (1024 * sp.toNat + idx) value st none
        | _, _ => s
      let s := match j.2.1, w.want with
        | some up, .watch who _ _ => s.tellWatch sp (1024 * sp.toNat + idx) who up
        | _, _ => s
      let s := s.pokeWaiters sp idx value poison r
      match j.2.2 with
      | some w' => s.modSpire sp fun k => { k with waiters := w' :: k.waiters }
      | none => s

/-- The counter's poison bit is set: every watch on it is due an above event, whatever it was told before (R312). -/
def State.rearm (s : State) (c : BitVec 16) : State :=
  s.modSpire (ctrSpire c) fun k =>
    { k with
        waiters := k.waiters.map fun w =>
          match w.want with
          | .watch who target _ => if w.obj = ctrIndex c then { w with want := .watch who target false } else w
          | _ => w }

/-- Re-evaluate everything that waits on a counter. -/
def State.poke (s : State) (c : BitVec 16) : State :=
  let sp := ctrSpire c
  let ws := (s.spire sp).waiters
  let s := s.modSpire sp fun k => { k with waiters := [] }
  s.pokeWaiters sp (ctrIndex c) (s.ctrVal c) (s.ctrPoison c) ws

/-- The thread that a signal names: the signaller's, or the one that issued the stream (R314). -/
def Signaller.thread? : Signaller → Option Tid
  | .thread t => some t
  | .stream _ t => t
  | _ => none

/-- The detail of a record of R314: the object's ID and the signaller. -/
def syncDetail (obj : Nat) (who : Signaller) : DWord :=
  match who.thread? with
  | some t => BitVec.ofNat 64 (obj + t.core.toNat * 2 ^ 16 + t.thread.toNat * 2 ^ 27)
  | none => BitVec.ofNat 64 (obj + 0x7FF * 2 ^ 16)

/-- A refused operation is logged with the object's owner, and counted by a Cupola that has power (R314). -/
def State.logRefused (s : State) (sp : Spire) (obj : Nat) (who : Signaller) (tenant : BitVec 4) : State :=
  (if s.domCarries sp.toNat then s.bump .cupRefused sp.toNat 0 1 else s).reportSpire sp 0x18 1 (syncDetail obj who) tenant

/-- Perform a signal: add `inc`, read as signed, unless it underflows, overflows or meets a unit that is not
allocated; set the poison bit whether or not the addition is refused (R307, R308). [DEDUCED, log 24] -/
def State.signal (s : State) (who : Signaller) (c : BitVec 16) (inc : Word) (poison : Bool) : State × Refuse :=
  let sp := ctrSpire c
  let s := s.bump .cupOps sp.toNat 0 1
  let v := s.ctrVal c
  let x : Int := v.toNat + inc.toInt
  let refuse : Option (BitVec 8) :=
    if ! bit (s.ctrUnit c) 4 then some 0x25
    else if x < 0 then some 0x20
    else if (s.ctrLim c).toNat < x then some 0x21
    else none
  let s := match refuse with
    | none => s.setCreg .cupCval sp.toNat (ctrIndex c) (BitVec.ofInt 32 x)
    | some _ => s
  let s := if poison ∧ refuse ≠ some 0x25 then
      (s.rearm c).setCreg .cupCstat sp.toNat (ctrIndex c) (s.creg .cupCstat sp.toNat (ctrIndex c) ||| 1#32)
    else s
  let s := match refuse with
    | some _ => s.logRefused sp c.toNat who ((s.ctrUnit c).setWidth 4)
    | none => s
  ((s.traceCounter c (s.ctrVal c)).poke c, refuse.map fun r => (r, c.setWidth 32))

/-- A signal from an agent that takes no refusal: nothing comes back to it (R308). -/
def State.signalQuiet (s : State) (who : Signaller) (c : BitVec 16) (inc : Nat) (poison : Bool) : State :=
  (s.signal who c (BitVec.ofNat 32 inc) poison).1

/-- A requester as a signaller of R314. -/
def Requester.signaller : Requester → Signaller
  | .thread t => .thread t
  | .belfry b => .belfry b
  | .remote d g => .remote d g

/-- Judge an `swait` (R309, R311). -/
def State.judgeSwait (s : State) (r : Requester) (tag : Nat) (c : BitVec 16) (target : Word) : State :=
  let sp := ctrSpire c
  let s := s.bump .cupOps sp.toNat 0 1
  let v := s.ctrVal c
  let s := s.traceCounter c v
  let obj := c.toNat
  if s.ctrPoison c then s.answerSwait sp r tag obj v 2 none
  else if target ≤ v then s.answerSwait sp r tag obj v 0 none
  else if (s.spire sp).waiters.length < 512 then
    s.modSpire sp fun k => { k with waiters := k.waiters ++ [{ obj := ctrIndex c, want := .swait r tag target }] }
  else (s.bump .cupWfull sp.toNat 0 1).answerSwait sp r tag obj v 3 none

/-! ### Locks -/

/-- A lock's state. -/
def State.lock (s : State) (l : BitVec 14) : LockSt := Store.get LockSt.reset (s.spire (lockSpire l)).locks (lockIndex l)

/-- Replace a lock's state. -/
def State.setLock (s : State) (l : BitVec 14) (k : LockSt) : State :=
  s.modSpire (lockSpire l) fun sp => { sp with locks := Store.set LockSt.reset sp.locks (lockIndex l) k }

/-- A lock's rank (R317). -/
def State.lockRank (s : State) (l : BitVec 14) : Nat := fld (s.creg .cupLcfg (lockSpire l).toNat (lockIndex l)) 3 0

/-- Send a lock answer: status 0 GRANTED, 2 BROKEN, 3 RETRY, or a refusal (R318). -/
def State.answerLock (s : State) (r : Requester) (tag : Nat) (l : BitVec 14) (status : BitVec 2) (refuse : Refuse) :
    State :=
  match r with
  | .thread t => s.send (cupolaRouter (lockSpire l)) t.core true false 0 (.lockGrant (.thread t) tag l status refuse)
  | .belfry b =>
    s.send (cupolaRouter (lockSpire l)) (servicePort (belQuad b)) true false 0 (.lockGrant (.belfry b) tag l status refuse)
  | .remote _ _ => s

/-- Grant a free lock: the holder is recorded and a broken lock says so (R318, R320). -/
def State.grantLock (s : State) (r : Requester) (tag : Nat) (l : BitVec 14) : State :=
  let k := s.lock l
  (s.setLock l { holder := some r, broken := false }).answerLock r tag l (if k.broken then 2 else 0) none

/-- The first queued request of a lock and the entries without it. -/
def takeLockWaiter (idx : Nat) : List Waiter → Option (Requester × Nat × List Waiter)
  | [] => none
  | w :: r =>
    match w.want with
    | .lock q tag =>
      if w.obj = idx then some (q, tag, r)
      else (takeLockWaiter idx r).map fun p => (p.1, p.2.1, w :: p.2.2)
    | _ => (takeLockWaiter idx r).map fun p => (p.1, p.2.1, w :: p.2.2)

/-- Free a lock, broken or not, and grant the next queued request (R318, R320). -/
def State.freeLock (s : State) (l : BitVec 14) (broken : Bool) : State :=
  let s := s.setLock l { holder := none, broken := broken }
  match takeLockWaiter (lockIndex l) (s.spire (lockSpire l)).waiters with
  | some (q, tag, rest) =>
    (s.modSpire (lockSpire l) fun k => { k with waiters := rest }).grantLock q tag l
  | none => s

/-- Judge a lock request (R318). -/
def State.judgeLock (s : State) (r : Requester) (tag : Nat) (l : BitVec 14) (rank : Option (BitVec 4)) : State :=
  let sp := lockSpire l
  let s := s.bump .cupOps sp.toNat 0 1
  let tooLow := match rank with | some k => decide (s.lockRank l ≤ k.toNat) | none => false
  if tooLow then
    (s.logRefused sp l.toNat r.signaller ((s.lockUnit l).setWidth 4)).answerLock r tag l 0 (some (0x22, l.setWidth 32))
  else
    match (s.lock l).holder with
    | none => s.grantLock r tag l
    | some _ =>
      if (s.spire sp).waiters.length < 512 then
        s.modSpire sp fun k => { k with waiters := k.waiters ++ [{ obj := lockIndex l, want := .lock r tag }] }
      else (s.bump .cupWfull sp.toNat 0 1).answerLock r tag l 3 none

/-- The rank bit of a lock leaves its holder's rank mask (R317). -/
def State.dropRank (s : State) (r : Requester) (l : BitVec 14) : State :=
  match r with
  | .thread t => s.modThread t fun th => { th with rankMask := th.rankMask &&& ~~~ (1#16 <<< s.lockRank l) }
  | .belfry b => s.modBel b fun k => { k with ranks := k.ranks &&& ~~~ (1#16 <<< s.lockRank l) }
  | .remote _ _ => s

/-- Perform an unlock: refused where the thread does not hold the lock (R313, R318). -/
def State.unlock (s : State) (r : Requester) (l : BitVec 14) : State × Refuse :=
  let sp := lockSpire l
  let s := s.bump .cupOps sp.toNat 0 1
  if (s.lock l).holder = some r then ((s.dropRank r l).freeLock l false, none)
  else
    (s.logRefused sp l.toNat r.signaller ((s.lockUnit l).setWidth 4), some (0x23, l.setWidth 32))

/-- Whether a waiter entry belongs to a request. -/
def Waiter.of (w : Waiter) (r : Requester) (tag : Nat) : Bool :=
  match w.want with
  | .swait q g _ => decide (q = r) && decide (g = tag)
  | .lock q g => decide (q = r) && decide (g = tag)
  | .watch _ _ _ => false

/-- Perform a withdrawal: the entry is freed; a lock granted meanwhile is unlocked (R310, R319). -/
def State.withdraw (s : State) (r : Requester) (tag : Nat) (lock : Bool) (obj : BitVec 16) : State :=
  if lock then
    let l : BitVec 14 := obj.setWidth 14
    let sp := lockSpire l
    if (s.spire sp).waiters.any fun w => w.of r tag then
      s.modSpire sp fun k => { k with waiters := k.waiters.filter fun w => ! w.of r tag }
    else if (s.lock l).holder = some r then (s.dropRank r l).freeLock l false
    else s
  else s.modSpire (ctrSpire obj) fun k => { k with waiters := k.waiters.filter fun w => ! w.of r tag }

/-! ### Watches -/

/-- Whether an entry is a watcher's registration. -/
def Waiter.watches (w : Waiter) (who : Watcher) : Bool :=
  match w.want with
  | .watch x _ _ => decide (x = who)
  | _ => false

/-- The watcher as R314 names it. -/
def Watcher.signaller : Watcher → Signaller
  | .lantern t _ => .thread t
  | .belfry _ _ => .agent
  | .remote d g => .remote d g

/-- A registration is answered RETRY: it is repeated 64 cc later (R311); another device learns it by code 0x42. -/
def State.retryWatch (s : State) (who : Watcher) (obj : Nat) : State :=
  match who with
  | .lantern t k => s.modThread t fun th => th.modLtn fun l =>
      { l with watchRetry := Store.put l.watchRetry k.toNat (s.now + 64) }
  | .belfry q n => s.modQuad q fun r => { r with watchRetry := Store.put r.watchRetry n.toNat (s.now + 64) }
  | .remote d g => s.answerRemote d g obj 0 0x42

/-- Register a watch anew, replacing the earlier registration, or withdraw it; a watch outside the tenant's allocation
is not registered and logged (R311). -/
def State.registerWatch (s : State) (who : Watcher) (tenant : BitVec 4) (c : BitVec 16) (target : Option Word) :
    State :=
  let sp := ctrSpire c
  let s := s.bump .cupOps sp.toNat 0 1
  let s := s.modSpire sp fun k => { k with waiters := k.waiters.filter fun w => ! w.watches who }
  match target with
  | none => s
  | some tg =>
    if ! s.ownsCtr tenant c then s.logRefused sp c.toNat who.signaller ((s.ctrUnit c).setWidth 4)
    else if 512 ≤ (s.spire sp).waiters.length then (s.bump .cupWfull sp.toNat 0 1).retryWatch who c.toNat
    else
      let up := s.ctrPoison c || decide (tg ≤ s.ctrVal c)
      let s := s.modSpire sp fun k =>
        { k with waiters := k.waiters ++ [{ obj := ctrIndex c, want := .watch who tg up }] }
      s.tellWatch sp c.toNat who up

/-! ### Dispatch slots (R321 to R326) -/

/-- A dispatch slot's state. -/
def State.slotSt (s : State) (sp : Spire) (k : Nat) : SlotSt := Store.get .empty (s.spire sp).slots k

/-- Set a dispatch slot's state. -/
def State.setSlot (s : State) (sp : Spire) (k : Nat) (st : SlotSt) : State :=
  s.modSpire sp fun r => { r with slots := Store.set .empty r.slots k st }

/-- The target thread of a slot. -/
def State.slotThread (s : State) (sp : Spire) (k : Nat) : Tid :=
  let w := s.creg .cupDctl sp.toNat k
  { core := coreOf sp (w.setWidth 5), thread := w.extractLsb' 5 2 }

/-- The slot's wait counter. -/
def State.slotWait (s : State) (sp : Spire) (k : Nat) : BitVec 16 := (s.creg .cupDwait sp.toNat k).setWidth 16

/-- The slot's done counter. -/
def State.slotDone (s : State) (sp : Spire) (k : Nat) : BitVec 16 := (s.creg .cupDdone sp.toNat k).setWidth 16

/-- Whether a slot's wait counter has reached its target and is not poisoned (R322). -/
def State.slotMet (s : State) (sp : Spire) (k : Nat) : Bool :=
  ! s.ctrPoison (s.slotWait sp k) && decide (s.creg .cupDwtgt sp.toNat k ≤ s.ctrVal (s.slotWait sp k))

/-- The Belfry source of a Spire's Cupola (R326). -/
def cupolaSource (sp : Spire) : Nat := 0x010 + 3 * (sp.toNat % 16)

/-- A slot retires with a status: the `DISPATCH` command that armed it learns it (R427). -/
def State.noteSlot (s : State) (sp : Spire) (k status : Nat) : State :=
  { s with
      cmds := s.cmds.map fun p =>
        if p.2.slot = some (sp.toNat, k) ∧ p.2.ended = none then (p.1, { p.2 with ended := some status }) else p }

/-- Retire a slot without dispatch: its done counter is signalled with poison, the Belfry source is raised and the slot
is free (R326). -/
def State.retireSlot (s : State) (sp : Spire) (k status : Nat) : State :=
  let s := (s.noteSlot sp k status).setSlot sp k .closing
  let s := s.signalQuiet (.slot (BitVec.ofNat 6 k)) (s.slotDone sp k) 1 true
  (s.setSlot sp k .empty).raiseBic (quadOf sp) (cupolaSource sp)

/-- Whether the slot's target can never be dispatched: a tick-bound thread (R323). -/
def State.badTarget (s : State) (sp : Spire) (k : Nat) : Bool := (s.thread (s.slotThread sp k)).ctl.bound

/-- The lowest slot that is ready to dispatch (R322). -/
def State.readySlot (s : State) (sp : Spire) : Option Nat :=
  (List.range 64).find? fun k =>
    decide (s.slotSt sp k = .waiting) && s.slotMet sp k &&
    decide ((s.thread (s.slotThread sp k)).status = .disabled) && ! s.badTarget sp k

/-- The lowest slot that is due to retire without dispatch: its wait counter is poisoned, or its counter condition
holds and its target is bad (R323, R326). -/
def State.doomedSlot (s : State) (sp : Spire) : Option Nat :=
  (List.range 64).find? fun k =>
    decide (s.slotSt sp k = .waiting) &&
    (s.ctrPoison (s.slotWait sp k) || (s.slotMet sp k && s.badTarget sp k))

end Sys2Proof.Machine
end

