-- ==== Sys2Proof/Machine/Float.lean ====
section
/-! DEFINITION. The number formats and the exact arithmetic that every unit rounds from (R125 to R135, R138 to R149). -/

namespace Sys2Proof.Machine

open Sys2Proof

/-- Which encodings of the top exponent are special (R129). -/
inductive FKind where
  | ieee | e4m3 | finite
  deriving DecidableEq, Repr

/-- The parameters of a floating-point format (R129). -/
structure Fmt where
  ew : Nat
  mw : Nat
  bias : Nat
  kind : FKind
  deriving DecidableEq, Repr

/-- binary64. -/
def fp64 : Fmt := ⟨11, 52, 1023, .ieee⟩
/-- binary32. -/
def fp32 : Fmt := ⟨8, 23, 127, .ieee⟩
/-- binary16. -/
def fp16 : Fmt := ⟨5, 10, 15, .ieee⟩
/-- BF16. -/
def bf16 : Fmt := ⟨8, 7, 127, .ieee⟩
/-- E5M2. -/
def e5m2 : Fmt := ⟨5, 2, 15, .ieee⟩
/-- E4M3. -/
def e4m3 : Fmt := ⟨4, 3, 7, .e4m3⟩
/-- E3M2. -/
def e3m2 : Fmt := ⟨3, 2, 3, .finite⟩
/-- E2M3. -/
def e2m3 : Fmt := ⟨2, 3, 1, .finite⟩
/-- E2M1. -/
def e2m1 : Fmt := ⟨2, 1, 1, .finite⟩

/-- A value: a NaN with its fraction field and that field's width, an infinity, or (−1)^neg × m × 2^e. -/
inductive FVal where
  | nan (neg : Bool) (frac fw : Nat)
  | inf (neg : Bool)
  | fin (neg : Bool) (m : Nat) (e : Int)
  deriving DecidableEq, Repr

/-- The flags of `FPSTAT`: NV, DZ, OF, UF, NX in bits 0 to 4 (R44). -/
abbrev FFlags := BitVec 5

/-- Invalid. -/
def fNV : FFlags := 1
/-- Divide by zero. -/
def fDZ : FFlags := 2
/-- Overflow. -/
def fOF : FFlags := 4
/-- Underflow. -/
def fUF : FFlags := 8
/-- Inexact. -/
def fNX : FFlags := 16

/-- A flag where a condition holds. -/
def flagIf (b : Bool) (f : FFlags) : FFlags := if b then f else 0

/-- What an operation delivers for one element: its bits, its flags, whether it generated a NaN (R153), and whether the
element counts under FTZ, SAT and NAN (R156). -/
structure FOut where
  bits : Nat
  flags : FFlags
  gen : Bool
  ftz : Bool
  sat : Bool
  nan : Bool
  deriving DecidableEq, Repr

/-- An outcome with nothing but its bits. -/
def FOut.plain (x : Nat) : FOut := { bits := x, flags := 0, gen := false, ftz := false, sat := false, nan := false }

/-- The number of significant bits. -/
def bitLen (m : Nat) : Nat := if m = 0 then 0 else Nat.log2 m + 1

/-- m × 2^d, rounded down when d is negative. -/
def scaleNat (m : Nat) (d : Int) : Nat := if 0 ≤ d then m * 2 ^ d.toNat else m / 2 ^ (-d).toNat

/-- The value that bits of a format denote (R129). -/
def Fmt.decode (f : Fmt) (x : Nat) : FVal :=
  let frac := x % 2 ^ f.mw
  let ex := x / 2 ^ f.mw % 2 ^ f.ew
  let neg := decide (x / 2 ^ (f.mw + f.ew) % 2 = 1)
  let num : FVal :=
    if ex = 0 then .fin neg frac (1 - (f.bias : Int) - f.mw)
    else .fin neg (2 ^ f.mw + frac) (ex - (f.bias : Int) - f.mw)
  if ex = 2 ^ f.ew - 1 then
    match f.kind with
    | .ieee => if frac = 0 then .inf neg else .nan neg frac f.mw
    | .e4m3 => if frac = 2 ^ f.mw - 1 then .nan neg frac f.mw else num
    | .finite => num
  else num

/-- A signalling NaN: the top fraction bit is 0. -/
def FVal.isSig : FVal → Bool
  | .nan _ frac fw => decide (frac < 2 ^ (fw - 1))
  | _ => false

/-- Any NaN. -/
def FVal.isNan : FVal → Bool
  | .nan _ _ _ => true
  | _ => false

/-- Zero of either sign. -/
def FVal.isZero : FVal → Bool
  | .fin _ m _ => decide (m = 0)
  | _ => false

/-- The sign. -/
def FVal.neg? : FVal → Bool
  | .nan n _ _ => n
  | .inf n => n
  | .fin n _ _ => n

/-- The negation of a number; a NaN keeps its sign. -/
def FVal.negate : FVal → FVal
  | .nan n f w => .nan n f w
  | .inf n => .inf (! n)
  | .fin n m e => .fin (! n) m e

/-- The canonical quiet NaN of sign 0, whatever the format (R126, R129). -/
def canonNan : FVal := .nan false 1 1

/-- The sign bit of a format. -/
def Fmt.signBit (f : Fmt) (neg : Bool) : Nat := if neg then 2 ^ (f.mw + f.ew) else 0

/-- The largest finite magnitude's encoding. -/
def Fmt.maxBits (f : Fmt) : Nat :=
  match f.kind with
  | .ieee => 2 ^ (f.mw + f.ew) - 2 ^ f.mw - 1
  | .e4m3 => 2 ^ (f.mw + f.ew) - 2
  | .finite => 2 ^ (f.mw + f.ew) - 1

/-- Infinity's encoding. -/
def Fmt.infBits (f : Fmt) : Nat := (2 ^ f.ew - 1) * 2 ^ f.mw

/-- A quiet NaN's encoding with the payload truncated or widened to the format (R126, R142). -/
def Fmt.nanBits (f : Fmt) (neg : Bool) (frac fw : Nat) : Nat :=
  match f.kind with
  | .e4m3 => f.signBit neg + (2 ^ (f.mw + f.ew) - 1)
  | _ =>
    let p := if f.mw ≤ fw then frac / 2 ^ (fw - f.mw) else frac * 2 ^ (f.mw - fw)
    f.signBit neg + f.infBits + (p ||| 2 ^ (f.mw - 1))

/-- Round m / 2^d to an integer under `RMODE` (R44): 0 nearest-even, 1 toward zero, 2 toward +∞, 3 toward −∞, 4
nearest-away; and whether the result is inexact. -/
def roundShift (rm : Nat) (neg : Bool) (m d : Nat) : Nat × Bool :=
  let t := m / 2 ^ d
  let r := m % 2 ^ d
  let up :=
    match rm with
    | 0 => decide (2 ^ d < 2 * r) || (decide (2 * r = 2 ^ d) && decide (t % 2 = 1))
    | 1 => false
    | 2 => ! neg && decide (0 < r)
    | 3 => neg && decide (0 < r)
    | _ => decide (0 < r) && decide (2 ^ d ≤ 2 * r)
  (if up then t + 1 else t, decide (0 < r))

/-- Round m × 2^e to a multiple of 2^q: the multiple and whether it is inexact. -/
def roundTo (rm : Nat) (neg : Bool) (m : Nat) (e q : Int) : Nat × Bool :=
  if q ≤ e then (m * 2 ^ (e - q).toNat, false) else roundShift rm neg m (q - e).toNat

/-- The encoding of t × 2^q, a multiple that fits the format. -/
def Fmt.pack (f : Fmt) (neg : Bool) (t : Nat) (q : Int) : Nat :=
  if t < 2 ^ f.mw then f.signBit neg + t
  else
    let t' := if t = 2 ^ (f.mw + 1) then 2 ^ f.mw else t
    let q' := if t = 2 ^ (f.mw + 1) then q + 1 else q
    f.signBit neg + (q' + f.mw + f.bias).toNat * 2 ^ f.mw + (t' - 2 ^ f.mw)

/-- A rounded magnitude: its encoding without overflow, and what happened on the way (R126, R141). -/
structure Rounded where
  bits : Nat
  exceeds : Bool
  inexact : Bool
  tiny : Bool
  zero : Bool
  deriving DecidableEq, Repr

/-- Round (−1)^neg × m × 2^e to the format: overflow is decided on the value rounded with an unbounded exponent,
tininess is detected after rounding, subnormals are kept (R126, R141). -/
def Fmt.roundFin (f : Fmt) (rm : Nat) (neg : Bool) (m : Nat) (e : Int) : Rounded :=
  let emin : Int := 1 - (f.bias : Int)
  let top : Int := e + bitLen m - 1
  let qu : Int := top - f.mw
  let q : Int := if qu < emin - f.mw then emin - f.mw else qu
  let u := roundTo rm neg m e qu
  let utop : Int := qu + bitLen u.1 - 1
  let r := roundTo rm neg m e q
  let emax : Int := (2 ^ f.ew - 1 : Nat) - (f.bias : Int) - (match f.kind with | .ieee => 1 | _ => 0)
  let lim : Nat := 2 ^ (f.mw + 1) - (match f.kind with | .e4m3 => 2 | _ => 1)
  let exceeds := decide (emax < utop) ||
    (decide (utop = emax) && decide (lim < u.1) && decide (u.1 < 2 ^ (f.mw + 1)))
  { bits := f.pack neg r.1 q, exceeds := exceeds, inexact := r.2, tiny := decide (utop < emin), zero := decide (r.1 = 0) }

/-- The IEEE overflow result: infinity, or the largest number under a rounding direction toward zero (R142). -/
def Fmt.ieeeOver (f : Fmt) (rm : Nat) (neg : Bool) : Nat :=
  let toMax := decide (rm = 1) || (decide (rm = 2) && neg) || (decide (rm = 3) && ! neg)
  f.signBit neg + (if toMax then f.maxBits else f.infBits)

/-- The result of an IEEE operation from its exact value (R125, R126). -/
def Fmt.finish (f : Fmt) (rm : Nat) : FVal → FOut
  | .nan n fr w => FOut.plain (f.nanBits n fr w)
  | .inf n => FOut.plain (f.signBit n + f.infBits)
  | .fin n m e =>
    if m = 0 then FOut.plain (f.signBit n)
    else
      let r := f.roundFin rm n m e
      if r.exceeds then { FOut.plain (f.ieeeOver rm n) with flags := fOF ||| fNX }
      else { FOut.plain r.bits with
               flags := flagIf r.inexact fNX ||| flagIf (r.inexact && r.tiny) fUF, ftz := r.zero }

/-- An exact result with the flag and the mark of a generated NaN. -/
structure FRes where
  val : FVal
  flags : FFlags
  gen : Bool
  deriving DecidableEq, Repr

/-- A NaN generated from operands none of which is a NaN (R126). -/
def FRes.invalid : FRes := { val := canonNan, flags := fNV, gen := true }

/-- The first NaN among the operands, with NV where one signals (R126). -/
def firstNan (xs : List FVal) : Option FRes :=
  match xs.find? FVal.isNan with
  | some (.nan n f w) => some { val := .nan n f w, flags := flagIf (xs.any FVal.isSig) fNV, gen := false }
  | _ => none

/-- The exact sum of two numbers; an exact zero takes the common sign, else the sign of the rounding direction. -/
def addFin (rm : Nat) (n1 : Bool) (m1 : Nat) (e1 : Int) (n2 : Bool) (m2 : Nat) (e2 : Int) : FVal :=
  let e := if e1 ≤ e2 then e1 else e2
  let a : Int := m1 * 2 ^ (e1 - e).toNat
  let b : Int := m2 * 2 ^ (e2 - e).toNat
  let s := (if n1 then -a else a) + (if n2 then -b else b)
  if s = 0 then .fin (if n1 = n2 then n1 else decide (rm = 3)) 0 e
  else .fin (decide (s < 0)) s.natAbs e

/-- a + b before rounding. -/
def exactAdd (rm : Nat) (a b : FVal) : FRes :=
  match firstNan [a, b] with
  | some r => r
  | none =>
    match a, b with
    | .inf n, .inf k => if n = k then { val := a, flags := 0, gen := false } else FRes.invalid
    | .inf _, _ => { val := a, flags := 0, gen := false }
    | _, .inf _ => { val := b, flags := 0, gen := false }
    | .fin n1 m1 e1, .fin n2 m2 e2 => { val := addFin rm n1 m1 e1 n2 m2 e2, flags := 0, gen := false }
    | _, _ => FRes.invalid

/-- a × b before rounding. -/
def exactMul (a b : FVal) : FRes :=
  match firstNan [a, b] with
  | some r => r
  | none =>
    match a, b with
    | .inf n, .inf k => { val := .inf (n != k), flags := 0, gen := false }
    | .inf n, .fin k m _ => if m = 0 then FRes.invalid else { val := .inf (n != k), flags := 0, gen := false }
    | .fin n m _, .inf k => if m = 0 then FRes.invalid else { val := .inf (n != k), flags := 0, gen := false }
    | .fin n1 m1 e1, .fin n2 m2 e2 => { val := .fin (n1 != n2) (m1 * m2) (e1 + e2), flags := 0, gen := false }
    | _, _ => FRes.invalid

/-- a × b + c before rounding; ∞ × 0 + quiet NaN gives that NaN and NV (R126). -/
def exactFma (rm : Nat) (a b c : FVal) : FRes :=
  match firstNan [a, b, c] with
  | some r =>
    let zi := (match a, b with
      | .inf _, .fin _ m _ => decide (m = 0)
      | .fin _ m _, .inf _ => decide (m = 0)
      | _, _ => false)
    { r with flags := r.flags ||| flagIf zi fNV }
  | none =>
    let p := exactMul a b
    if p.gen then p else exactAdd rm p.val c

/-- a ÷ b with a sticky bit below the precision `p`. -/
def exactDiv (p : Nat) (a b : FVal) : FRes :=
  match firstNan [a, b] with
  | some r => r
  | none =>
    match a, b with
    | .inf _, .inf _ => FRes.invalid
    | .inf n, .fin k _ _ => { val := .inf (n != k), flags := 0, gen := false }
    | .fin n _ e, .inf k => { val := .fin (n != k) 0 e, flags := 0, gen := false }
    | .fin n1 m1 e1, .fin n2 m2 e2 =>
      if m2 = 0 then
        if m1 = 0 then FRes.invalid else { val := .inf (n1 != n2), flags := fDZ, gen := false }
      else
        let k := p + 3 + bitLen m2
        let x := m1 * 2 ^ k
        let q := x / m2
        let st := if x % m2 = 0 then 0 else 1
        { val := .fin (n1 != n2) (2 * q + st) (e1 - e2 - k - 1), flags := 0, gen := false }
    | _, _ => FRes.invalid

/-- The integer square root by `k` bits from the top. -/
def isqrt (n : Nat) : Nat → Nat → Nat
  | 0, r => r
  | k + 1, r => isqrt n k (if (r + 2 ^ k) * (r + 2 ^ k) ≤ n then r + 2 ^ k else r)

/-- √a with a sticky bit below the precision `p`. -/
def exactSqrt (p : Nat) (a : FVal) : FRes :=
  match firstNan [a] with
  | some r => r
  | none =>
    match a with
    | .inf n => if n then FRes.invalid else { val := a, flags := 0, gen := false }
    | .fin n m e =>
      if m = 0 then { val := a, flags := 0, gen := false }
      else if n then FRes.invalid
      else
        let o : Nat := (e % 2).toNat
        let x := m * 2 ^ (o + 2 * (p + 3))
        let r := isqrt x (bitLen x / 2 + 1) 0
        let st := if r * r = x then 0 else 1
        { val := .fin false (2 * r + st) ((e - o) / 2 - (p + 3) - 1), flags := 0, gen := false }
    | _ => FRes.invalid

/-- A number's order key: less than as rational numbers, −0 below +0, infinities outside (R127). -/
def finLess (n1 : Bool) (m1 : Nat) (e1 : Int) (n2 : Bool) (m2 : Nat) (e2 : Int) : Bool :=
  let e := if e1 ≤ e2 then e1 else e2
  let a : Int := m1 * 2 ^ (e1 - e).toNat
  let b : Int := m2 * 2 ^ (e2 - e).toNat
  decide ((if n1 then -a else a) < (if n2 then -b else b))

/-- a < b for values that are no NaN; zeros are equal. -/
def FVal.less : FVal → FVal → Bool
  | .inf n, .inf k => n && ! k
  | .inf n, _ => n
  | _, .inf k => ! k
  | .fin n1 m1 e1, .fin n2 m2 e2 => finLess n1 m1 e1 n2 m2 e2
  | _, _ => false

/-- a = b for values that are no NaN. -/
def FVal.same (a b : FVal) : Bool := ! a.isNan && ! b.isNan && ! a.less b && ! b.less a

/-- IEEE minimum or maximum: a NaN operand gives a NaN, −0 orders below +0 (R127). -/
def exactMinMax (mx : Bool) (a b : FVal) : FRes :=
  match firstNan [a, b] with
  | some r => r
  | none =>
    let aLow := a.less b || (a.same b && a.isZero && a.neg?)
    { val := if aLow = mx then b else a, flags := 0, gen := false }

/-- Round an exact result into a format. -/
def Fmt.out (f : Fmt) (rm : Nat) (r : FRes) : FOut :=
  let o := f.finish rm r.val
  { o with flags := o.flags ||| r.flags, gen := r.gen, nan := r.gen }

/-- a + b (R125). -/
def Fmt.add (f : Fmt) (rm a b : Nat) : FOut := f.out rm (exactAdd rm (f.decode a) (f.decode b))

/-- a − b. -/
def Fmt.sub (f : Fmt) (rm a b : Nat) : FOut := f.out rm (exactAdd rm (f.decode a) (f.decode b).negate)

/-- a × b. -/
def Fmt.mul (f : Fmt) (rm a b : Nat) : FOut := f.out rm (exactMul (f.decode a) (f.decode b))

/-- a ÷ b. -/
def Fmt.div (f : Fmt) (rm a b : Nat) : FOut := f.out rm (exactDiv (f.mw + 1) (f.decode a) (f.decode b))

/-- √a. -/
def Fmt.sqrt (f : Fmt) (rm a : Nat) : FOut := f.out rm (exactSqrt (f.mw + 1) (f.decode a))

/-- (−)a × b (−)c: the product or the addend negated. -/
def Fmt.fma (f : Fmt) (rm : Nat) (negP negC : Bool) (a b c : Nat) : FOut :=
  let x := f.decode a
  let z := f.decode c
  f.out rm (exactFma rm (if negP then x.negate else x) (f.decode b) (if negC then z.negate else z))

/-- Minimum and maximum (R127). -/
def Fmt.minmax (f : Fmt) (mx : Bool) (a b : Nat) : FOut := f.out 0 (exactMinMax mx (f.decode a) (f.decode b))

/-! ### FP32 pairs (R148, R149) -/

/-- A pair with what its computation raised, and whether a value that is not zero became zero on the way (R156). -/
structure PairOut where
  h : Nat
  l : Nat
  flags : FFlags
  gen : Bool
  ftz : Bool
  deriving DecidableEq, Repr

/-- A pair that is a NaN: h carries it and l is +0 (R126, R144). -/
def PairOut.ofNan (r : FRes) : PairOut :=
  { h := (fp32.out 0 r).bits, l := 0, flags := r.flags, gen := r.gen, ftz := false }

/-- The lines of R149 over words none of which is a NaN; where h' is not finite, l' is +0, so that the pair stays in
normal form (R148). The flags of all lines count together. [DEDUCED, log 31] -/
def pairLines (h l x1 x2 : Nat) : PairOut :=
  let d := fp32.decode
  let hx := exactAdd 0 (d h) (d x1)
  let s := fp32.out 0 hx
  let e := fp32.out 0 (exactAdd 0 hx.val (d s.bits).negate)
  let t1 := fp32.add 0 l x2
  let t := fp32.add 0 t1.bits e.bits
  let h' := fp32.add 0 s.bits t.bits
  match d h'.bits with
  | .fin _ _ _ =>
    let w := fp32.sub 0 h'.bits s.bits
    let l' := fp32.sub 0 t.bits w.bits
    { h := h'.bits, l := l'.bits, gen := false, ftz := false
      flags := s.flags ||| e.flags ||| t1.flags ||| t.flags ||| h'.flags ||| w.flags ||| l'.flags }
  | v =>
    { h := h'.bits, l := 0, gen := v.isNan, ftz := false
      flags := s.flags ||| e.flags ||| t1.flags ||| t.flags ||| h'.flags }

/-- The pair addition of R149: the first NaN operand, else its lines. [DEDUCED, log 31] -/
def pairAdd (h l x1 x2 : Nat) : PairOut :=
  match firstNan [fp32.decode h, fp32.decode l, fp32.decode x1, fp32.decode x2] with
  | some r => .ofNan r
  | none => pairLines h l x1 x2

/-- An exact value as a pair (x1, x2) (R149): x1 is the value rounded to FP32, x2 the rest rounded to FP32. The split
raises nothing but the overflow of x1. [DEDUCED, log 31] -/
def pairSplit (v : FVal) : PairOut :=
  let h := fp32.finish 0 v
  match fp32.decode h.bits with
  | .fin _ m _ =>
    let l := fp32.finish 0 (exactAdd 0 v (fp32.decode h.bits).negate).val
    { h := h.bits, l := l.bits, flags := 0, gen := false, ftz := decide (m = 0) && ! v.isZero && (fp32.decode l.bits).isZero }
  | _ => { h := h.bits, l := 0, flags := h.flags, gen := false, ftz := false }

/-- An exact contribution added into the pair (h, l) (R149). A NaN comes from the contribution first, then from the pair;
∞ × 0 beside a pair that is a NaN gives that NaN and raises NV (R126). [DEDUCED, log 31] -/
def pairAcc (p : FRes) (h l : Nat) : PairOut :=
  let z := [fp32.decode h, fp32.decode l]
  match firstNan (if p.gen then z ++ [p.val] else p.val :: z) with
  | some r => .ofNan { r with flags := r.flags ||| p.flags, gen := p.gen && ! z.any FVal.isNan }
  | none =>
    let x := pairSplit p.val
    let q := pairLines h l x.h x.l
    { q with flags := q.flags ||| x.flags, ftz := x.ftz }

/-- The value h + l of a pair. [DEDUCED, log 31] -/
def pairVal (h l : Nat) : FVal := (exactAdd 0 (fp32.decode h) (fp32.decode l)).val

/-! ### Conversion (R138 to R146) -/

/-- A conversion format. -/
inductive CFmt where
  | flt (f : Fmt)
  | int (w : Nat)
  | pair
  | e8m0
  deriving DecidableEq, Repr

/-- The formats by code (R138). -/
def cfmt (code : Nat) : Option CFmt :=
  match code with
  | 0 => some (.flt fp64) | 1 => some (.flt fp32) | 2 => some (.flt bf16) | 3 => some (.flt fp16)
  | 4 => some (.int 32) | 5 => some (.int 16) | 6 => some (.int 8) | 7 => some .pair
  | 8 => some (.flt e4m3) | 9 => some (.flt e5m2) | 10 => some (.flt e3m2) | 11 => some (.flt e2m3)
  | 12 => some (.flt e2m1) | 13 => some (.int 4) | 14 => some .e8m0 | _ => none

/-- The width of an element. -/
def CFmt.width : CFmt → Nat
  | .flt f => 1 + f.ew + f.mw
  | .int w => w
  | .pair => 64
  | .e8m0 => 8

/-- The short formats (R138). -/
def shortCode (code : Nat) : Bool := code = 2 || code = 3 || code = 6 || (8 ≤ code && code ≤ 13)

/-- The signed value of `w` bits. -/
def signedOf (w x : Nat) : Int := if x < 2 ^ (w - 1) then x else (x : Int) - 2 ^ w

/-- The value that a source element denotes; a pair is h + l (R130, R141). -/
def CFmt.value (c : CFmt) (x : Nat) : FVal :=
  match c with
  | .flt f => f.decode x
  | .int w => let i := signedOf w x; .fin (decide (i < 0)) i.natAbs 0
  | .pair => pairVal (x % 2 ^ 32) (x / 2 ^ 32)
  | .e8m0 => if x = 0xFF then canonNan else .fin false 1 ((x : Int) - 127)

/-- Scale a source value exactly, or make it a NaN for a SCALE of 0xFF (R140). -/
def scaleVal (scale ws wd : Nat) (v : FVal) : FVal :=
  if wd = ws then v
  else if scale = 0xFF then (match v with | .nan n f w => .nan n f w | _ => .nan v.neg? 1 1)
  else
    let k : Int := if wd < ws then 127 - (scale : Int) else (scale : Int) - 127
    match v with
    | .fin n m e => .fin n m (e + k)
    | _ => v

/-- A saturated element: its largest magnitude, OF and NX, counted under SAT (R142, R143). -/
def satOut (x : Nat) : FOut := { FOut.plain x with flags := fOF ||| fNX, sat := true }

/-- Conversion of a value to a floating-point format (R141 to R143). [DEDUCED, log 32] -/
def Fmt.convert (f : Fmt) (rm : Nat) (sat : Bool) (v : FVal) : FOut :=
  match v with
  | .nan n fr w =>
    match f.kind with
    | .finite => { FOut.plain 0 with flags := fNV, nan := true }
    | _ => { FOut.plain (f.nanBits n fr w) with flags := flagIf v.isSig fNV }
  | .inf n =>
    let mx := satOut (f.signBit n + f.maxBits)
    match f.kind with
    | .ieee => if sat then mx else FOut.plain (f.signBit n + f.infBits)
    | .e4m3 =>
      if sat then mx else { FOut.plain (f.nanBits n 1 1) with flags := fNV, gen := true, nan := true }
    | .finite => mx
  | .fin n m e =>
    if m = 0 then FOut.plain (f.signBit n)
    else
      let r := f.roundFin rm n m e
      if r.exceeds then
        match f.kind, sat with
        | .ieee, false =>
          { FOut.plain (f.ieeeOver rm n) with flags := fOF ||| fNX
                                              sat := decide (f.ieeeOver rm n = f.signBit n + f.maxBits) }
        | .e4m3, false => { FOut.plain (f.nanBits n 1 1) with flags := fOF ||| fNX, gen := true, nan := true }
        | _, _ => satOut (f.signBit n + f.maxBits)
      else { FOut.plain r.bits with
               flags := flagIf r.inexact fNX ||| flagIf (r.inexact && r.tiny) fUF, ftz := r.zero }

/-- Conversion of a value to an integer format (R141 to R143). [DEDUCED, log 32] -/
def intConvert (w rm : Nat) (v : FVal) : FOut :=
  let wrap := fun (i : Int) => (i % (2 ^ w : Nat)).toNat
  let hi : Int := 2 ^ (w - 1) - 1
  let lo : Int := - 2 ^ (w - 1)
  match v with
  | .nan _ _ _ => { FOut.plain 0 with flags := fNV, nan := true }
  | .inf n => { FOut.plain (wrap (if n then lo else hi)) with flags := fNV, sat := true }
  | .fin n m e =>
    let r := roundTo rm n m e 0
    let i : Int := if n then -(r.1 : Int) else r.1
    if hi < i then satOut (wrap hi)
    else if i < lo then satOut (wrap lo)
    else { FOut.plain (wrap i) with flags := flagIf r.2 fNX }

/-- Conversion of a value to E8M0 (R144): a finite value raises nothing, be it rounded down to a power of two or
clamped. [DESIGN CHOICE, log 32] -/
def e8m0Convert (v : FVal) : FOut :=
  match v with
  | .nan _ _ _ => { FOut.plain 0xFF with flags := flagIf v.isSig fNV }
  | .inf _ => { FOut.plain 0xFF with flags := fNV, gen := true, nan := true }
  | .fin _ m e =>
    if m = 0 then FOut.plain 0
    else
      let k : Int := e + bitLen m - 1 + 127
      FOut.plain (if k < 0 then 0 else if 0xFE < k then 0xFE else k.toNat)

/-- Conversion of a value to an FP32 pair (R144). [DEDUCED, log 32] -/
def pairConvert (v : FVal) : FOut :=
  let h := fp32.convert 0 false v
  match fp32.decode h.bits with
  | .fin _ _ _ =>
    let l := fp32.finish 0 (exactAdd 0 v (fp32.decode h.bits).negate).val
    { h with bits := h.bits + l.bits * 2 ^ 32 }
  | _ => h

/-- Convert one element (R140 to R144). [DEDUCED, log 32] -/
def convertElem (src dst : CFmt) (scale : Nat) (sat : Bool) (rm x : Nat) : FOut :=
  let v := src.value x
  match dst with
  | .e8m0 => e8m0Convert v
  | .flt f => f.convert rm sat (scaleVal scale src.width dst.width v)
  | .int w => intConvert w rm (scaleVal scale src.width dst.width v)
  | .pair => pairConvert (scaleVal scale src.width dst.width v)

/-- What one source element contributes to the running maximum: an FP32 pattern of sign 0, rounded toward +∞ where it is
wider than FP32, and also where it is an INT32 that FP32 does not hold (R146). [DESIGN CHOICE for INT32, log 32] -/
def amaxOf (src : CFmt) (x : Nat) : Nat :=
  match src.value x with
  | .nan _ _ _ => 0
  | .inf _ => fp32.infBits
  | .fin _ m e => (fp32.finish 2 (.fin false m e)).bits

/-- What a run of converted elements raised together. -/
structure ConvSum where
  flags : FFlags
  gen : Option Nat
  sat : Nat
  ftz : Nat
  nan : Nat
  amax : Nat
  deriving DecidableEq, Repr

/-- Nothing raised. -/
def ConvSum.zero : ConvSum := { flags := 0, gen := none, sat := 0, ftz := 0, nan := 0, amax := 0 }

/-- One more outcome, of element `k`. [DEDUCED, log 32] -/
def ConvSum.add (c : ConvSum) (k : Nat) (o : FOut) (amax : Nat) : ConvSum :=
  { flags := c.flags ||| o.flags, gen := if o.gen then (match c.gen with | none => some k | g => g) else c.gen,
    sat := c.sat + (if o.sat then 1 else 0), ftz := c.ftz + (if o.ftz then 1 else 0),
    nan := c.nan + (if o.nan then 1 else 0), amax := if c.amax < amax then amax else c.amax }

/-- The sum over a list of outcomes, the first being element `k`. -/
def sumOuts : Nat → List FOut → ConvSum → ConvSum
  | _, [], c => c
  | k, o :: r, c => sumOuts (k + 1) r (c.add k o 0)

/-- Elements of `w` bits from a packed bit stream, `n` of them from element `k` (R131). -/
def unpackFrom (x w k : Nat) : Nat → List Nat
  | 0 => []
  | n + 1 => x / 2 ^ (w * k) % 2 ^ w :: unpackFrom x w (k + 1) n

/-- Pack elements of `w` bits from the low end (R131). -/
def packElems (w : Nat) : List Nat → Nat
  | [] => 0
  | x :: r => x % 2 ^ w + 2 ^ w * packElems w r

/-- Convert a run of elements: the results and what they raised (R140 to R146). -/
def convertRun (srcCode dstCode scale : Nat) (sat : Bool) (rm : Nat) (xs : List Nat) : List Nat × ConvSum :=
  match cfmt srcCode, cfmt dstCode with
  | some s, some d =>
    let outs := xs.map fun x => convertElem s d scale sat rm x
    let c := sumOuts 0 outs ConvSum.zero
    let am := if shortCode dstCode then xs.foldl (fun a x => max a (amaxOf s x)) 0 else 0
    (outs.map (·.bits), { c with amax := am })
  | _, _ => ([], ConvSum.zero)

end Sys2Proof.Machine
end

