-- ==== Sys2Proof/Machine/MatrixOps.lean ====
section
/-! DEFINITION. What the matrix unit and the matrix-vector path compute (R132 to R136, R151, R158 to R191). -/

namespace Sys2Proof.Machine

open Sys2Proof

/-! ### Formats (R159, R165, R170) -/

/-- The A-side and W-side element formats of a fmt code. -/
def mFmts (fmt : Nat) : CFmt × CFmt :=
  match fmt with
  | 0 => (.flt bf16, .flt bf16) | 1 => (.flt fp16, .flt fp16) | 2 => (.flt e4m3, .flt e4m3)
  | 3 => (.flt e4m3, .flt e5m2) | 4 => (.flt e5m2, .flt e4m3) | 5 => (.flt e5m2, .flt e5m2)
  | 6 => (.flt e3m2, .flt e3m2) | 7 => (.flt e2m3, .flt e2m3) | 8 => (.flt e2m1, .flt e2m1)
  | 9 => (.int 8, .int 8) | 10 => (.int 4, .int 4) | _ => (.flt fp64, .flt fp64)

/-- Elements along k in one 64-byte tile row; for FP64 the logical K. -/
def mK (fmt : Nat) : Nat :=
  if fmt = 0 ∨ fmt = 1 then 32 else if fmt = 8 ∨ fmt = 10 then 128 else if fmt = 11 then 32 else 64

/-- An integer format without MX accumulates in INT32. -/
def mIsInt (fmt : Nat) (mx : Bool) : Bool := decide (fmt = 10) || (decide (fmt = 9) && ! mx)

/-- An input element: subnormal BF16 and binary16 values are read as zero of the same sign, and whether one was
(R132). -/
def inputVal (c : CFmt) (x : Nat) : FVal × Bool :=
  let v := c.value x
  match c with
  | .flt f =>
    if (f = bf16 || f = fp16) && decide (x / 2 ^ f.mw % 2 ^ f.ew = 0) && decide (x % 2 ^ f.mw ≠ 0) then
      (.fin v.neg? 0 0, true)
    else (v, false)
  | _ => (v, false)

/-! ### Tiles -/

/-- A tile. -/
def TileFile.tile (f : TileFile) (n : Nat) : TileSt := Store.get TileSt.reset f.tiles n

/-- An accumulator. -/
def TileFile.acc (f : TileFile) (n : Nat) : TileSt := Store.get TileSt.reset f.accs n

/-- Replace a tile. -/
def TileFile.setTile (f : TileFile) (n : Nat) (t : TileSt) : TileFile :=
  { f with tiles := Store.set TileSt.reset f.tiles n t }

/-- Replace an accumulator. -/
def TileFile.setAcc (f : TileFile) (n : Nat) (t : TileSt) : TileFile :=
  { f with accs := Store.set TileSt.reset f.accs n t }

/-- A tile or accumulator by its 5-bit code (R169). -/
def TileFile.target (f : TileFile) (code : Nat) : TileSt := if code < 16 then f.tile code else f.acc (code - 16)

/-- Replace a tile or accumulator by its code. -/
def TileFile.setTarget (f : TileFile) (code : Nat) (t : TileSt) : TileFile :=
  if code < 16 then f.setTile code t else f.setAcc (code - 16) t

/-- What an instruction reads: zeros from an empty one (R168). -/
def TileSt.view (t : TileSt) : Mem := if t.empty then Mem.zeros else t.data

/-- The 64 bytes of a tile row as a number. -/
def rowNat (m : Mem) (r : Nat) : Nat := m.readNat (64 * r) 64

/-- The elements of a tile row (R131, R165). -/
def rowElems (c : CFmt) (fmt : Nat) (m : Mem) (r : Nat) : List Nat := unpackFrom (rowNat m r) c.width 0 (mK fmt)

/-! ### A pass -/

/-- The operands of one pass: for each output row the A elements along logical k, for each output column the kept
weights with their logical k, the scales of an MX format, which rows hold a poisoned word, and how many inputs were
flushed. -/
structure Pass where
  aRow : Nat → List FVal
  wTerms : Nat → List (Nat × FVal)
  aScale : Nat → Nat → Nat
  wScale : Nat → Nat → Nat
  aBad : Nat → Bool
  wBad : Nat → Bool
  flushed : Nat
  rows : Nat
  row0 : Nat

/-- The inputs of `n` rows that were flushed. [DEDUCED, log 34] -/
def countFlushed (c : CFmt) (fmt : Nat) (m : Mem) (n : Nat) : Nat :=
  (List.range n).foldl (fun k r => k + ((rowElems c fmt m r).filter fun x => (inputVal c x).2).length) 0

/-- The A elements of row r as values. -/
def aValues (fmt : Nat) (mx : Bool) (ms : List Mem) (r : Nat) : List FVal :=
  let c := (mFmts fmt).1
  ms.flatMap fun m => (rowElems c fmt m r).map fun x =>
    match (inputVal c x).1 with
    | .fin n k e => if mx ∧ fmt = 9 then .fin n k (e - 6) else .fin n k e
    | v => v

/-- The weights of W row j of a dense tile as values with their k. -/
def wDense (fmt : Nat) (mx : Bool) (m : Mem) (j : Nat) : List (Nat × FVal) :=
  let c := (mFmts fmt).2
  ((rowElems c fmt m j).map fun x =>
    match (inputVal c x).1 with
    | .fin n k e => if mx ∧ fmt = 9 then FVal.fin n k (e - 6) else FVal.fin n k e
    | v => v).zipIdx.map fun p => (p.2, p.1)

/-- The kept weights of W row j with the logical k that the metadata row gives (R183). -/
def wSparse (fmt : Nat) (quarter : Bool) (w md : Mem) (j : Nat) : List (Nat × FVal) :=
  let idx := rowNat md j
  (wDense fmt false w j).map fun p =>
    let g := if quarter then p.1 else p.1 / 2
    (4 * g + idx / 2 ^ (2 * p.1) % 4, p.2)

/-- The bytes of a tile row that hold elements: 48 for the 6-bit formats (R165). -/
def rowUsed (fmt : Nat) : Nat := if fmt = 6 ∨ fmt = 7 then 48 else 64

/-- A dense pass of a short or integer format, with the scale tile of an MX format (R167). [DEDUCED, log 34] -/
def densePass (fmt : Nat) (mx : Bool) (a w sc : Mem) : Pass :=
  { aRow := aValues fmt mx [a], wTerms := wDense fmt mx w,
    aScale := fun i b => (sc.byte (64 * b + i)).toNat, wScale := fun j b => (sc.byte (64 * b + 32 + j)).toNat,
    aBad := fun i => a.poisoned (64 * i) (rowUsed fmt) ||
      (mx && (List.range (mK fmt / 32)).any fun b => sc.poisoned (64 * b + i) 1),
    wBad := fun j => w.poisoned (64 * j) (rowUsed fmt) ||
      (mx && (List.range (mK fmt / 32)).any fun b => sc.poisoned (64 * b + 32 + j) 1),
    flushed := countFlushed (mFmts fmt).1 fmt a 32 + countFlushed (mFmts fmt).2 fmt w 32, rows := 32, row0 := 0 }

/-- A sparse pass (R182 to R184). [DEDUCED, log 34] -/
def sparsePass (fmt : Nat) (quarter : Bool) (as : List Mem) (w md : Mem) : Pass :=
  { aRow := aValues fmt false as, wTerms := wSparse fmt quarter w md, aScale := fun _ _ => 127,
    wScale := fun _ _ => 127, aBad := fun i => as.any fun a => a.poisoned (64 * i) 64,
    wBad := fun j => w.poisoned (64 * j) 64 || md.poisoned (64 * j) (mK fmt / 4),
    flushed := as.foldl (fun n a => n + countFlushed (mFmts fmt).1 fmt a 32) 0 + countFlushed (mFmts fmt).2 fmt w 32,
    rows := 32, row0 := 0 }

/-- FP64 element (r, c) of a tile's 8 rows of 32 (R166). -/
def fp64At (m : Mem) (r c : Nat) : Nat := m.readNat (256 * r + 8 * c) 8

/-- One FP64 row step: row i of the A tile against the four W tiles, into FP64 row 8H + i (R166, R176).
[DEDUCED, log 34] -/
def fp64Pass (h i : Nat) (a : Mem) (ws : List Mem) : Pass :=
  { aRow := fun _ => (List.range 32).map fun k => fp64.decode (fp64At a i k),
    wTerms := fun j => (List.range 32).map fun k => (k, fp64.decode (fp64At (ws.getD (j / 8) Mem.zeros) (j % 8) k)),
    aScale := fun _ _ => 127, wScale := fun _ _ => 127,
    aBad := fun _ => a.poisoned (256 * i) 256,
    wBad := fun j => (ws.getD (j / 8) Mem.zeros).poisoned (256 * (j % 8)) 256,
    flushed := 0, rows := 1, row0 := 8 * h + i }

/-- How the products of a pass are accumulated. -/
inductive AccKind where
  | f32 | pair | int | f64
  deriving DecidableEq, Repr

/-- An accumulator element on its way: its bits (the h and l words of a pair), the flags of R136 or of an FP64
operation, and the products that underflowed to zero. -/
structure MElem where
  x : Nat
  y : Nat
  flags : FFlags
  ftz : Nat
  deriving DecidableEq, Repr

/-- Only NV of a generated NaN and OF survive from a short-format step (R136). -/
def shortFlags (o : FOut) : FFlags := (o.flags &&& fOF) ||| flagIf o.gen fNV

/-- Add an exact contribution into an element (R132, R134, R149). -/
def addInto (k : AccKind) (rm : Nat) (p : FRes) (z : MElem) : MElem :=
  match k with
  | .f32 =>
    let o := fp32.out 0 (match firstNan [p.val, fp32.decode z.x] with
      | some r => r
      | none => exactAdd 0 p.val (fp32.decode z.x))
    { z with x := o.bits, flags := z.flags ||| shortFlags o ||| flagIf p.gen fNV, ftz := z.ftz + b2n o.ftz }
  | .f64 =>
    let o := fp64.out rm (exactAdd rm p.val (fp64.decode z.x))
    { z with x := o.bits, flags := z.flags ||| o.flags ||| p.flags, ftz := z.ftz + b2n o.ftz }
  | .pair =>
    let q := pairAcc p z.x z.y
    { z with x := q.h, y := q.l, flags := z.flags ||| (q.flags &&& fOF) ||| flagIf (q.gen || p.gen) fNV
             ftz := z.ftz + b2n q.ftz }
  | .int => z

/-- One product into an element: exact, then one rounding (R132); FP64 is one fused multiply-add (R128). -/
def macOne (k : AccKind) (rm : Nat) (a w : FVal) (z : MElem) : MElem :=
  match k with
  | .int =>
    let i : Int := (match a with | .fin n m e => (if n then -1 else 1) * (scaleNat m e : Int) | _ => 0) *
      (match w with | .fin n m e => (if n then -1 else 1) * (scaleNat m e : Int) | _ => 0)
    { z with x := ((z.x + i) % (2 ^ 32 : Nat)).toNat }
  | .f64 =>
    let o := fp64.out rm (exactFma rm a w (fp64.decode z.x))
    { z with x := o.bits, flags := z.flags ||| o.flags, ftz := z.ftz + b2n o.ftz }
  | _ => addInto k rm (exactMul a w) z

/-- The exact sum of one MX block pair, scaled (R134). [DEDUCED, log 34] -/
def mxBlock (ts : List (FVal × FVal)) (sa sb : Nat) : FRes :=
  if sa = 0xFF ∨ sb = 0xFF then { val := canonNan, flags := 0, gen := false }
  else
    let r := ts.foldl (fun (r : FRes) p =>
        let m := exactMul p.1 p.2
        let q := exactAdd 0 r.val m.val
        { val := q.val, flags := r.flags ||| m.flags ||| q.flags, gen := r.gen || m.gen || q.gen })
      { val := .fin false 0 0, flags := 0, gen := false }
    match r.val with
    | .fin n m e => { r with val := .fin n m (e + (sa : Int) - 127 + (sb : Int) - 127) }
    | _ => r

/-- The terms of output (i, j) in ascending logical order. -/
def Pass.terms (p : Pass) (i j : Nat) : List (FVal × FVal) :=
  let a := p.aRow i
  (p.wTerms j).map fun t => (a.getD t.1 (.fin false 0 0), t.2)

/-- Lists of 32. -/
def blocks32 {α : Type} : Nat → List α → List (List α)
  | 0, _ => []
  | n + 1, xs => if xs.isEmpty then [] else xs.take 32 :: blocks32 n (xs.drop 32)

/-- Accumulate output (i, j) of a pass into an element. -/
def Pass.accumulate (p : Pass) (k : AccKind) (mx : Bool) (rm i j : Nat) (z : MElem) : MElem :=
  let ts := p.terms i j
  if mx then
    ((blocks32 8 ts).zipIdx).foldl (fun z b => addInto k rm (mxBlock b.1 (p.aScale i b.2) (p.wScale j b.2)) z) z
  else ts.foldl (fun z t => macOne k rm t.1 t.2 z) z

/-- Whether an operand of output (i, j) is a NaN; the scales are those of the blocks of 32 that the row has (R167). -/
def Pass.nanIn (p : Pass) (mx : Bool) (i j : Nat) : Bool :=
  (p.terms i j).any (fun t => t.1.isNan || t.2.isNan) ||
  (mx && (List.range ((p.terms i j).length / 32)).any fun b => decide (p.aScale i b = 0xFF) || decide (p.wScale j b = 0xFF))

/-! ### Accumulators -/

/-- The byte offset of element (r, c) of an accumulator, in its FP32 or FP64 view (R160, R166). -/
def accOffset (k : AccKind) (r c : Nat) : Nat := if k = .f64 then 256 * r + 8 * c else 128 * r + 4 * c

/-- The bytes of an element. -/
def accBytes (k : AccKind) : Nat := if k = .f64 then 8 else 4

/-- What a run of accumulator elements raised: flags, the lowest generated NaN, the counts, and the words to poison. -/
structure MSum where
  flags : FFlags
  gen : Option Nat
  ftz : Nat
  nan : Nat
  deriving DecidableEq, Repr

/-- Nothing raised. -/
def MSum.zero : MSum := { flags := 0, gen := none, ftz := 0, nan := 0 }

/-- Both together. -/
def MSum.add (a b : MSum) : MSum :=
  { flags := a.flags ||| b.flags, gen := (match a.gen with | none => b.gen | g => g), ftz := a.ftz + b.ftz,
    nan := a.nan + b.nan }

/-- Whether an accumulator element is a NaN. -/
def elemNan (k : AccKind) (x y : Nat) : Bool :=
  match k with
  | .f32 => (fp32.decode x).isNan
  | .f64 => (fp64.decode x).isNan
  | .pair => anyNan32' x y
  | .int => false
where
  /-- Either word of a pair is a NaN. -/
  anyNan32' (x y : Nat) : Bool := (fp32.decode x).isNan || (fp32.decode y).isNan

/-- Write an element and its poison; a clean write keeps the poison of its word's other element. -/
def writeElem (m : Mem) (off n x : Nat) (bad : Bool) : Mem :=
  let m := m.write off (leBytes n x)
  if bad then m.poisonWord off else if n = 8 then m.cure off 8 else m

/-- One output element of a pass into the accumulator views (the second is the odd partner of a pair). -/
def Pass.element (p : Pass) (k : AccKind) (mx : Bool) (rm : Nat) (ms : Mem × Mem × MSum) (i j : Nat) :
    Mem × Mem × MSum :=
  let r := p.row0 + i
  let off := accOffset k r j
  let n := accBytes k
  let x := ms.1.readNat off n
  let y := if k = .pair then ms.2.1.readNat off 4 else 0
  let z := p.accumulate k mx rm i j { x := x, y := y, flags := 0, ftz := 0 }
  let gen := elemNan k z.x z.y && ! elemNan k x y && ! p.nanIn mx i j
  let bad := p.aBad i || p.wBad j || ms.1.poisoned off n || (k = .pair && ms.2.1.poisoned off 4)
  (writeElem ms.1 off n z.x bad, if k = .pair then writeElem ms.2.1 off 4 z.y bad else ms.2.1,
   ms.2.2.add { flags := z.flags, gen := if gen then some (32 * r + j) else none, ftz := z.ftz, nan := b2n gen })

/-- A whole pass (R176): the accumulator, its odd partner and what the pass raised. [DEDUCED, log 34] -/
def Pass.run (p : Pass) (k : AccKind) (mx : Bool) (rm : Nat) (h l : Mem) : Mem × Mem × MSum :=
  (List.range p.rows).foldl (fun ms i => (List.range 32).foldl (fun ms j => p.element k mx rm ms i j) ms)
    (h, l, { MSum.zero with ftz := p.flushed })

/-! ### Checksums (R185) -/

/-- The class of an accumulation. -/
def AccKind.cls : AccKind → ChkClass
  | .f32 => .fp32
  | .pair => .pair
  | .int => .int32
  | .f64 => .fp64

/-- One addition in the class's arithmetic. [DEDUCED, log 34] -/
def chkAdd (c : ChkClass) (a b : Nat) : Nat :=
  match c with
  | .fp32 => (fp32.add 0 a b).bits
  | .int32 => (a + b) % 2 ^ 32
  | _ => (fp64.add 0 a b).bits

/-- An exact value rounded into the class. -/
def chkOf (c : ChkClass) (v : FVal) : Nat :=
  match c with
  | .fp32 => (fp32.finish 0 v).bits
  | .int32 => (match v with | .fin n m e => (((if n then -1 else 1) * (scaleNat m e : Int)) % (2 ^ 32 : Nat)).toNat | _ => 0)
  | _ => (fp64.finish 0 v).bits

/-- The value of a sum in the class. -/
def chkVal (c : ChkClass) (x : Nat) : FVal :=
  match c with
  | .fp32 => fp32.decode x
  | .int32 => (CFmt.int 32).value x
  | _ => fp64.decode x

/-- A product added in the class's arithmetic. -/
def chkMac (c : ChkClass) (z : Nat) (a w : FVal) : Nat :=
  match c with
  | .int32 => chkAdd c z (chkOf c (exactMul a w).val)
  | .fp32 => (fp32.out 0 (exactFma 0 a w (fp32.decode z))).bits
  | _ => (fp64.out 0 (exactFma 0 a w (fp64.decode z))).bits

/-- A scaled MX element's value; other elements are their value. -/
def scaled (mx : Bool) (s : Nat) (v : FVal) : FVal :=
  if ! mx then v
  else if s = 0xFF then canonNan
  else match v with
    | .fin n m e => .fin n m (e + (s : Int) - 127)
    | v => v

/-- w_k = Σ_j W[k][j] in ascending j (R185). -/
def Pass.weightSum (p : Pass) (c : ChkClass) (mx : Bool) (k : Nat) : Nat :=
  (List.range 32).foldl (fun z j =>
    (p.wTerms j).foldl (fun z t =>
      if t.1 = k then chkAdd c z (chkOf c (scaled mx (p.wScale j (k / 32)) t.2)) else z) z) 0

/-- r_i = Σ_k A[i][k] · w_k in ascending k. -/
def Pass.rowCheck (p : Pass) (c : ChkClass) (mx : Bool) (ws : List Nat) (i : Nat) : Nat :=
  ((p.aRow i).zipIdx).foldl (fun z a =>
    chkMac c z (scaled mx (p.aScale i (a.2 / 32)) a.1) (chkVal c (ws.getD a.2 0))) 0

/-- The pass's contribution to output (i, j), summed in the class's arithmetic in ascending k. -/
def Pass.contribution (p : Pass) (c : ChkClass) (mx : Bool) (i j : Nat) : Nat :=
  ((p.wTerms j).map (·.1)).zip (p.terms i j) |>.foldl (fun z t =>
    chkMac c z (scaled mx (p.aScale i (t.1 / 32)) t.2.1) (scaled mx (p.wScale j (t.1 / 32)) t.2.2)) 0

/-- A row or column sum increased. -/
def bumpSum (c : ChkClass) (st : Store DWord) (k x : Nat) : Store DWord :=
  Store.set 0 st k (BitVec.ofNat 64 (chkAdd c (Store.get (0 : DWord) st k).toNat x))

/-- Checksums made invalid. -/
def Checksum.invalidate (c : Checksum) : Checksum := { c with valid := false }

/-- Checksums at zero, valid, their class open (R175, R185). -/
def Checksum.cleared : Checksum := { valid := true, cls := none, rows := [], cols := [] }

/-- A sum from zero in the class's arithmetic. -/
def chkSum (c : ChkClass) (xs : List Nat) : Nat := xs.foldl (chkAdd c) 0

/-- The checksum state after a pass (R185): another class makes it invalid; the sums of the pass are formed first and
then added. -/
def Checksum.pass (c : Checksum) (p : Pass) (k : AccKind) (mx : Bool) (kLen : Nat) : Checksum :=
  let cl := k.cls
  if ! c.valid then c
  else if c.cls.isSome && decide (c.cls ≠ some cl) then c.invalidate
  else
    let ws := (List.range kLen).map (p.weightSum cl mx)
    let rs := (List.range p.rows).map (p.rowCheck cl mx ws)
    let rows := (rs.zipIdx).foldl (fun st r => bumpSum cl st (p.row0 + r.2) r.1) c.rows
    let cols := (List.range 32).foldl (fun st j =>
      bumpSum cl st j (chkSum cl ((List.range p.rows).map fun i => p.contribution cl mx i j))) c.cols
    { c with cls := some cl, rows := rows, cols := bumpSum cl cols 32 (chkSum cl rs) }

/-! ### `mchk` (R186, R187) -/

/-- 2^k as an FP64 value. -/
def pow2 (k : Int) : FVal := .fin false 1 k

/-- The magnitude of a value. -/
def FVal.mag : FVal → FVal
  | .nan n f w => .nan n f w
  | .inf _ => .inf false
  | .fin _ m e => .fin false m e

/-- The FP64 sum of values in their order. -/
def sum64 (xs : List FVal) : FVal := xs.foldl (fun z v => fp64.decode (fp64.out 0 (exactAdd 0 z v)).bits) (.fin false 0 0)

/-- Whether a floating-point line mismatches (R187). -/
def lineBad (tol : Word) (elems : List FVal) (chk : FVal) : Bool :=
  let total := sum64 elems
  if total.isNan || chk.isNan then ! (total.isNan && chk.isNan)
  else
    let r := fun (x : FRes) => fp64.decode (fp64.out 0 x).bits
    let diff := (r (exactAdd 0 total chk.negate)).mag
    let m := r (exactAdd 0 (sum64 (elems.map FVal.mag)) chk.mag)
    let rel := if fld tol 7 0 = 0 then FVal.fin false 0 0 else r (exactMul (pow2 (- (fld tol 7 0 : Int))) m)
    let bound := r (exactAdd 0 rel (pow2 ((fld tol 15 8 : Int) - 127)))
    diff.isNan || bound.less diff

/-- Whether an integer line mismatches: any difference (R187). -/
def lineBadInt (elems : List FVal) (chk : Nat) : Bool :=
  decide (chkSum .int32 (elems.map (chkOf .int32)) ≠ chk % 2 ^ 32)

/-- The rows that an accumulator's class compares. -/
def chkRows (c : ChkClass) : Nat := if c = .fp64 then 16 else 32

/-- Element (r, j) of an accumulator (R186): the FP64 view in the FP64 class; with P = 1 fl64(h + l) of it and its odd
partner. What P = 1 reads in the INT32 class, whose totals are integers, the spec does not state: a free word.
[DESIGN CHOICE, log 34] -/
def chkElem (c : ChkClass) (pair : Bool) (h l : Mem) (r j : Nat) : FVal :=
  let x := h.readNat (128 * r + 4 * j) 4
  let y := l.readNat (128 * r + 4 * j) 4
  match c with
  | .fp64 => fp64.decode (h.readNat (256 * r + 8 * j) 8)
  | .int32 => (CFmt.int 32).value (if pair then (Config.pairInteger x y).toNat else x)
  | _ => if pair then fp64.decode (fp64.finish 0 (pairVal x y)).bits else fp32.decode x

/-- Whether one line, its elements against its checksum, mismatches. -/
def chkLine (c : ChkClass) (tol : Word) (xs : List FVal) (sum : Nat) : Bool :=
  match c with
  | .int32 => lineBadInt xs sum
  | _ => lineBad tol xs (chkVal c sum)

/-- The check word (R186). -/
def checkWord (ck : Checksum) (pair : Bool) (h l : Mem) (acc : BitVec 3) (tol : Word) (thread : BitVec 2) : Word :=
  match ck.valid, ck.cls with
  | false, _ => BitVec.ofNat 32 (2 + acc.toNat * 4 + 63 * 2 ^ 5 + 63 * 2 ^ 11 + thread.toNat * 2 ^ 29)
  | true, cl? =>
    let cl := cl?.getD .fp32
    let n := chkRows cl
    let row := fun r => (Store.get (0 : DWord) ck.rows r).toNat
    let col := fun j => (Store.get (0 : DWord) ck.cols j).toNat
    let badR := (List.range n).filter fun r => chkLine cl tol ((List.range 32).map fun j => chkElem cl pair h l r j) (row r)
    let badC := (List.range 32).filter fun j => chkLine cl tol ((List.range n).map fun r => chkElem cl pair h l r j) (col j)
    let badC := if chkLine cl tol ((List.range n).map fun r => chkVal cl (row r)) (col 32) then badC ++ [32] else badC
    let mis := ! badR.isEmpty || ! badC.isEmpty
    BitVec.ofNat 32 (b2n mis + acc.toNat * 4 + badR.headD 63 * 2 ^ 5 + badC.headD 63 * 2 ^ 11 + badR.length * 2 ^ 17 +
      badC.length * 2 ^ 23 + thread.toNat * 2 ^ 29)

/-! ### The matrix-vector path (R189, R190) -/

/-- The bytes of one element of M. -/
def mvWidth (fmt : Nat) : Nat := if fmt = 11 then 8 else if fmt = 0 ∨ fmt = 1 then 2 else 1

/-- The accumulation of a format on the path. -/
def mvKind (fmt : Nat) : AccKind := if fmt = 11 then .f64 else if fmt = 9 then .int else .f32

/-- Element `n` of the x array that begins at tile `t` (R189). -/
def xElem (f : TileFile) (t fmt n : Nat) : Nat :=
  let w := mvWidth fmt
  let b := n * w
  (f.tile (t + b / 2048)).data.readNat (b % 2048) w

/-- Whether element `n` of the x array lies in a poisoned word. -/
def xPoison (f : TileFile) (t fmt n : Nat) : Bool :=
  let w := mvWidth fmt
  let b := n * w
  (f.tile (t + b / 2048)).data.poisoned (b % 2048) w

/-- The x tiles that an instruction reads. -/
def xTiles (t fmt xoff n : Nat) : List Nat :=
  let w := mvWidth fmt
  let lo := xoff * w / 2048
  let hi := ((xoff + n) * w - 1) / 2048
  (List.range (hi - lo + 1)).map fun k => t + lo + k

/-- The value of a result's bits on the path. -/
def mvVal (k : AccKind) (x : Nat) : FVal :=
  match k with
  | .f64 => fp64.decode x
  | .int => (CFmt.int 32).value x
  | _ => fp32.decode x

/-- A node of the path's tree: FP32 rounds to nearest-even, FP64 by `RMODE`, integers wrap (R190). -/
def mvAdd (k : AccKind) (rm : Nat) (a b : FVal) : FOut :=
  match k with
  | .f64 => fp64.out rm (exactAdd rm a b)
  | .int => FOut.plain ((chkOf .int32 a + chkOf .int32 b) % 2 ^ 32)
  | _ => fp32.out 0 (exactAdd 0 a b)

/-- A product of the path: exact for short formats, a separate rounding for FP64 (R128, R132). -/
def mvMul (k : AccKind) (rm : Nat) (m x : FVal) : FVal × FFlags × Nat :=
  match k with
  | .f64 =>
    let o := fp64.out rm (exactMul m x)
    (fp64.decode o.bits, o.flags, b2n o.ftz)
  | _ => ((exactMul m x).val, 0, 0)

/-- One level of the tree over values. -/
def mvLevel (k : AccKind) (rm : Nat) : List FVal → List FOut
  | a :: b :: r => mvAdd k rm a b :: mvLevel k rm r
  | _ => []

/-- The sum of a chunk's products, a power of two of them, by the binary tree (R63, R190). -/
def chunkTree (k : AccKind) (rm : Nat) : Nat → List FVal → FVal × FFlags × Nat
  | 0, xs => (xs.headD (.fin false 0 0), 0, 0)
  | n + 1, xs =>
    if xs.length ≤ 1 then (xs.headD (.fin false 0 0), 0, 0)
    else
      let os := mvLevel k rm xs
      let r := chunkTree k rm n (os.map fun o => mvVal k o.bits)
      (r.1, os.foldl (fun f o => f ||| o.flags) r.2.1, os.foldl (fun c o => c + b2n o.ftz) r.2.2)

/-- Lists of `c`. -/
def chunksOf {α : Type} (c : Nat) : Nat → List α → List (List α)
  | 0, _ => []
  | n + 1, xs => if xs.isEmpty then [] else xs.take c :: chunksOf c n (xs.drop c)

/-- Pad a chunk with zero products. -/
def padTo (n : Nat) (xs : List FVal) : List FVal := xs ++ List.replicate (n - xs.length) (.fin false 0 0)

/-- One row's total: chunks in ascending order, each by the tree (R190); with its flags and its underflows to zero. -/
def mvRow (fmt rm : Nat) (ms xs : List FVal) : FVal × FFlags × Nat :=
  let k := mvKind fmt
  let c := 64 / mvWidth fmt
  let ps := (ms.zip xs).map fun p => mvMul k rm p.1 p.2
  let start : FVal × FFlags × Nat :=
    (.fin false 0 0, ps.foldl (fun f o => f ||| o.2.1) 0, ps.foldl (fun n o => n + o.2.2) 0)
  (chunksOf c (ps.length + 1) (ps.map (·.1))).zipIdx.foldl (fun (z : FVal × FFlags × Nat) ch =>
      let t := chunkTree k rm 7 (padTo c ch.1)
      if ch.2 = 0 then (t.1, z.2.1 ||| t.2.1, z.2.2 + t.2.2)
      else
        let o := mvAdd k rm z.1 t.1
        (mvVal k o.bits, z.2.1 ||| t.2.1 ||| o.flags, z.2.2 + t.2.2 + b2n o.ftz)) start

end Sys2Proof.Machine
end

