-- ==== Sys2Proof/Machine/VectorOps.lean ====
section
/-! DEFINITION. What the vector unit computes, lane by lane (R62, R63, R65, R125 to R127, R137 to R149). -/

namespace Sys2Proof.Machine

open Sys2Proof

/-! ### Lanes (R62) -/

/-- The width of a lane by type code. -/
def laneW (ty : BitVec 3) : Nat :=
  match ty.toNat with
  | 0 => 64 | 1 => 32 | 2 => 16 | 3 => 16 | 4 => 32 | 5 => 16 | 6 => 8 | _ => 64

/-- The floating-point format of a type code; none for the integer types and the pair. -/
def laneFmt (ty : BitVec 3) : Option Fmt :=
  match ty.toNat with
  | 0 => some fp64 | 1 => some fp32 | 2 => some bf16 | 3 => some fp16 | _ => none

/-- The integer types. -/
def tyInt (ty : BitVec 3) : Bool := ty = 4 || ty = 5 || ty = 6

/-- The pair type. -/
def tyPair (ty : BitVec 3) : Bool := ty = 7

/-- The number of lanes. -/
def laneCount (ty : BitVec 3) : Nat := 512 / laneW ty

/-- The lanes of a vector register, lane 0 first. -/
def lanesOf (ty : BitVec 3) (x : VReg) : List Nat := unpackFrom x.toNat (laneW ty) 0 (laneCount ty)

/-- A vector register from its lanes. -/
def ofLanes (ty : BitVec 3) (xs : List Nat) : VReg := BitVec.ofNat 512 (packElems (laneW ty) xs)

/-- Lane `k`. -/
def laneAt (ty : BitVec 3) (x : VReg) (k : Nat) : Nat := x.toNat / 2 ^ (laneW ty * k) % 2 ^ laneW ty

/-- What a vector instruction delivers: vd, a g register, and what its elements raised. -/
structure VOut where
  v : VReg
  g : Word
  sum : ConvSum
  deriving DecidableEq, Repr

/-- A result that raises nothing. -/
def VOut.quiet (v : VReg) : VOut := { v := v, g := 0, sum := ConvSum.zero }

/-- A result from the outcomes of its lanes. -/
def VOut.ofOuts (ty : BitVec 3) (os : List FOut) : VOut :=
  { v := ofLanes ty (os.map (·.bits)), g := 0, sum := sumOuts 0 os ConvSum.zero }

/-! ### One lane of an arithmetic operation -/

/-- An operation's number for the free pair results. -/
def VOp.num : VOp → Nat
  | .add => 0 | .sub => 1 | .mul => 2 | .div => 3 | .sqrt => 4 | .min => 5 | .max => 6 | .abs => 7 | .neg => 8
  | .and => 9 | .or => 10 | .xor => 11 | .shl => 12 | .shr => 13 | .sar => 14
  | .fma => 15 | .fms => 16 | .fnma => 17 | .fmaP => 18
  | .ceq => 19 | .cne => 20 | .clt => 21 | .cle => 22 | .cun => 23 | .sel => 24
  | .bcast => 25 | .ext => 26 | .ins => 27 | .perm => 28 | .rot => 29 | .zip => 30 | .unzip => 31 | .mov => 32
  | .zero => 33 | .gather => 34 | .scatter => 35 | .cvt => 36
  | .radd => 37 | .rmax => 38 | .rmin => 39 | .dot => 40

/-- A number wrapped to `w` bits (R125). -/
def wrapInt (w : Nat) (i : Int) : Nat := (i % (2 ^ w : Nat)).toNat

/-- All ones where a comparison holds, else zero. -/
def maskLane (w : Nat) (b : Bool) : Nat := if b then 2 ^ w - 1 else 0

/-- A shift of a lane; an amount of the lane's width or more has no stated result. -/
def shiftLane (kind w x n : Nat) : Nat :=
  if w ≤ n then Config.wideShift kind w x n
  else
    match kind with
    | 0 => x * 2 ^ n % 2 ^ w
    | 1 => x / 2 ^ n
    | _ => wrapInt w (signedOf w x / 2 ^ n)

/-- One integer lane. -/
def intLane (op : VOp) (w a b : Nat) : Nat :=
  let x := signedOf w a
  let y := signedOf w b
  match op with
  | .add => wrapInt w (x + y)
  | .sub => wrapInt w (x - y)
  | .mul => wrapInt w (x * y)
  | .min => if x ≤ y then a else b
  | .max => if x ≤ y then b else a
  | .abs => wrapInt w (if x < 0 then -x else x)
  | .neg => wrapInt w (-x)
  | .shl => shiftLane 0 w a b
  | .shr => shiftLane 1 w a b
  | .sar => shiftLane 2 w a b
  | .ceq => maskLane w (decide (a = b))
  | .cne => maskLane w (decide (a ≠ b))
  | .clt => maskLane w (decide (x < y))
  | .cle => maskLane w (decide (x ≤ y))
  | _ => a

/-- A comparison of two floating-point values in lanes of `w` bits: the mask and NV (R65, R125). -/
def cmpLane (op : VOp) (w : Nat) (x y : FVal) : FOut :=
  let un := x.isNan || y.isNan
  let sg := x.isSig || y.isSig
  let r :=
    match op with
    | .ceq => ! un && x.same y
    | .cne => un || ! x.same y
    | .clt => ! un && x.less y
    | .cle => ! un && (x.less y || x.same y)
    | _ => un
  let ordered := (match op with | .clt => true | .cle => true | _ => false)
  { FOut.plain (maskLane w r) with
      flags := flagIf (sg || (ordered && un && Config.orderedCompareSignals)) fNV }

/-- One floating-point lane; `a`, `b`, `d` are the lanes of va, vb, vd. -/
def floatLane (op : VOp) (f : Fmt) (rm a b d : Nat) : FOut :=
  match op with
  | .add => f.add rm a b
  | .sub => f.sub rm a b
  | .mul => f.mul rm a b
  | .div => f.div rm a b
  | .sqrt => f.sqrt rm a
  | .min => f.minmax false a b
  | .max => f.minmax true a b
  | .abs => FOut.plain (a % 2 ^ (f.ew + f.mw))
  | .neg => FOut.plain (a ^^^ 2 ^ (f.ew + f.mw))
  | .fma => f.fma rm false false a b d
  | .fms => f.fma rm false true a b d
  | .fnma => f.fma rm true false a b d
  | .ceq | .cne | .clt | .cle | .cun => cmpLane op (1 + f.ew + f.mw) (f.decode a) (f.decode b)
  | _ => FOut.plain a

/-- A pair's outcome as one 64-bit lane: h in the low half (R62). [DEDUCED, log 31] -/
def pairOut (p : PairOut) : FOut :=
  { FOut.plain (p.h + p.l * 2 ^ 32) with flags := p.flags, gen := p.gen, nan := p.gen, ftz := p.ftz }

/-- The sign of an FP32 value flipped, a NaN kept. -/
def flip32 (x : Nat) : Nat := if (fp32.decode x).isNan then x else x ^^^ 2 ^ 31

/-- Whether any of the FP32 words is a NaN. -/
def anyNan32 (xs : List Nat) : Bool := xs.any fun x => (fp32.decode x).isNan

/-- The pair lane (h, l), brought to normal form where it is not (R148). [DEDUCED, log 31] -/
def pairNorm (h l : Nat) : Nat :=
  let v := pairVal h l
  if (fp32.finish 0 v).bits = h then h + l * 2 ^ 32 else (pairConvert v).bits

/-- A result on pairs from its exact value. A NaN, an infinity and a zero are determined; of another number the spec
states the sign, the normal form (R148) and nothing else: its pair is a free value, and so are the flags that its rounding
raises. [DESIGN CHOICE, log 31] -/
def pairRounded (op : VOp) (a b d : Nat) (r : FRes) : FOut :=
  match r.val with
  | .fin n m _ =>
    if m = 0 then { FOut.plain (fp32.signBit n) with flags := r.flags }
    else
      let x := Config.pairLane op.num a b d
      let v :=
        match pairVal (x % 2 ^ 32) (x / 2 ^ 32 % 2 ^ 32) with
        | .fin _ k e => FVal.fin n k e
        | _ => .inf n
      { FOut.plain (pairConvert v).bits with
          flags := r.flags ||| (Config.pairFlags op.num a b d &&& (fOF ||| fUF ||| fNX)), ftz := v.isZero }
  | v => { FOut.plain (pairConvert v).bits with flags := r.flags, gen := r.gen, nan := r.gen }

/-- One pair lane: addition and subtraction by R149, `vfma.p` by R149; minimum, maximum, comparisons and signs by the
value h + l; the others rounded from their exact value. [DEDUCED, log 31] -/
def pairLane (op : VOp) (a b d : Nat) : FOut :=
  let lo := fun (x : Nat) => x % 2 ^ 32
  let hi := fun (x : Nat) => x / 2 ^ 32
  let val := fun (x : Nat) => pairVal (lo x) (hi x)
  let flipped := fun (x : Nat) => pairNorm (lo x ^^^ 2 ^ 31) (hi x ^^^ 2 ^ 31)
  let rounded := pairRounded op a b d
  match op with
  | .add => pairOut (pairAdd (lo a) (hi a) (lo b) (hi b))
  | .sub => pairOut (pairAdd (lo a) (hi a) (flip32 (lo b)) (flip32 (hi b)))
  | .fmaP => pairOut (pairAcc (exactMul (fp32.decode (lo a)) (fp32.decode (lo b))) (lo d) (hi d))
  | .min | .max =>
    let r := exactMinMax (decide (op = .max)) (val a) (val b)
    { FOut.plain (pairConvert r.val).bits with flags := r.flags }
  | .abs => FOut.plain (if 2 ^ 31 ≤ lo a then flipped a else pairNorm (lo a) (hi a))
  | .neg => FOut.plain (flipped a)
  | .ceq | .cne | .clt | .cle | .cun => cmpLane op 64 (val a) (val b)
  | .mul => rounded (exactMul (val a) (val b))
  | .div => rounded (exactDiv 48 (val a) (val b))
  | .sqrt => rounded (exactSqrt 48 (val a))
  | .fma => rounded (exactFma 0 (val a) (val b) (val d))
  | .fms => rounded (exactFma 0 (val a) (val b) (val d).negate)
  | .fnma => rounded (exactFma 0 (val a).negate (val b) (val d))
  | _ => FOut.plain (Config.pairLane op.num a b d)

/-- One lane of an operation under its type. -/
def lane (op : VOp) (ty : BitVec 3) (rm a b d : Nat) : FOut :=
  if decide (op = .fmaP) || tyPair ty then pairLane op a b d
  else
    match laneFmt ty with
    | some f => floatLane op f rm a b d
    | none => FOut.plain (intLane op (laneW ty) a b)

/-! ### Reductions (R63) -/

/-- One level of the binary tree: lane 2k with lane 2k + 1. -/
def pairUp (f : Nat → Nat → FOut) : List Nat → List FOut
  | a :: b :: r => f a b :: pairUp f r
  | [a] => [FOut.plain a]
  | [] => []

/-- The binary tree: the last value and what every node raised; the number bounds the levels. [DEDUCED, log 31] -/
def treeReduce (f : Nat → Nat → FOut) : Nat → List Nat → Nat × ConvSum
  | 0, xs => (xs.headD 0, ConvSum.zero)
  | n + 1, xs =>
    match xs with
    | [] => (0, ConvSum.zero)
    | [x] => (x, ConvSum.zero)
    | _ =>
      let os := pairUp f xs
      let r := treeReduce f n (os.map (·.bits))
      (r.1, sumOuts 0 os r.2)

/-- Whether a lane holds a NaN. -/
def laneNan (ty : BitVec 3) (x : Nat) : Bool :=
  match laneFmt ty with
  | some f => (f.decode x).isNan
  | none => tyPair ty && anyNan32 [x % 2 ^ 32, x / 2 ^ 32]

/-- A reduction's result in lane 0, the other lanes zero; it generates a NaN where no source lane was one (R63, R153).
[DEDUCED, log 31] -/
def reduceOut (ty : BitVec 3) (src : List Nat) (extra : ConvSum) (r : Nat × ConvSum) : VOut :=
  let gen := laneNan ty r.1 && ! src.any (laneNan ty)
  { v := BitVec.ofNat 512 (r.1 % 2 ^ laneW ty), g := 0,
    sum := { r.2 with flags := r.2.flags ||| extra.flags, gen := if gen then some 0 else none,
                      ftz := r.2.ftz + extra.ftz, nan := if gen then 1 else 0 } }

/-- The operation at the nodes of a reduction. [DEDUCED, log 31] -/
def reduceNode (op : VOp) (ty : BitVec 3) (rm : Nat) (a b : Nat) : FOut :=
  match op with
  | .rmax => lane .max ty rm a b 0
  | .rmin => lane .min ty rm a b 0
  | _ => lane .add ty rm a b 0

/-! ### Whole registers -/

/-- The bits of all lanes combined by a whole-register operation. -/
def bitwise (op : VOp) (a b : VReg) : VReg :=
  match op with
  | .and => a &&& b
  | .or => a ||| b
  | .xor => a ^^^ b
  | .mov => a
  | _ => 0

/-- Replace element `k` of a list. -/
def setAt (xs : List Nat) (k x : Nat) : List Nat := xs.zipIdx.map fun p => if p.2 = k then x else p.1

/-- A g register as a lane. -/
def laneOfG (ty : BitVec 3) (x : Word) : Nat :=
  if laneW ty = 64 then Config.wideLane x else x.toNat % 2 ^ laneW ty

/-- A lane as a g register: 32 bits are the lane; the bits above a narrower lane are free. -/
def gOfLane (ty : BitVec 3) (x : Nat) : Word :=
  let w := laneW ty
  if w = 32 then BitVec.ofNat 32 x
  else if w = 64 then Config.extWord 64 x
  else BitVec.ofNat 32 (x + (Config.extWord w x).toNat / 2 ^ w * 2 ^ w)

/-- The permute group of major 0x2B (R65); `x` is the g register, read at issue. -/
def permuteOut (op : VOp) (ty : BitVec 3) (va vb vd : VReg) (x : Word) : VOut :=
  let n := laneCount ty
  let k := fld vb 5 0
  let as := lanesOf ty va
  match op with
  | .bcast => VOut.quiet (ofLanes ty (List.replicate n (laneOfG ty x)))
  | .ext => { VOut.quiet vd with g := if k < n then gOfLane ty (laneAt ty va k) else Config.extBeyond va k }
  | .ins =>
    VOut.quiet (if k < n then ofLanes ty (setAt (lanesOf ty vd) k (laneOfG ty x)) else Config.insBeyond vd x k)
  | .perm => VOut.quiet (ofLanes ty ((lanesOf ty vb).map fun j => if j < n then as.getD j 0 else Config.permBeyond va j))
  | .rot =>
    VOut.quiet (ofLanes ty ((List.range n).map fun i =>
      as.getD (if Config.rotDown then (i + k) % n else (i + n - k % n) % n) 0))
  | .zip => VOut.quiet (Config.zip ty va vb)
  | .unzip => VOut.quiet (Config.unzip ty va vb)
  | _ => VOut.quiet (bitwise op va vb)

/-- `vsel`: the mask lane of vd chooses va or vb (R65). -/
def selOut (ty : BitVec 3) (va vb vd : VReg) : VOut :=
  let w := laneW ty
  VOut.quiet (ofLanes ty ((List.range (laneCount ty)).map fun i =>
    let m := laneAt ty vd i
    if m = 2 ^ w - 1 then laneAt ty va i
    else if m = 0 then laneAt ty vb i
    else Config.selMixed w m (laneAt ty va i) (laneAt ty vb i)))

/-! ### `vcvt` (R137 to R146) -/

/-- The elements that one `vcvt` converts (R139). -/
def cvtCount (ws wd : Nat) : Nat := 512 / max ws wd

/-- Whether a conversion word is one that `vcvt` executes (R137 to R139). -/
def cvtLegal (x : Word) : Bool :=
  match cfmt (fld x 7 4), cfmt (fld x 3 0) with
  | some s, some d =>
    let n := cvtCount s.width d.width
    let part := fld x 13 10
    ! bit x 9 && decide (fld x 31 22 = 0) && decide ((part + 1) * n * min s.width d.width ≤ 512)
  | _, _ => false

/-- Replace `n` bits of a vector from bit `lo` up. -/
def setBits (v : VReg) (lo n x : Nat) : VReg :=
  let m : VReg := BitVec.ofNat 512 (2 ^ n - 1) <<< lo
  (v &&& ~~~ m) ||| (BitVec.ofNat 512 (x % 2 ^ n) <<< lo)

/-- `vcvt` under a legal conversion word (R139 to R146). [DEDUCED, log 32] -/
def cvtOut (rm : Nat) (x : Word) (va vd : VReg) : VOut :=
  match cfmt (fld x 7 4), cfmt (fld x 3 0) with
  | some s, some d =>
    let ws := s.width
    let wd := d.width
    let n := cvtCount ws wd
    let part := fld x 13 10
    let src := unpackFrom va.toNat ws (if wd ≤ ws then 0 else part * n) n
    let r := convertRun (fld x 7 4) (fld x 3 0) (fld x 21 14) (bit x 8) rm src
    let packed := packElems wd r.1
    { v := if wd ≤ ws then setBits vd (part * n * wd) (n * wd) packed else setBits vd 0 (n * wd) packed,
      g := 0, sum := r.2 }
  | _, _ => VOut.quiet vd

/-! ### The instruction as a whole -/

/-- Which operations produce floating-point values under a type, and so are guarded in SERVICE mode (R110, R153). -/
def VOp.producesFloat (op : VOp) (ty : BitVec 3) (x : Word) : Bool :=
  match op with
  | .add | .sub | .mul | .div | .sqrt | .min | .max | .abs | .neg | .fma | .fms | .fnma | .fmaP
  | .radd | .rmax | .rmin | .dot => ! tyInt ty
  | .cvt =>
    match cfmt (fld x 3 0) with
    | some (.int _) => false
    | _ => true
  | _ => false

/-- The types that an operation rejects with `ILLEGAL_INSTR` (R62): a floating-point-only instruction given an integer
type, and the reverse. [DEDUCED, log 30] -/
def VOp.badType (op : VOp) (ty : BitVec 3) : Bool :=
  match op with
  | .div | .sqrt | .fma | .fms | .fnma | .fmaP | .cun => tyInt ty
  | .shl | .shr | .sar => ! tyInt ty
  | .cvt => decide (ty ≠ 0)
  | _ => false

/-- The result of a vector instruction other than a gather or scatter from its operands; `x` is the scalar operand that
it read at issue. [DEDUCED, log 31] -/
def VOp.compute (op : VOp) (ty : BitVec 3) (rm : Nat) (va vb vd : VReg) (x : Word) : VOut :=
  match op with
  | .and | .or | .xor | .mov | .zero => VOut.quiet (bitwise op va vb)
  | .sel => selOut ty va vb vd
  | .bcast | .ext | .ins | .perm | .rot | .zip | .unzip => permuteOut op ty va vb vd x
  | .cvt => cvtOut rm x va vd
  | .radd | .rmax | .rmin =>
    let src := lanesOf ty va
    reduceOut ty src ConvSum.zero (treeReduce (reduceNode op ty rm) 6 src)
  | .dot =>
    let ps := (List.range (laneCount ty)).map fun i => lane .mul ty rm (laneAt ty va i) (laneAt ty vb i) 0
    reduceOut ty (lanesOf ty va ++ lanesOf ty vb) (sumOuts 0 ps ConvSum.zero)
      (treeReduce (reduceNode .radd ty rm) 6 (ps.map (·.bits)))
  | .gather | .scatter => VOut.quiet vd
  | _ =>
    let ty' := if op = .fmaP then 7 else ty
    VOut.ofOuts ty' ((List.range (laneCount ty')).map fun i =>
      lane op ty' rm (laneAt ty' va i) (laneAt ty' vb i) (laneAt ty' vd i))

end Sys2Proof.Machine
end

