-- ==== Sys2Proof/Machine/UnitOps.lean ====
section
/-! DEFINITION. The unit queues of a core: entry, interlocks, dispatch, execution and completion (R38, R110 to R112,
R153 to R157, R163 to R190, R335 to R340). -/

namespace Sys2Proof.Machine

open Sys2Proof

/-! ### Queues -/

/-- The queue that an instruction enters (R38). -/
def UnitIns.queue : UnitIns → UnitQ
  | .vec .. | .topk .. => .vector
  | .mvm .. => .mv
  | _ => .matrix

/-- The entries of a queue. -/
def Core.unitQueue (k : Core) : UnitQ → List UnitOp
  | .vector => k.queueV
  | .matrix => k.queueM
  | .mv => k.queueMV

/-- Replace a queue. -/
def Core.setQueue (k : Core) (u : UnitQ) (q : List UnitOp) : Core :=
  match u with
  | .vector => { k with queueV := q }
  | .matrix => { k with queueM := q }
  | .mv => { k with queueMV := q }

/-- The queue's capacity (R38). -/
def queueCap : UnitQ → Nat
  | .mv => 4
  | _ => 8

/-- KIND of the `PROGRESS` record of an instruction, 0 for one that keeps none (R112). -/
def UnitIns.kind : UnitIns → Nat
  | .mma .. | .mmas .. => 1
  | .mvm .. => 2
  | .vec .gather _ _ _ _ _ | .vec .scatter _ _ _ _ _ => 3
  | .topk .. => 4
  | _ => 0

/-- Whether an instruction produces floating-point values (R110, R153). -/
def UnitIns.producesFloat : UnitIns → Bool
  | .vec op ty _ _ _ x => op.producesFloat ty x
  | .mma _ _ _ fmt _ _ mx _ => ! mIsInt fmt.toNat mx
  | .mmas _ _ _ fmt _ _ _ _ => ! mIsInt fmt.toNat false
  | .mvm _ _ _ _ fmt _ => fmt ≠ 9
  | .mstore _ _ _ conv cv => cv && (match cfmt (fld conv 3 0) with | some (.int _) => false | _ => true)
  | _ => false

/-- Whether an instruction is guarded (R110). -/
def UnitIns.guarded (u : UnitIns) (service abftf : Bool) : Bool :=
  (service && u.producesFloat) ||
  (match u with
   | .mchk .. => abftf
   | .vec .gather _ _ _ _ _ | .vec .scatter _ _ _ _ _ | .topk .. => true
   | _ => false)

/-- An instruction enters its unit's queue, or waits for a free entry; a guarded one holds its thread (R36, R110); a
`PROGRESS` record of its kind is honoured, one of another kind is cleared (R112). A vector register of wrong parity is
found at issue (R228). [DESIGN CHOICE, log 29] -/
def State.enqueue (s : State) (t : Tid) (u : UnitIns) : Eff :=
  let k := s.core t.core
  let q := u.queue
  let th := s.thread t
  if queueCap q ≤ (k.unitQueue q).length then .hold
  else if u.readsV.any fun r => th.badV.getLsbD r.toNat then .exc 0x05 0 .vector
  else
    let service := k.service && ! th.ltn.legacy
    let guard := u.guarded service th.ltn.abftf
    let start := if u.kind = 0 then 0 else th.progressOf u.kind
    let op : UnitOp :=
      { seq := k.nextSeq, thread := t.thread, pc := th.pc, ins := u, rmode := th.ctl.rmode, mpass := th.ctl.mpass,
        start := start, guard := guard, service := service, shadow := th.inShadow, dispatched := false, empties := [] }
    let s := s.modCore t.core fun k =>
      { k.setQueue q (k.unitQueue q ++ [op]) with nextSeq := k.nextSeq + 1 }
    let keep := guard && decide (u.kind ≠ 0) && decide (fld th.ctl.progress 26 24 = u.kind)
    let s := if u.kind = 0 ∨ keep then s else s.modThread t Thread.endProgress
    if guard then .block s (.guarded op.seq) else .done s

/-! ### Interlocks (R38) -/

/-- The tiles (0 to 15) and accumulators (16 to 23) that an instruction reads. -/
def UnitIns.readsT : UnitIns → BitVec 2 → List Nat
  | .mstore source _ _ conv cv, _ =>
    if cv ∧ fld conv 7 4 = 7 then [source.toNat, source.toNat + 1] else [source.toNat]
  | .mma acc w a fmt pair accz mx aux, mpass =>
    let acs := (if accz then [] else [16 + acc.toNat]) ++ (if pair ∧ ! accz then [17 + acc.toNat] else [])
    let as := if fmt = 0 ∧ 1 < mpass.toNat then [a.toNat, a.toNat + 1] else [a.toNat]
    let ws := if fmt = 11 then [w.toNat, w.toNat + 1, w.toNat + 2, w.toNat + 3]
      else if fmt = 0 ∧ mpass = 3 then [w.toNat, w.toNat + 1] else [w.toNat]
    acs ++ as ++ ws ++ (if mx then [aux.toNat] else [])
  | .mmas acc w a _ pair accz ratio md, _ =>
    let acs := (if accz then [] else [16 + acc.toNat]) ++ (if pair ∧ ! accz then [17 + acc.toNat] else [])
    acs ++ [w.toNat, md.toNat] ++ (List.range (if ratio then 4 else 2)).map fun q => a.toNat + q
  | .mchk _ acc pair _, _ => if pair then [16 + acc.toNat, 17 + acc.toNat] else [16 + acc.toNat]
  | .mvm acc x base rows fmt accz, _ =>
    (if accz then [] else [16 + acc.toNat]) ++ xTiles x.toNat fmt.toNat (fld rows 31 20) (fld base 47 32)
  | _, _ => []

/-- The tiles and accumulators that an instruction writes. -/
def UnitIns.writesT : UnitIns → List Nat
  | .mload target _ _ _ => [target.toNat]
  | .mzero target => [target.toNat]
  | .mma acc _ _ _ pair _ _ _ => if pair then [16 + acc.toNat, 17 + acc.toNat] else [16 + acc.toNat]
  | .mmas acc _ _ _ pair _ _ _ => if pair then [16 + acc.toNat, 17 + acc.toNat] else [16 + acc.toNat]
  | .mvm acc _ _ _ _ _ => [16 + acc.toNat]
  | _ => []

/-- The tiles and accumulators that a queued instruction names. -/
def UnitOp.namesT (u : UnitOp) : List Nat := u.ins.readsT u.mpass ++ u.ins.writesT

/-- Whether two lists share an entry. -/
def meets (a b : List Nat) : Bool := a.any fun x => b.contains x

/-- The v registers that a queued instruction writes. -/
def UnitIns.writesV : UnitIns → List Reg
  | .vec .ext _ _ _ _ _ | .vec .scatter _ _ _ _ _ => []
  | .vec _ _ d _ _ _ => [d]
  | _ => []

/-- The engines of the matrix queue (R171). -/
inductive MEngine where
  | array | mover | checker | other
  deriving DecidableEq, Repr

/-- The engine that takes an instruction. -/
def UnitIns.engine : UnitIns → MEngine
  | .mma .. | .mmas .. => .array
  | .mload .. | .mstore .. | .mzero .. => .mover
  | .mchk .. => .checker
  | _ => .other

/-- Whether `y` must wait for the earlier instruction `x` (R38): one writes what the other names. Two instructions of the
array may share an accumulator, which it forwards (R176). -/
def UnitOp.mustFollow (y x : UnitOp) : Bool :=
  let tiles := meets x.ins.writesT y.namesT || meets (x.ins.readsT x.mpass) y.ins.writesT
  let arr := decide (x.ins.engine = .array) && decide (y.ins.engine = .array)
  let tilesArr := meets (x.ins.writesT) ((y.ins.readsT y.mpass).filter fun k => decide (k < 16))
  let regs := decide (x.thread = y.thread) &&
    (x.ins.writesV.any (fun r => y.ins.usesV.contains r) || y.ins.writesV.any (fun r => x.ins.usesV.contains r) ||
     x.ins.writesG.any fun r => y.ins.writesG.contains r)
  (if arr then tilesArr else tiles) || regs

/-- The Local bytes that the elements of a gather or scatter touch. [DEDUCED, log 35] -/
def gatherRanges (s : State) (t : Tid) (u : UnitOp) : List LRange :=
  match u.ins with
  | .vec op ty d a b _ =>
    let va := (s.thread t).v a
    let n := min 16 (laneCount ty)
    match op with
    | .gather => (List.range n).map fun i => ⟨fld va (32 * i + 31) (32 * i), fld va (32 * i + 31) (32 * i) + laneW ty / 8, false⟩
    | .scatter =>
      let _ := (d, b)
      (List.range n).map fun i => ⟨fld va (32 * i + 31) (32 * i), fld va (32 * i + 31) (32 * i) + laneW ty / 8, true⟩
    | _ => []
  | _ => []

/-- The Local bytes that a `vtopk` reads its scores from and writes its records to (R335, R337). [DEDUCED, log 35] -/
def topkRanges : UnitIns → List LRange
  | .topk ty sb ob ctl =>
    let line := (fld ctl 10 4 * laneW ty + 511) / 512 * 64
    let n := fld ctl 23 12
    [⟨fld sb 19 0, fld sb 19 0 + n * line, false⟩, ⟨fld ob 19 0, fld ob 19 0 + n * 64, true⟩]
  | _ => []

/-- The Local ranges of a queued instruction at dispatch. [DEDUCED, log 35] -/
def State.dispatchRanges (s : State) (t : Tid) (u : UnitOp) : List LRange :=
  u.ins.ranges ++ gatherRanges s t u ++ topkRanges u.ins

/-- The first entry of a queue that has not dispatched, with its place. -/
def nextUndispatched (q : List UnitOp) : Option (UnitOp × Nat) := q.zipIdx.find? fun p => ! p.1.dispatched

/-- Whether an entry's interlocks allow it to dispatch (R38, R171, R214). -/
def State.mayDispatch (s : State) (c : CoreId) (u : UnitOp) : Bool :=
  let t : Tid := { core := c, thread := u.thread }
  let earlier := (s.core c).queued.filter fun x => decide (x.seq < u.seq)
  (earlier.all fun x => ! u.mustFollow x) &&
  (s.dispatchRanges t u).all fun r =>
    (s.trackedBefore t u.seq).all fun x => ! x.clash r.lo r.hi r.writes

/-! ### Passes -/

/-- The passes of an instruction under MPASS: the tile that supplies A and the one that supplies W (R177). -/
def mmaPasses (fmt : Nat) (mpass : Nat) (a w : Nat) : List (Nat × Nat) :=
  if fmt = 0 ∧ mpass = 2 then [(a, w), (a + 1, w)]
  else if fmt = 0 ∧ mpass = 3 then [(a, w), (a, w + 1), (a + 1, w)]
  else if fmt = 11 then List.replicate 8 (a, w)
  else [(a, w)]

/-- For each pass whether an operand tile is empty at dispatch (R180, R184). [DEDUCED, log 34] -/
def passEmpties (f : TileFile) (u : UnitOp) : List Bool :=
  let e := fun n => (f.tile n).empty
  match u.ins with
  | .mma _ w a fmt _ _ mx aux =>
    (mmaPasses fmt.toNat u.mpass.toNat a.toNat w.toNat).map fun p =>
      e p.1 || e p.2 || (mx && e aux.toNat) ||
      (fmt = 11 && (e (w.toNat + 1) || e (w.toNat + 2) || e (w.toNat + 3)))
  | .mmas _ w a _ _ _ ratio md =>
    [e w.toNat || e md.toNat || (List.range (if ratio then 4 else 2)).any fun q => e (a.toNat + q)]
  | .mvm _ x base rows fmt _ => [(xTiles x.toNat fmt.toNat (fld rows 31 20) (fld base 47 32)).any e]
  | _ => []

/-- The head of a queue dispatches (R171). [DEDUCED, log 33] -/
def State.dispatch (s : State) (c : CoreId) (q : UnitQ) : State :=
  match nextUndispatched ((s.core c).unitQueue q) with
  | none => s
  | some (u, k) =>
    if s.mayDispatch c u then
      s.modCore c fun r => r.setQueue q ((r.unitQueue q).zipIdx.map fun p =>
        if p.2 = k then { p.1 with dispatched := true, empties := passEmpties r.tile u } else p.1)
    else s

/-! ### Execution -/

/-- What executing a queued instruction comes to: done, or a cause at the instruction with the units completed. -/
inductive UDone where
  | ok (s : State)
  | trap (s : State) (cause : BitVec 8) (detail : Word) (unit : UnitCode) (count : Option Nat)

/-- Count elements under a class of R156. [DEDUCED, log 32] -/
def State.countNum (s : State) (c : CoreId) (cls sat ftz nan : Nat) : State :=
  let b := fun (s : State) r n => if n = 0 then s else s.bump r c.toNat cls n
  b (b (b s .numSat sat) .numFtz ftz) .numNan nan

/-- Raise flags into `FPSTAT` and `AMAX`. -/
def Thread.raise (th : Thread) (f : FFlags) (amax : Nat) : Thread :=
  th.modCtl fun c => { c with fpstat := c.fpstat ||| f,
                              amax := if c.amax.toNat < amax then BitVec.ofNat 32 amax else c.amax }

/-- Whether a generated NaN traps (R153). [DEDUCED, log 32] -/
def State.nanTraps (s : State) (t : Tid) (u : UnitOp) : Bool := u.service && ! (s.thread t).ltn.legacy

/-- A vector instruction other than a gather, scatter or `vtopk`. -/
def State.runVec (s : State) (t : Tid) (u : UnitOp) (op : VOp) (ty : BitVec 3) (d a b : Reg) (x : Word) : UDone :=
  let th := s.thread t
  let o := op.compute ty u.rmode.toNat (th.v a) (th.v b) (th.v d) x
  let s := s.countNum t.core (if op = .cvt then 1 else 0) o.sum.sat o.sum.ftz o.sum.nan
  match (if s.nanTraps t u then o.sum.gen else none) with
  | some k => .trap s 0x30 (BitVec.ofNat 32 k) .vector none
  | none =>
    .ok (s.modThread t fun th =>
      let th := th.raise o.sum.flags o.sum.amax
      match op with
      | .ext => th.setGIn u.shadow d o.g
      | _ => th.setV d o.v)

/-- The elements of a gather or scatter in lane order, from the first not yet done; a faulting element stops it
(R94, R112). [DEDUCED, log 35] -/
def State.runGather (s : State) (t : Tid) (ty : BitVec 3) (d a : Reg) (writes : Bool) : List Nat → UDone
  | [] => .ok s
  | i :: r =>
    let th := s.thread t
    let w := laneW ty
    let n := w / 8
    let addr := fld (th.v a) (32 * i + 31) (32 * i)
    match localFault (s.core t.core).mem addr n n (! writes) with
    | some c => .trap s c (BitVec.ofNat 32 addr) .vector (some i)
    | none =>
      let s :=
        if writes then
          s.modCore t.core fun k => { k with mem := k.mem.storeNat addr n (laneAt ty (th.v d) i) }
        else
          s.modThread t fun th =>
            th.setV d (setBits (th.v d) (w * i) w ((s.core t.core).mem.readNat addr n))
      s.runGather t ty d a writes r

/-- The lanes of a gather that have no address (R65 gives 32-bit addresses, sixteen of them). -/
def gatherRest (ty : BitVec 3) (v : VReg) : VReg :=
  (List.range (laneCount ty - 16)).foldl (fun v k => setBits v (laneW ty * (16 + k)) (laneW ty) (Config.gatherBeyond (16 + k))) v

/-! ### `vtopk` (R335 to R340) -/

/-- The bytes of one score. -/
def scoreBytes (ty : BitVec 3) : Nat := if ty = 1 then 4 else 2

/-- Bytes from one token's scores to the next (R335). -/
def scoreStride (ty : BitVec 3) (e : Nat) : Nat := 64 * ((e * scoreBytes ty + 63) / 64)

/-- The candidate of highest score, the lowest index among equals, of those not yet taken (R336). -/
def bestScore (f : Fmt) (scores : List (Nat × Nat)) (taken : List Nat) : Option (Nat × Nat) :=
  scores.foldl (fun best p =>
    if taken.contains p.1 then best
    else match best with
      | none => some p
      | some q => if (f.decode q.2).less (f.decode p.2) then some p else some q) none

/-- The first `k` candidates in order. -/
def ranked (f : Fmt) (scores : List (Nat × Nat)) : Nat → List Nat → List (Nat × Nat)
  | 0, _ => []
  | k + 1, taken =>
    match bestScore f scores taken with
    | none => []
    | some p => p :: ranked f scores k (p.1 :: taken)

/-- Place one selected candidate in a capacity slot (R338): status, slot, flit, and the core's counts. -/
def State.placeToken (s : State) (c : CoreId) (e : Nat) : (Nat × Nat × Nat) × State :=
  let r := (s.core c).route
  let cfg := Store.get (0 : Word) r.cfg e
  let cap := fld cfg 7 0
  let w := s.creg .rteFill c.toNat e
  let fill := fld w 7 0
  let ovf := fld w 15 8
  let tick := s.creg .routeTick c.toNat 0
  let other := fun (s : State) => s.setCreg .routeTick c.toNat 0 (setFld tick 31 16 (min 0xFFFF (fld tick 31 16 + 1)))
  let cnt := s.creg .rteCnt c.toNat e
  if fill < cap then
    ((0, fill, fld cfg 31 16 + (cap - 1 - fill) * (fld cfg 11 8 + 1)),
     (s.setCreg .rteFill c.toNat e (setFld w 7 0 (fill + 1))).setCreg .routeTick c.toNat 0
       (setFld tick 15 0 (min 0xFFFF (fld tick 15 0 + 1))))
  else if bit r.ctl 1 ∧ ovf < fld r.ctl 15 8 then
    ((1, ovf, 0),
     (other (s.setCreg .rteFill c.toNat e (setFld w 15 8 (ovf + 1)))).setCreg .rteCnt c.toNat e
       (setFld cnt 31 16 (min 0xFFFF (fld cnt 31 16 + 1))))
  else ((2, 0, 0), (other s).setCreg .rteCnt c.toNat e (setFld cnt 15 0 (min 0xFFFF (fld cnt 15 0 + 1))))

/-- The record entries of one token's ranks (R337). -/
def State.rankEntries (s : State) (c : CoreId) (f : Fmt) (routed : Bool) : List (Nat × Nat) → List Nat × State
  | [] => ([], s)
  | p :: r =>
    let q := if routed then s.placeToken c p.1 else ((0, 0, 0), s)
    let score := (fp32.finish 0 (f.decode p.2)).bits
    let entry := p.1 + q.1.1 * 2 ^ 6 + q.1.2.1 % 256 * 2 ^ 8 + q.1.2.2 % 65536 * 2 ^ 16 + score * 2 ^ 32
    let rest := q.2.rankEntries c f routed r
    (entry :: rest.1, rest.2)

/-- The tokens of a `vtopk`, each a set of scores read and a record written. -/
def State.runTopk (s : State) (t : Tid) (ty : BitVec 3) (sbase obase ctl : Word) : List Nat → UDone
  | [] => .ok s
  | k :: rest =>
    let m := (s.core t.core).mem
    let f := (laneFmt ty).getD fp32
    let n := scoreBytes ty
    let e := fld ctl 10 4
    let sa := sbase.toNat + k * scoreStride ty e
    let oa := obase.toNat + 64 * k
    match localFault m sa (n * e) 1 true, localFault m oa 64 1 false with
    | some c, _ => .trap s c (BitVec.ofNat 32 sa) .vector (some k)
    | none, some c => .trap s c (BitVec.ofNat 32 oa) .vector (some k)
    | none, none =>
      let routed := bit ctl 24
      let cfg := (s.core t.core).route.cfg
      let scores := ((List.range e).map fun j => (j, m.readNat (sa + n * j) n)).filter fun p =>
        ! (f.decode p.2).isNan && (! routed || bit (Store.get (0 : Word) cfg p.1) 15)
      let ranks := ranked f scores (fld ctl 3 0) []
      let r := s.rankEntries t.core f routed ranks
      let entries := r.1 ++ List.replicate (8 - r.1.length) (3 * 2 ^ 6)
      let s := r.2.modCore t.core fun q =>
        { q with mem := q.mem.store oa (entries.flatMap fun x => leBytes 8 x) }
      s.runTopk t ty sbase obase ctl rest

/-! ### The mover -/

/-- Copy `n` bytes, a multiple of 8, with their poison. -/
def Mem.copyIn (dst : Mem) (b : Nat) (src : Mem) (a n : Nat) : Mem :=
  (List.range (n / 8)).foldl (fun m k => if src.poisoned (a + 8 * k) 8 then m.poisonWord (b + 8 * k) else m)
    (dst.store b (src.read a n))

/-- `mload` (R173). -/
def State.runMload (s : State) (t : Tid) (target : BitVec 5) (base stride : Word) (tr : Bool) : State :=
  let m := (s.core t.core).mem
  let n := target.toNat
  let data : Mem :=
    if tr then
      (List.range 32).foldl (fun d j => (List.range 32).foldl (fun d r =>
        let a := base.toNat + r * stride.toNat + 2 * j
        let d := d.write (64 * j + 2 * r) (m.read a 2)
        if m.poisoned a 2 then d.poisonWord (64 * j + 2 * r) else d) d) Mem.zeros
    else
      let len := if 16 ≤ n then 128 else 64
      (List.range 32).foldl (fun d r => d.copyIn (len * r) m (base.toNat + r * stride.toNat) len) Mem.zeros
  s.modCore t.core fun k =>
    let ts := k.tile.target n
    { k with tile := k.tile.setTarget n { ts with empty := false, data := data, chk := ts.chk.invalidate } }

/-- The source elements of row r of an `mstore` with conversion (R174). -/
def mstoreElems (f : TileFile) (source : BitVec 5) (src : Nat) (r : Nat) : List Nat :=
  let n := source.toNat
  let v := (f.target n).view
  if n < 16 then unpackFrom (rowNat v r) 16 0 32
  else if src = 0 then (List.range 32).map fun c => v.readNat (256 * r + 8 * c) 8
  else if src = 7 then
    let l := (f.acc (n - 16 + 1)).view
    (List.range 32).map fun c => v.readNat (128 * r + 4 * c) 4 + l.readNat (128 * r + 4 * c) 4 * 2 ^ 32
  else (List.range 32).map fun c => v.readNat (128 * r + 4 * c) 4

/-- The source elements of row r that come from a poisoned word. -/
def mstoreBad (f : TileFile) (source : BitVec 5) (src : Nat) (r : Nat) : List Nat :=
  let n := source.toNat
  let v := (f.target n).view
  (List.range 32).filter fun c =>
    if n < 16 then v.poisoned (64 * r + 2 * c) 2
    else if src = 0 then v.poisoned (256 * r + 8 * c) 8
    else if src = 7 then v.poisoned (128 * r + 4 * c) 4 || (f.acc (n - 16 + 1)).view.poisoned (128 * r + 4 * c) 4
    else v.poisoned (128 * r + 4 * c) 4

/-- The rows of an `mstore`: without conversion whole rows, with it the converted elements (R174). [DEDUCED, log 34] -/
def State.runMstore (s : State) (t : Tid) (u : UnitOp) (source : BitVec 5) (base stride conv : Word) (cv : Bool) :
    List Nat → UDone
  | [] => .ok s
  | r :: rest =>
    let f := (s.core t.core).tile
    let a := base.toNat + r * stride.toNat
    if ! cv then
      let len := if source.toNat < 16 then 64 else 128
      let s := s.modCore t.core fun k =>
        { k with mem := k.mem.copyIn a (f.target source.toNat).view (len * r) len }
      s.runMstore t u source base stride conv cv rest
    else
      let src := fld conv 7 4
      let dst := fld conv 3 0
      let xs := mstoreElems f source src r
      let bad := mstoreBad f source src r
      let q := convertRun src dst (fld conv 21 14) (bit conv 8) u.rmode.toNat xs
      let s := s.countNum t.core 3 q.2.sat q.2.ftz q.2.nan
      match (if s.nanTraps t u then q.2.gen else none) with
      | some k => .trap s 0x30 (BitVec.ofNat 32 (32 * r + k)) .matrix none
      | none =>
        let wd := (fmtWidth dst).getD 8
        let n := 32 * wd / 8
        let s := s.modCore t.core fun k =>
          let m := k.mem.store a (leBytes n (packElems wd q.1))
          { k with mem := bad.foldl (fun m c => (m.poisonWord (a + c * wd / 8)).poisonWord (a + (c * wd + wd - 1) / 8)) m }
        let s := s.modThread t fun th => th.raise q.2.flags q.2.amax
        s.runMstore t u source base stride conv cv rest

/-! ### The array -/

/-- The accumulation of an `mma` or `mmas`. -/
def accKind (fmt : Nat) (pair mx : Bool) : AccKind :=
  if fmt = 11 then .f64 else if mIsInt fmt mx then .int else if pair then .pair else .f32

/-- Zero an accumulator with its checksums (R175). -/
def TileFile.zeroAcc (f : TileFile) (n : Nat) : TileFile :=
  f.setAcc n { f.acc n with empty := false, data := Mem.zeros, chk := Checksum.cleared }

/-- `mzero` of a tile or accumulator by its code (R175). -/
def TileFile.zeroTarget (f : TileFile) (n : Nat) : TileFile :=
  let ts := f.tile n
  if n < 16 then f.setTile n { ts with empty := false, data := Mem.zeros } else f.zeroAcc (n - 16)

/-- The operands of pass `k`. -/
def UnitOp.passOf (u : UnitOp) (f : TileFile) (k : Nat) : Pass :=
  match u.ins with
  | .mma _ w a fmt _ _ mx aux =>
    let p := (mmaPasses fmt.toNat u.mpass.toNat a.toNat w.toNat).getD k (a.toNat, w.toNat)
    if fmt = 11 then
      fp64Pass (aux.toNat % 2) k (f.tile a.toNat).view
        [(f.tile w.toNat).view, (f.tile (w.toNat + 1)).view, (f.tile (w.toNat + 2)).view, (f.tile (w.toNat + 3)).view]
    else densePass fmt.toNat mx (f.tile p.1).view (f.tile p.2).view (f.tile aux.toNat).view
  | .mmas _ w a fmt _ _ ratio md =>
    sparsePass fmt.toNat ratio ((List.range (if ratio then 4 else 2)).map fun q => (f.tile (a.toNat + q)).view)
      (f.tile w.toNat).view (f.tile md.toNat).view
  | _ => densePass 0 false Mem.zeros Mem.zeros Mem.zeros

/-- The checksum state after a pass, or invalid where the checks are off or R185 says so. -/
def UnitOp.chkAfter (u : UnitOp) (on : Bool) (c : Checksum) (p : Pass) (k : AccKind) (mx : Bool) : Checksum :=
  match u.ins with
  | .mma _ _ _ fmt _ _ _ _ => if on then c.pass p k mx (mK fmt.toNat) else c.invalidate
  | .mmas _ _ _ fmt _ _ ratio _ =>
    if on ∧ ! (ratio ∧ 2 ≤ fmt.toNat) then c.pass p k mx (mK fmt.toNat * (if ratio then 4 else 2)) else c.invalidate
  | _ => c

/-- The passes of an `mma` or `mmas` in order (R176 to R184): an empty operand skips its pass; a pass that generates a
NaN in SERVICE mode leaves its accumulator as it was. -/
def State.runPasses (s : State) (t : Tid) (u : UnitOp) (acc : Nat) (k : AccKind) (mx : Bool) : List Nat → UDone
  | [] => .ok s
  | i :: rest =>
    if u.empties.getD i false then (s.bump .matSkip t.core.toNat 0 1).runPasses t u acc k mx rest
    else
      let f := (s.core t.core).tile
      let p := u.passOf f i
      let h := f.acc acc
      let l := f.acc (acc + 1)
      let r := p.run k mx u.rmode.toNat h.view l.view
      let s := s.countNum t.core 3 0 r.2.2.ftz r.2.2.nan
      match (if s.nanTraps t u then r.2.2.gen else none) with
      | some g => .trap s 0x30 (BitVec.ofNat 32 g) .matrix (some i)
      | none =>
        let on := bit (s.creg .matCtl t.core.toNat 0) 0
        let f := f.setAcc acc { h with empty := false, data := r.1, chk := u.chkAfter on h.chk p k mx }
        let f := if k = .pair then f.setAcc (acc + 1) { l with empty := false, data := r.2.1 } else f
        let s := s.modCore t.core fun q => { q with tile := f }
        let s := (s.modThread t fun th => th.raise r.2.2.flags 0).bump .matPasses t.core.toNat 0 1
        s.runPasses t u acc k mx rest

/-- The number of passes of an instruction. -/
def UnitOp.passCount (u : UnitOp) : Nat :=
  match u.ins with
  | .mma _ w a fmt _ _ _ _ => (mmaPasses fmt.toNat u.mpass.toNat a.toNat w.toNat).length
  | _ => 1

/-- ACCZ zeroes the accumulator, and its odd partner, before the first pass (R176). -/
def State.accZero (s : State) (t : Tid) (u : UnitOp) (acc : Nat) (pair accz : Bool) : State :=
  if accz ∧ u.start = 0 then
    s.modCore t.core fun k =>
      { k with tile := if pair then (k.tile.zeroAcc acc).zeroAcc (acc + 1) else k.tile.zeroAcc acc }
  else s

/-! ### `mchk` (R186 to R188) -/

/-- `mchk`: the check word, the mismatch record and its event. -/
def State.runMchk (s : State) (t : Tid) (u : UnitOp) (d : Reg) (acc : BitVec 3) (pair : Bool) (tol : Word) : UDone :=
  let f := (s.core t.core).tile
  let h := f.acc acc.toNat
  let w := checkWord h.chk pair h.view (f.acc (acc.toNat + 1)).view acc tol t.thread
  let write := fun (s : State) => s.modThread t fun th => th.setGIn u.shadow d w
  if bit w 0 then
    let s := (s.setCreg .matAbft t.core.toNat 0 w).bump .matAbftcnt t.core.toNat 0 1
    let s := s.reportCore t.core 0x10 1 (w.setWidth 64) (s.thread t).tenant
    if u.guard then .trap s 0x31 0 .matrix none else .ok ((write s).latch t 24)
  else .ok (write s)

/-! ### `mvm` (R189 to R191) -/

/-- Read M row `r`: its elements as values, each with whether it was flushed (R132), and whether a word of the row is
poisoned. -/
def mvmRow (m : Mem) (base : DWord) (fmt r : Nat) : List (FVal × Bool) × Bool :=
  let w := mvWidth fmt
  let n := fld base 47 32
  let a := fld base 19 0 + r * fld base 63 48
  let c := (mFmts fmt).2
  ((List.range n).map fun k => (inputVal c (m.readNat (a + w * k) w)), m.poisoned a (n * w))

/-- The rows of an `mvm` in order; a row that generates a NaN in SERVICE mode stops it. -/
def State.runRows (s : State) (t : Tid) (u : UnitOp) (acc : BitVec 3) (x : BitVec 4) (base : DWord) (rows : Word)
    (fmt : Nat) (accz : Bool) : List Nat → UDone
  | [] => .ok s
  | r :: rest =>
    let k := s.core t.core
    let f := k.tile
    let ac := f.acc acc.toNat
    let kind := mvKind fmt
    let n := accBytes kind
    let off := n * (fld rows 9 0 + r)
    let skip := u.empties.headD false
    let old := ac.view.readNat off n
    let put := fun (s : State) (v : Nat) (bad : Bool) =>
      s.modCore t.core fun q =>
        let ac' := { ac with empty := false, data := writeElem ac.view off n v bad, chk := ac.chk.invalidate }
        { q with tile := q.tile.setAcc acc.toNat ac' }
    if skip then
      (if accz then put s 0 false else s).runRows t u acc x base rows fmt accz rest
    else
      let row := mvmRow k.mem base fmt r
      let cx := (mFmts fmt).1
      let ts := (List.range (fld base 47 32)).map fun j => inputVal cx (xElem f x.toNat fmt (fld rows 31 20 + j))
      let xs := ts.map (·.1)
      let ms := row.1.map (·.1)
      let q := mvRow fmt u.rmode.toNat ms xs
      let o := if accz then (match kind with
          | .f64 => fp64.out u.rmode.toNat { val := q.1, flags := 0, gen := false }
          | .int => FOut.plain (chkOf .int32 q.1)
          | _ => fp32.out 0 { val := q.1, flags := 0, gen := false })
        else mvAdd kind u.rmode.toNat (mvVal kind old) q.1
      let nanIn := ms.any FVal.isNan || xs.any FVal.isNan || (! accz && (mvVal kind old).isNan)
      let gen := (mvVal kind o.bits).isNan && ! nanIn
      let xbad := (List.range (fld base 47 32)).any fun j => xPoison f x.toNat fmt (fld rows 31 20 + j)
      let fl := q.2.1 ||| o.flags
      let fl := if kind = .f64 then fl else (fl &&& fOF) ||| flagIf gen fNV
      let s := s.countNum t.core 4 0 (q.2.2 + b2n o.ftz + ((row.1 ++ ts).filter (·.2)).length) (b2n gen)
      if gen ∧ s.nanTraps t u then .trap s 0x30 (BitVec.ofNat 32 r) .mv (some r)
      else
        let s := put s o.bits (row.2 || xbad || (! accz && ac.view.poisoned off n))
        let s := (s.modThread t fun th => th.raise fl 0).bump .mvpRows t.core.toNat 0 1
        s.runRows t u acc x base rows fmt accz rest

/-! ### Completion -/

/-- The units of an instruction that a stop counts (R111, R112): passes, rows, elements, tokens. -/
def UnitOp.units (u : UnitOp) : Nat :=
  match u.ins with
  | .mma .. | .mmas .. => u.passCount
  | .mvm _ _ _ rows _ _ => fld rows 19 10 + 1
  | .vec .gather ty _ _ _ _ | .vec .scatter ty _ _ _ _ => min 16 (laneCount ty)
  | .topk _ _ _ ctl => fld ctl 23 12
  | _ => 1

/-- The units from the first not yet done up to `n`. -/
def UnitOp.todo (u : UnitOp) (n : Nat) : List Nat := (List.range n).drop u.start

/-- The cycles in which the array froze while an instruction ran: what contention cost is a free value (R162).
[DESIGN CHOICE, log 6] -/
def State.countFreeze (s : State) (c : CoreId) : State :=
  let f := s.fresh
  f.2.modCore c fun k => { k with freeze := satAdd k.freeze (fld f.1 31 0) }

/-- The cycles in which the read phase of an `mvm` had too few ports: a free value (R192). [DESIGN CHOICE, log 6] -/
def State.countPorts (s : State) (c : CoreId) : State :=
  let f := s.fresh
  f.2.bump .mvpPortwait c.toNat 0 (fld f.1 31 0)

/-- Execute a dispatched instruction up to unit `n` (its number of units where it completes). -/
def State.runUnit (s : State) (t : Tid) (u : UnitOp) (n : Nat) : UDone :=
  match u.ins with
  | .vec .gather ty d a _ _ =>
    match s.runGather t ty d a false (u.todo n) with
    | .ok s => .ok (if n = u.units then s.modThread t fun th => th.setV d (gatherRest ty (th.v d)) else s)
    | r => r
  | .vec .scatter ty d a _ _ => s.runGather t ty d a true (u.todo n)
  | .vec op ty d a b x => s.runVec t u op ty d a b x
  | .topk ty sb ob ctl => s.runTopk t ty sb ob ctl (u.todo n)
  | .mload target base stride tr => .ok (s.runMload t target base stride tr)
  | .mstore source base stride conv cv =>
    s.runMstore t u source base stride conv cv (List.range (mstoreRows conv cv))
  | .mzero target => .ok (s.modCore t.core fun k => { k with tile := k.tile.zeroTarget target.toNat })
  | .mma acc _ _ fmt pair accz mx _ =>
    ((s.countFreeze t.core).accZero t u acc.toNat pair accz).runPasses t u acc.toNat (accKind fmt.toNat pair mx) mx (u.todo n)
  | .mmas acc _ _ fmt pair accz _ _ =>
    ((s.countFreeze t.core).accZero t u acc.toNat pair accz).runPasses t u acc.toNat (accKind fmt.toNat pair false) false
      (u.todo n)
  | .mchk d acc pair tol => s.runMchk t u d acc pair tol
  | .mvm acc x base rows fmt accz =>
    let s := if u.empties.headD false && decide (u.start = 0) then s.bump .matSkip t.core.toNat 0 1 else s
    let s := if u.empties.headD false then s else s.countPorts t.core
    s.runRows t u acc x base rows fmt.toNat accz (u.todo n)

/-- Remove an entry from its queue. -/
def Core.dropUnit (k : Core) (seq : Nat) : Core :=
  let f := fun (q : List UnitOp) => q.filter fun u => decide (u.seq ≠ seq)
  { k with queueV := f k.queueV, queueM := f k.queueM, queueMV := f k.queueMV }

/-- Whether the thread is held on a guarded instruction. -/
def Thread.heldOn (th : Thread) (seq : Nat) : Bool :=
  match th.status with
  | .blocked (.guarded k) => decide (k = seq)
  | _ => false

/-- Record completed units in `PROGRESS` (R112). -/
def Thread.record (th : Thread) (kind : Nat) (count : Option Nat) : Thread :=
  match count with
  | some n => if kind = 0 then th else th.modCtl fun c => { c with progress := progressWord n kind }
  | none => th

/-- A `vgather` whose last element has arrived lands like a vector load: the three instructions after it read the old
value of its destination (R55). -/
def State.delayGather (s : State) (t : Tid) (u : UnitOp) (old : Store VReg) : State :=
  match u.ins with
  | .vec .gather _ d _ _ _ =>
    s.modThread t fun th =>
      let l : Load := { shadow := u.shadow, g := [], v := some (d, th.v d), left := 3, arrived := true }
      { th.setV d (Store.get 0 old d.toNat) with loads := th.loads ++ [l] }
  | _ => s

/-- A dispatched instruction performs its last write and completes (R171): its interlocks go, a guarded thread goes on;
or it raises its cause at the instruction. -/
def State.completeUnit (s : State) (t : Tid) (u : UnitOp) : State :=
  let old := (s.thread t).vr
  match s.runUnit t u u.units with
  | .ok s =>
    let s := s.modCore t.core fun k => k.dropUnit u.seq
    if (s.thread t).heldOn u.seq then
      ((if u.ins.kind = 0 then s else s.modThread t Thread.endProgress).delayGather t u old).resume t
    else s
  | .trap s c d unit n =>
    let s := s.modCore t.core fun k => k.dropUnit u.seq
    if (s.thread t).heldOn u.seq then
      let s := s.modThread t fun th => th.record u.ins.kind n
      s.syncExc t c d u.pc unit
    else s

end Sys2Proof.Machine
end

