-- ==== Sys2Proof/Machine/StreamOps.lean ====
section
/-! DEFINITION. Transfer streams: validation, the sides of a row, reading and converting a row, writing it, faults and
completion (R283 to R299, R329 to R334). -/

namespace Sys2Proof.Machine

open Sys2Proof

/-! ### The engines -/

/-- The Spire of an engine. -/
def engineSpire : Engine → Spire
  | .core c _ => spireOf c
  | .turret sp _ => sp

/-- The window cache of an engine. -/
def engineCache : Engine → WinCache
  | .core c _ => .core c
  | .turret sp _ => .turret sp

/-- The router from which an engine's packets leave: its core, or the Turret's core c12 (R270). -/
def engineRouter : Engine → CoreId
  | .core c _ => c
  | .turret sp _ => coreOf sp 12

/-- The stream in an engine. -/
def State.stream (s : State) : Engine → Stream
  | .core c k => Store.get Stream.reset (s.core c).slots k.toNat
  | .turret sp n => Store.get Stream.reset (s.spire sp).turret n.toNat

/-- Replace the stream in an engine. -/
def State.setStream (s : State) (e : Engine) (st : Stream) : State :=
  match e with
  | .core c k => s.modCore c fun r => { r with slots := Store.set Stream.reset r.slots k.toNat st }
  | .turret sp n => s.modSpire sp fun r => { r with turret := Store.set Stream.reset r.turret n.toNat st }

/-- Change the stream in an engine. -/
def State.modStream (s : State) (e : Engine) (f : Stream → Stream) : State := s.setStream e (f (s.stream e))

/-! ### Validation (R288, R293, R294, R331) -/

/-- What validation finds. -/
inductive Check where
  | ok | invalid | unpopulated | closing | notOwned | miss
  deriving DecidableEq, Repr

/-- Whether an address word breaks R286: reserved bits, bits of ADDR that its space does not have, a NODE that its space
does not take, this device's own ID as another device. -/
def State.wordBad (s : State) (a : DWord) : Bool :=
  fld a 63 61 ≠ 0 ||
  (match aSpace a with
   | 0 => decide (2 ^ 20 ≤ aAddr a)
   | 1 => decide (2 ^ 23 ≤ aAddr a) || decide (aNode a ≠ 0)
   | 2 => decide (aNode a ≠ 0)
   | _ => decide (1024 ≤ aNode a) || decide (aNode a = (s.creg .skbDevid 0 0).toNat))

/-- Whether a side breaks R288: its Local core is not in the partition, or its extent leaves its space. -/
def State.sideBad (s : State) (t : BitVec 4) (a : DWord) (indexed : Bool) (ext : Int × Int) : Bool :=
  s.wordBad a ||
  (match aSpace a with
   | 0 => ! s.inPartition t (spireOf (BitVec.ofNat 11 (aNode a))) ||
          (! indexed && (decide (ext.1 < 0) || decide (0xC0000 < ext.2)))
   | 1 => ! indexed && (decide (ext.1 < 0) || decide (0x800000 < ext.2))
   | _ => false)

/-- Whether a side's Spire takes new work (R288). -/
def State.sideClosed (s : State) (sp : Spire) (a : DWord) : Bool :=
  match aSpace a with
  | 0 => ! s.domOpen (aNode a / 32)
  | 1 => ! s.domOpen sp.toNat
  | _ => false

/-- Whether the conversion fields break R288. -/
def convBad (d : SDesc) : Bool :=
  dConv d &&
  (match fmtWidth (dCsrc d), fmtWidth (dCdst d) with
   | some ws, some wd => decide (dXlen d * 8 % ws ≠ 0) || decide (dXlen d * 8 / ws * wd % 8 ≠ 0)
   | _, _ => true)

/-- Whether the index list breaks R331. -/
def listBad (d : SDesc) : Bool :=
  let last := dGaddr d + 4 * (dRows d * dPlanes d - 1)
  dGen d &&
  (dGspace d = 3 || dSched d || dGaddr d % 4 ≠ 0 ||
   (dGspace d = 0 && decide (0xC0000 ≤ last)) ||
   (dGspace d = 1 && decide (0x800000 ≤ last)) ||
   (if dGside d then dDys d ≠ 0 || dDzs d ≠ 0 else dSys d ≠ 0 || dSzs d ≠ 0))

/-- A port channel descriptor's SPACE field: 1 is Local (R244). -/
def chanSpace (w : BitVec 128) : Nat := fld w 21 20

/-- The bank that a router runs. -/
def Router.bank (r : Router) : SBank := if r.active then r.bank1 else r.bank0

/-- A port channel of the running bank. -/
def Router.chan (r : Router) (k : Nat) : BitVec 128 := Store.get 0 r.bank.chans k

/-- Whether a SCHED stream of core `c` breaks R293: its channel is not Local, its S-mesh side is not 0, or its other side
is neither the core's Local nor its Spire's Drum. -/
def State.schedBad (s : State) (c : CoreId) (d : SDesc) : Bool :=
  let mesh := if dInbound d then dSrc d else dDst d
  let other := if dInbound d then dDst d else dSrc d
  chanSpace ((s.core c).router.chan (dPchan d)) ≠ 1 || mesh ≠ 0 ||
  ! ((aSpace other = 0 && aNode other = c.toNat) || aSpace other = 1)

/-- Whether a descriptor is invalid as far as no address is translated: for a core `c`'s stream, or for a Turret where
`c` is absent (R288, R293, R294, R331). -/
def State.descBad (s : State) (c : Option CoreId) (tenant : BitVec 4) (mach : Bool) (d : SDesc) : Bool :=
  let srcMesh := dSched d && dInbound d
  let dstMesh := dSched d && ! dInbound d
  dReserved d || dXlen d = 0 || dTenant d ≠ tenant || (dPhys d && ! mach) || (dTmou d && 1000 < dTmov d) ||
  convBad d || listBad d ||
  (! srcMesh && s.sideBad tenant (dSrc d) (dGen d && ! dGside d) (srcExtent d)) ||
  (! dstMesh && s.sideBad tenant (dDst d) (dGen d && dGside d) (dstExtent d)) ||
  (match c with
   | some c => dSched d && s.schedBad c d
   | none =>
     dSched d || (dGen d && decide (dGspace d = 0)) ||
     ! ((decide (aSpace (dSrc d) = 1) && decide (2 ≤ aSpace (dDst d))) ||
        (decide (2 ≤ aSpace (dSrc d)) && decide (aSpace (dDst d) = 1))))

/-- The first byte of a Far side: translated and its home open, and populated where no list indexes the side (R288). A
side with PHYS has no window granule to miss. [DEDUCED, log 40] -/
def State.farCheck (s : State) (w : WinCache) (tenant : BitVec 4) (phys indexed : Bool) (a : DWord) (p : Perm) :
    Check × State :=
  if aSpace a ≠ 2 ∨ (indexed ∧ phys) then (.ok, s)
  else
    let r := if phys then (some (aAddr a), s) else s.translate w tenant (aAddr a) p
    match r.1 with
    | none => (.miss, r.2)
    | some x =>
      if ! farPopulated x then (if indexed then .ok else .unpopulated, r.2)
      else if ! s.farOpen x then (.closing, r.2)
      else (.ok, r.2)

/-- Validate a descriptor. [DEDUCED, log 38] -/
def State.validate (s : State) (c : Option CoreId) (sp : Spire) (tenant : BitVec 4) (mach : Bool) (d : SDesc) :
    Check × State :=
  let w : WinCache := match c with | some c => .core c | none => .turret sp
  if s.descBad c tenant mach d then (.invalid, s)
  else if (! (dSched d && dInbound d) && s.sideClosed sp (dSrc d)) ||
      (! (dSched d && ! dInbound d) && s.sideClosed sp (dDst d)) then (.closing, s)
  else if dInc d ≠ 0 ∧ ! s.ownsCtr tenant (dCtr d) then (.notOwned, s)
  else
    let r := s.farCheck w tenant (dPhys d) (dGen d && ! dGside d) (dSrc d) .read
    if r.1 ≠ .ok then r
    else r.2.farCheck w tenant (dPhys d) (dGen d && dGside d) (dDst d) .write

/-- The cause that `sissue` raises (R288). -/
def Check.cause : Check → Option (BitVec 8)
  | .ok => none
  | .invalid => some 0x10
  | .unpopulated => some 0x10
  | .closing => some 0x12
  | .notOwned => some 0x25
  | .miss => some 0x11

/-- The fault with which a Turret stream ends at once (R294). -/
def Check.fault : Check → BitVec 4
  | .ok => 0
  | .invalid => 9
  | .notOwned => 9
  | .unpopulated => 8
  | .closing => 3
  | .miss => 2

/-! ### Starting -/

/-- The Clocktower time at which a stream issued now times out (R291). -/
def State.streamDue (s : State) (d : SDesc) : Option Nat :=
  if dTmov d = 0 then none else some (s.ns + dTmov d * (if dTmou d then 1000000 else 1000))

/-- A stream that has just been issued. -/
def State.newStream (s : State) (d : SDesc) (owner : Tid) (tenant : BitVec 4) (seq : Nat) (entry : BitVec 16)
    (wback : Bool) : Stream :=
  { Stream.reset with
      state := 1, desc := d, owner := owner, tenant := tenant, seq := seq, issued := s.ns,
      due := s.streamDue d, entry := entry, wback := wback }

/-- Whether a stream may still issue accesses: it runs and has met no fault. -/
def Stream.live (st : Stream) : Bool := st.running && decide (st.fault = 0)

/-! ### Addresses of a row -/

/-- What one access does to a row's bytes: the runs of physical bytes, or the fault it meets. -/
abbrev Resolved := Except (BitVec 4) (List (Nat × Nat))

/-- Cut `len` bytes at `a` at the multiples of `g`; `n` bounds the pieces. -/
def cutRuns (g a len : Nat) : Nat → List (Nat × Nat)
  | 0 => []
  | n + 1 =>
    if len = 0 then []
    else
      let k := min len (g - a % g)
      (a, k) :: cutRuns g (a + k) (len - k) n

/-- Translate one granule for a stream: a translation it has used stays with it (R206). -/
def State.streamTranslate (s : State) (e : Engine) (wa : Nat) (p : Perm) : Option Nat × State :=
  let st := s.stream e
  match st.held.find? fun h => decide (h.granule.toNat = wa / 2 ^ 21) with
  | some h => (entryPhys h.entry wa p, s)
  | none =>
    let r := s.winLookup (engineCache e) st.tenant (wa / 2 ^ 21)
    match r.1 with
    | some x =>
      (entryPhys x wa p, r.2.modStream e fun st =>
        { st with held := st.held ++ [{ tenant := st.tenant, granule := BitVec.ofNat 27 (wa / 2 ^ 21), entry := x }] })
    | none => (none, r.2)

/-- Resolve pieces of a Far side: each is translated, populated, and behind domains that carry work or were removed with
their quadrant (R29, R288, R290, R333). -/
def State.farRuns (s : State) (e : Engine) (phys : Bool) (p : Perm) : List (Nat × Nat) → Resolved × State
  | [] => (.ok [], s)
  | (a, n) :: r =>
    let t := if phys then (some a, s) else s.streamTranslate e a p
    match t.1 with
    | none => (.error 2, t.2)
    | some x =>
      if ! farPopulated x then (.error 8, t.2)
      else if ! (s.farDead x || s.farCarries x) then (.error 3, t.2)
      else
        let q := t.2.farRuns e phys p r
        (q.1.map fun l => (x, n) :: l, q.2)

/-- Resolve the bytes of a row on this device. -/
def State.resolve (s : State) (e : Engine) (a : DWord) (at_ : Int) (len : Nat) (p : Perm) : Resolved × State :=
  let d := (s.stream e).desc
  if at_ < 0 then (.error 8, s)
  else
    let x := at_.toNat
    match aSpace a with
    | 0 =>
      if 0xC0000 < x + len then (.error 8, s)
      else if ! s.domCarries (aNode a / 32) then (.error 3, s)
      else (.ok [(x, len)], s)
    | 1 =>
      let sp := engineSpire e
      if 0x800000 < x + len then (.error 8, s)
      else if ! s.domCarries sp.toNat then (.error 3, s)
      else (.ok ((cutRuns 65536 x len (len / 65536 + 2)).map fun r => (s.drumAddr sp r.1, r.2)), s)
    | _ => s.farRuns e (dPhys d) p (cutRuns (2 ^ 21) x len (len / 2 ^ 21 + 2))

/-- The data space of a side on this device. -/
def State.sideMem (s : State) (e : Engine) (a : DWord) : Mem :=
  match aSpace a with
  | 0 => (s.core (BitVec.ofNat 11 (aNode a))).mem
  | 1 => (s.spire (engineSpire e)).drum
  | _ => s.far

/-- Change the data space of a side on this device. -/
def State.modSideMem (s : State) (e : Engine) (a : DWord) (f : Mem → Mem) : State :=
  match aSpace a with
  | 0 => s.modCore (BitVec.ofNat 11 (aNode a)) fun k => { k with mem := f k.mem }
  | 1 => s.modSpire (engineSpire e) fun k => { k with drum := f k.drum }
  | _ => { s with far := f s.far }

/-- Where row `k` of a side starts: its index in granules from ADDR, or its strides (R287, R330). -/
def rowStart (d : SDesc) (a : DWord) (indexed : Bool) (entry : Word) (sy sz : Int) (k : Nat) : Int :=
  if indexed then (aAddr a : Int) + 64 * (fld entry 30 0 : Nat)
  else rowAt (aAddr a) sy sz (k % dRows d) (k / dRows d)

/-- The bytes of resolved runs, each with whether its word is poisoned (R228). -/
def readRuns (m : Mem) : List (Nat × Nat) → List (Byte × Bool)
  | [] => []
  | (a, n) :: r => (List.range n).map (fun i => (m.byte (a + i), m.poisoned (a + i) 1)) ++ readRuns m r

/-- Read runs of Far: what is homed in a removed quadrant comes back poisoned (R29). -/
def State.readFar (s : State) : List (Nat × Nat) → List (Byte × Bool)
  | [] => []
  | (a, n) :: r => (if s.farDead a then List.replicate n (0, true) else readRuns s.far [(a, n)]) ++ s.readFar r

/-- Read runs of a side on this device. -/
def State.readSide (s : State) (e : Engine) (a : DWord) (runs : List (Nat × Nat)) : List (Byte × Bool) :=
  if 2 ≤ aSpace a then s.readFar runs else readRuns (s.sideMem e a) runs

/-- Spread bytes over resolved runs. -/
def spread : List (Nat × Nat) → List (Byte × Bool) → List (Nat × List (Byte × Bool))
  | [], _ => []
  | (a, n) :: r, bs => (a, bs.take n) :: spread r (bs.drop n)

/-- Write bytes at `a`, and poison the words that arrive poisoned (R228, R229). -/
def storeMarked (m : Mem) (a : Nat) (bs : List (Byte × Bool)) : Mem :=
  (bs.zipIdx.filter fun b => b.1.2).foldl (fun m b => m.poisonWord (a + b.2)) (m.store a (bs.map (·.1)))

/-- Write bytes at an address of a side on this device; what goes to a removed quadrant is discarded (R29). -/
def State.writeSide (s : State) (e : Engine) (a : DWord) (addr : Nat) (bs : List (Byte × Bool)) : State :=
  if 2 ≤ aSpace a ∧ s.farDead addr then s else s.modSideMem e a fun m => storeMarked m addr bs

/-! ### Conversion of a row (R140 to R147, R229) -/

/-- Whether any of the bytes that bits [lo, lo + n) touch is poisoned. -/
def bitsBad (bad : List Bool) (lo n : Nat) : Bool :=
  ((List.range ((lo + n + 7) / 8 - lo / 8)).any fun i => bad.getD (lo / 8 + i) false)

/-- A converted row: its bytes with their poison, and what the conversion raised. An element that a poisoned word
touches is not converted, and the bytes that its result would touch are poisoned. -/
def convertRow (d : SDesc) (src : List (Byte × Bool)) : List (Byte × Bool) × ConvSum :=
  match fmtWidth (dCsrc d), fmtWidth (dCdst d) with
  | some ws, some wd =>
    let bad := src.map (·.2)
    let n := src.length * 8 / ws
    let xs := unpackFrom (leNat (src.map (·.1))) ws 0 n
    let keep := (xs.zipIdx).filter fun p => ! bitsBad bad (p.2 * ws) ws
    let r := convertRun (dCsrc d) (dCdst d) (dScale d) (dSat d) 0 (keep.map (·.1))
    let all := convertRun (dCsrc d) (dCdst d) (dScale d) (dSat d) 0 xs
    let gen := r.2.gen.bind fun g => (keep.map (·.2))[g]?
    let lost := (List.range n).filter fun k => bitsBad bad (k * ws) ws
    let bytes := leBytes (n * wd / 8) (packElems wd all.1)
    (bytes.zipIdx.map fun p =>
      (p.1, lost.any fun k => decide (k * wd / 8 ≤ p.2) && decide (p.2 < (k * wd + wd + 7) / 8)),
     { r.2 with gen := gen })
  | _, _ => ([], ConvSum.zero)

/-- The Local address of element `g` of a converted row that starts at `src` and `dst`: of the source where that is Local,
else of the destination, else 0 (R155). [DESIGN CHOICE, log 37] -/
def genAddr (d : SDesc) (src dst : Int) (g : Nat) : Nat :=
  if aSpace (dSrc d) = 0 ∧ ! (dSched d && dInbound d) then (src + (g * (fmtWidth (dCsrc d)).getD 8 / 8 : Nat)).toNat
  else if aSpace (dDst d) = 0 ∧ ! (dSched d && ! dInbound d) then (dst + (g * (fmtWidth (dCdst d)).getD 8 / 8 : Nat)).toNat
  else 0

/-- Fold a stream's conversion into its counters, its own maximum and the record of its first generated NaN (R147, R155,
R156). `src` and `dst` are the addresses at which the converted bytes start. -/
def State.streamConverted (s : State) (e : Engine) (src dst : Int) (c : ConvSum) : State :=
  let st := s.stream e
  let s := s.modStream e fun st => if st.amax.toNat < c.amax then { st with amax := BitVec.ofNat 32 c.amax } else st
  match e with
  | .core k _ =>
    let s := s.countNum k 2 c.sat c.ftz c.nan
    match c.gen with
    | some g =>
      if (s.core k).service ∧ ! st.noted then
        (s.modStream e fun st => { st with noted := true }).reportCore k 0x11 1
          (BitVec.ofNat 64 (genAddr st.desc src dst g)) st.tenant
      else s
    | none => s
  | .turret _ _ => s

/-! ### Packets to another device (R289, R375) -/

/-- Whether this device is its group's manager (R394). -/
def State.isManager (s : State) : Bool := bit (s.creg .skbGroup 0 0) 16

/-- This device's ID. -/
def State.devId (s : State) : BitVec 10 := (s.creg .skbDevid 0 0).setWidth 10

/-- Send a packet over Skybridge, whose answer is awaited under a fresh tag. -/
def State.skbAsk (s : State) (dev : BitVec 10) (ptype : BitVec 4) (tenant : BitVec 4) (epoch : Byte) (poison : Bool)
    (addr arg : DWord) (data : List Byte) (what : SkbFor) : Nat × State :=
  let tag := s.skbTag
  (tag.toNat,
   { s with
      skbTag := tag + 1,
      skbWaits := s.skbWaits ++ [{ tag := tag, dev := dev, what := what }],
      toSkb := s.toSkb ++
        [{ dst := dev, src := (s.creg .skbDevid 0 0).setWidth 10, ptype := ptype, tenant := tenant, epoch := epoch,
           tag := tag, poison := poison, addr := addr, arg := arg, e2eOk := true, data := data }] })

/-- What a side that another core or device holds is reached through: another device over Skybridge, or another core of
this one over the D-mesh (R289). -/
inductive Elsewhere where
  | device (dev : BitVec 10)
  | core (c : CoreId)
  deriving DecidableEq, Repr

/-- Where a side lies that this engine does not reach itself. -/
def elsewhere (e : Engine) (a : DWord) : Option Elsewhere :=
  if aSpace a = 3 then some (.device (BitVec.ofNat 10 (aNode a)))
  else if aSpace a = 0 ∧ aNode a ≠ (engineRouter e).toNat then some (.core (BitVec.ofNat 11 (aNode a)))
  else none

/-- The most bytes that one packet carries: 4,096 over Skybridge, 64 over the D-mesh (R271, R375). -/
def Elsewhere.most : Elsewhere → Nat
  | .device _ => 4096
  | .core _ => 64

/-- Ask for `n` bytes of a row at `a`, and answer the tag of the request: a read request on request VC0 (R271). -/
def State.askPart (s : State) (e : Engine) (w : Elsewhere) (row a n : Nat) : Nat × State :=
  let st := s.stream e
  match w with
  | .device dev =>
    s.skbAsk dev 0 st.tenant (dEpoch st.desc) false (BitVec.ofNat 64 a) (BitVec.ofNat 64 n) [] (.streamRead e row)
  | .core c =>
    let g := s.newId
    (g.1, g.2.send (engineRouter e) c false false st.tenant (.strRead e row g.1 a n))

/-- Ask for the pieces of a part of a row, `lo` being the first one's offset. -/
def State.askParts (s : State) (e : Engine) (w : Elsewhere) (row lo : Nat) : List (Nat × Nat) → List ReadPart × State
  | [] => ([], s)
  | (a, n) :: r =>
    let q := s.askPart e w row a n
    let t := q.2.askParts e w row (lo + n) r
    ({ lo := lo, n := n, tag := q.1, data := none } :: t.1, t.2)

/-- Send bytes of a row that go to `a`, and answer the tag of the packet: write data on request VC1 (R271, R289). -/
def State.sendPart (s : State) (e : Engine) (w : Elsewhere) (row a : Nat) (bs : List (Byte × Bool)) : Nat × State :=
  let st := s.stream e
  match w with
  | .device dev =>
    s.skbAsk dev 1 st.tenant (dEpoch st.desc) (bs.any (·.2)) (BitVec.ofNat 64 a) (BitVec.ofNat 64 bs.length)
      (bs.map (·.1)) (.streamWrite e row)
  | .core c =>
    let g := s.newId
    (g.1, g.2.send (engineRouter e) c false true st.tenant (.strWrite e row g.1 a (dEpoch st.desc) bs))

/-- Send the pieces of a row's write; the tag and length of each packet. -/
def State.sendParts (s : State) (e : Engine) (w : Elsewhere) (row : Nat) :
    List (Nat × List (Byte × Bool)) → List (Nat × Nat) × State
  | [] => ([], s)
  | (a, bs) :: r =>
    let q := s.sendPart e w row a bs
    let t := q.2.sendParts e w row r
    ((q.1, bs.length) :: t.1, t.2)

/-- Whether any byte of the aligned word in which byte `k` of the bytes at `a` lies is poisoned. -/
def wordMarked (a : Nat) (bs : List (Byte × Bool)) (k : Nat) : Bool :=
  bs.zipIdx.any fun b => b.1.2 && decide ((a + b.2) / 8 = (a + k) / 8)

/-- Cut bytes where poisoned words begin and end, so that a packet's poison mark says what each of its words is (R229,
R375). -/
def cutMarked (a : Nat) (bs : List (Byte × Bool)) : List (Nat × List (Byte × Bool)) :=
  let marks := (List.range bs.length).map fun k => wordMarked a bs k
  (bs.zipIdx.zip marks).foldr (fun p r =>
    match r with
    | (j, q) :: t =>
      if (q.head?.map (·.2)) = some p.2 then (a + p.1.2, (p.1.1.1, p.2) :: q) :: t
      else (a + p.1.2, [(p.1.1.1, p.2)]) :: (j, q) :: t
    | [] => [(a + p.1.2, [(p.1.1.1, p.2)])]) []

/-! ### Completion (R290, R294, R297, R527) -/

/-- The record of a fault: class TRANSFER_FAULT with the engine's own layout (R527). [DEDUCED, log 37] -/
def State.faultRecord (s : State) (e : Engine) (fault : BitVec 4) (entry : BitVec 16) (tenant : BitVec 4) : State :=
  match e with
  | .core c k =>
    s.reportPoison c 0x20 (BitVec.ofNat 64 (fault.toNat + k.toNat * 2 ^ 5 + 0xFFFF * 2 ^ 12)) tenant (decide (fault = 1))
  | .turret sp n =>
    s.report (quadOf sp)
      { s.mkReport 1 (sp.setWidth 12) 0x20 1
          (BitVec.ofNat 64 (fault.toNat + 2 ^ 4 + n.toNat * 2 ^ 5 + entry.toNat * 2 ^ 12)) tenant with
        poison := decide (fault = 1) }

/-- Set `TRT_STAT`.FAULT and `TRT_FAULT`, and raise the Turret's fault source (R294, R297, R301). -/
def State.turretFault (s : State) (sp : Spire) (n : BitVec 7) (fault : BitVec 4) (entry : BitVec 16) : State :=
  let s := s.setCreg .trtStat sp.toNat 0 (s.creg .trtStat sp.toNat 0 ||| 8#32)
  let s := s.setCreg .trtFault sp.toNat 0 (BitVec.ofNat 32 (n.toNat + fault.toNat * 2 ^ 8 + entry.toNat * 2 ^ 16))
  s.raiseBic (quadOf sp) (0x012 + 3 * (sp.toNat % 16))

/-- The largest absolute value goes into the thread's `AMAX`, or into `TRT_AMAX` (R147, R297). -/
def State.foldAmax (s : State) (e : Engine) (owner : Tid) (amax : Word) : State :=
  match e with
  | .core _ _ => s.modThread owner fun th => th.modCtl fun c => if c.amax < amax then { c with amax := amax } else c
  | .turret sp _ => s.maxReg .trtAmax sp.toNat 0 amax.toNat

/-- A stream that completed into a Local of a placement that a migration left is counted there (R430). -/
def State.noteLate (s : State) (d : SDesc) : State :=
  if aSpace (dDst d) ≠ 0 ∨ dSched d then s
  else s.modCore (BitVec.ofNat 11 (aNode (dDst d))) fun k => { k with retired := k.retired.map fun p => (p.1 + 1, p.2) }

/-- The staging-list entry that a stream's record names: all ones where it was not taken from a list (R527). -/
def Stream.recordEntry (st : Stream) : Engine → BitVec 16
  | .core _ _ => 0xFFFF
  | .turret _ _ => st.entry

/-- A stream completes: its maximum is folded, its counter signalled, its fault reported; one that only copied poison logs
its record now (R290, R527). [DEDUCED, log 37] -/
def State.completeStream (s : State) (e : Engine) : State :=
  let st := s.stream e
  let d := st.desc
  let bad := decide (st.fault ≠ 0) || st.poisoned
  let fault : BitVec 4 := if st.fault ≠ 0 then st.fault else if st.poisoned then 1 else 0
  let s := if st.fault = 0 ∧ st.poisoned then s.faultRecord e 1 (st.recordEntry e) st.tenant else s
  let s := s.setStream e
    { st with state := if bad then 3 else 2, fault := fault, held := [], list := [], listPoison := [], got := [],
              acked := [], out := [], inb := [] }
  let s := s.foldAmax e st.owner st.amax
  let s := if bad then s else s.noteLate d
  let s := if dInc d ≠ 0 then
      s.send (engineRouter e) (cupolaRouter (ctrSpire (dCtr d))) false false st.tenant
        (.signal (.stream e (match e with | .core _ _ => some st.owner | .turret _ _ => none)) (dCtr d)
          (BitVec.ofNat 32 (dInc d)) bad)
    else s
  match e with
  | .core c k =>
    let s := if bad then s.modThread st.owner fun th => { th with sFault := true } else s
    let s := if dInc d = 0 then s.latch st.owner 6 else s
    s.traceStream c k.toNat fault.toNat
  | .turret sp n =>
    let s := if bad then s.turretFault sp n fault st.entry else s
    let s := if dNote d then s.raiseBic (quadOf sp) (0x011 + 3 * (sp.toNat % 16)) else s
    if st.entry = 0xFFFF ∨ st.seq ≠ s.ct.tick.toNat then s
    else s.modSpire sp fun k =>
      { k with listLeft := k.listLeft - 1, staged := decide (k.listLeft - 1 = 0) && k.listTodo.isEmpty }

/-- Whether everything that a stream issued is done and it has nothing more to do. -/
def Stream.finished (st : Stream) : Bool :=
  st.running && st.pending.isEmpty && (st.got.all fun r => r.parts.all fun p => p.data.isSome) &&
  (decide (st.fault ≠ 0) || (! dSched st.desc && decide (st.acked.length = st.rows)))

/-- A fault found while a stream runs: it issues nothing further, and a record is logged (R290, R527). -/
def State.faultStream (s : State) (e : Engine) (fault : BitVec 4) : State :=
  let st := s.stream e
  if ! st.live then s
  else (s.setStream e { st with fault := fault }).faultRecord e fault (st.recordEntry e) st.tenant

/-- A core's stream completes as soon as everything it issued is acknowledged; a Turret's completes by its own event. -/
def State.settleStream (s : State) (e : Engine) : State :=
  match e with
  | .core _ _ => if (s.stream e).finished then s.completeStream e else s
  | .turret _ _ => s

/-! ### The order of Local accesses (R214) -/

/-- Whether an earlier stream or matrix copy of the same thread still holds Local bytes that this stream uses (R214). -/
def State.streamHeld (s : State) (e : Engine) : Bool :=
  match e with
  | .core c _ =>
    let st := s.stream e
    (streamRanges c st.desc).any fun r =>
      (s.trackedBefore st.owner st.seq).any fun x => x.clash r.lo r.hi r.writes
  | .turret _ _ => false

/-- Whether an access to a side must wait for earlier operations of the thread: it lies in the core's own Local (R214). -/
def State.sideHeld (s : State) (e : Engine) (a : DWord) : Bool :=
  decide (aSpace a = 0) && (elsewhere e a).isNone && s.streamHeld e

/-! ### The index list (R329, R332) -/

/-- Read up to 16 entries of the list from the next one, at most 64 ahead of the rows done, through the path of the
list's space. -/
def State.readList (s : State) (e : Engine) : State :=
  let st := s.stream e
  let d := st.desc
  let i := st.list.length
  let n := min (min 16 (st.rows - i)) (64 + st.acked.length + st.pending.length - i)
  let a : DWord := BitVec.ofNat 64 (dGspace d * 2 ^ 48 +
    (if dGspace d = 0 then (engineRouter e).toNat * 2 ^ 50 else 0))
  if ! st.live ∨ ! dGen d ∨ n = 0 ∨ s.sideHeld e a then s
  else
    let r := s.resolve e a (dGaddr d + 4 * i : Nat) (4 * n) .read
    match r.1 with
    | .error f => (r.2.faultStream e f).settleStream e
    | .ok runs =>
      let bs := r.2.readSide e a runs
      let ws := bytesWords n (bs.map (·.1))
      let bad := (List.range n).filter fun k => (bs.drop (4 * k)).take 4 |>.any (·.2)
      r.2.modStream e fun st => { st with list := st.list ++ ws, listPoison := st.listPoison ++ bad.map (· + i) }

/-! ### Rows -/

/-- Whether a row has been read whole: its write is pending or done. -/
def Stream.taken (st : Stream) (row : Nat) : Bool :=
  st.acked.contains row || st.pending.any (fun p => decide (p.row = row))

/-- 64-byte units of a length (R301). -/
def units64 (n : Nat) : Nat := (n + 63) / 64

/-- Bytes that the Turret reads from or writes to Far (R301), and that cross a Far bridge (R302). -/
def State.countFar (s : State) (e : Engine) (writes : Bool) (runs : List (Nat × Nat)) : State :=
  let sp := engineSpire e
  let s := s.bump (if writes then .trtWrbytes else .trtRdbytes) sp.toNat 0 (units64 (runs.foldl (fun n r => n + r.2) 0))
  runs.foldl (fun s r =>
    let q := (quadOf sp).toNat
    let h := (farQuad r.1).toNat
    let reg : CReg := if writes then .fbrWrbytes else .fbrRdbytes
    let s := if q % 2 ≠ h % 2 then s.bump reg q 0 (units64 r.2) else s
    if q / 2 ≠ h / 2 then s.bump reg (2 * (q / 2) + h % 2) 1 (units64 r.2) else s) s

/-- The whole aligned 64-bit words that bytes [lo, lo + n) of `len` bytes at `at_` touch: their offset and length; nothing
is read or written in smaller pieces (R215, R222). -/
def wordSpan (at_ : Int) (len lo n : Nat) : Nat × Nat :=
  let first := lo - ((at_ + lo) % 8).toNat
  let last := min len (lo + n + ((-(at_ + (lo + n : Nat))) % 8).toNat)
  (first, last - first)

/-- The part of a stream's row that has come, in its place. -/
def insPart (p : ReadPart) : List ReadPart → List ReadPart
  | [] => [p]
  | q :: r => if p.lo < q.lo then p :: q :: r else q :: insPart p r

/-- The parts of a row that have been taken up. -/
def Stream.parts (st : Stream) (row : Nat) : List ReadPart :=
  match st.got.find? fun r => decide (r.row = row) with
  | some r => r.parts
  | none => []

/-- Replace the parts of a row. -/
def Stream.setParts (st : Stream) (row : Nat) (ps : List ReadPart) : Stream :=
  let rest := st.got.filter fun r => decide (r.row ≠ row)
  { st with got := if ps.isEmpty then rest else rest ++ [{ row := row, parts := ps }] }

/-- The bytes of a row whose parts have all come. -/
def wholeRow (len : Nat) (ps : List ReadPart) : Option (List (Byte × Bool)) :=
  let bs := ps.flatMap fun p => p.data.getD []
  if bs.length = len then some bs else none

/-- The bytes of a row have been read: convert them and hold the write of its destination, or send it to where it goes
(R287, R289, R290). -/
def State.rowRead (s : State) (e : Engine) (row : Nat) (bytes : List (Byte × Bool)) : State :=
  let st := s.stream e
  let d := st.desc
  let entry := st.list.getD row 0
  let from_ := rowStart d (dSrc d) (dGen d && ! dGside d) entry (dSys d) (dSzs d) row
  let at_ := rowStart d (dDst d) (dGen d && dGside d) entry (dDys d) (dDzs d) row
  let conv := if dConv d then convertRow d bytes else (bytes, ConvSum.zero)
  let s := if dConv d then s.streamConverted e from_ at_ conv.2 else s
  let s := if bytes.any (·.2) then s.modStream e fun st => { st with poisoned := true } else s
  let hold (s : State) (runs : List WRun) (tags : List (Nat × Nat)) : State :=
    s.modStream e fun st => { st with pending := st.pending ++ [{ row := row, runs := runs, tags := tags }] }
  match elsewhere e (dDst d) with
  | some w =>
    if (match w with | .core _ => decide (at_ < 0) || decide (0xC0000 < at_ + conv.1.length) | .device _ => decide (at_ < 0)) then
      (s.faultStream e 8).settleStream e
    else
      let cut := spread (cutRuns w.most at_.toNat conv.1.length (conv.1.length / w.most + 2)) conv.1
      let parts := match w with
        | .device _ => cut.flatMap fun p => cutMarked p.1 p.2
        | .core _ => cut
      let r := s.sendParts e w row parts
      hold r.2 [] r.1
  | none =>
    let r := s.resolve e (dDst d) at_ conv.1.length .write
    match r.1 with
    | .error f => (r.2.faultStream e f).settleStream e
    | .ok runs =>
      let s := if aSpace (dDst d) = 2 then r.2.countFar e true runs else r.2
      let offs := (runs.foldl (fun o r => (o.1 ++ [o.2], o.2 + r.2)) (([] : List Nat), 0)).1
      hold s ((offs.zip (spread runs conv.1)).map fun p => { off := p.1, addr := p.2.1, bytes := p.2.2 }) []

/-- A part of a row has come; with the last part the row goes on to its destination. A stream that met a fault writes
nothing more. -/
def State.partCame (s : State) (e : Engine) (row : Nat) (ps : List ReadPart) : State :=
  let st := s.stream e
  match wholeRow (dXlen st.desc) ps with
  | some bytes =>
    let s := s.setStream e (st.setParts row [])
    if st.fault ≠ 0 then s.settleStream e else s.rowRead e row bytes
  | none => (s.setStream e (st.setParts row ps)).settleStream e

/-- A part of a row is read at its source, or asked for where another core or device holds it (R287, R289): nothing where
the stream may not issue it yet. -/
def State.readRow (s : State) (e : Engine) (p : RowPart) : State :=
  let st := s.stream e
  let d := st.desc
  let row := p.row
  if ! st.live ∨ dSched d ∨ st.rows ≤ row ∨ st.taken row ∨ s.sideHeld e (dSrc d) then s
  else if dGen d ∧ st.list.length ≤ row then s
  else if dGen d ∧ st.listPoison.contains row then (s.faultStream e 1).settleStream e
  else
    let entry := st.list.getD row 0
    if dGen d ∧ bit entry 31 then
      (s.modStream e fun st => { st with acked := st.acked ++ [row] }).settleStream e
    else
      let at_ := rowStart d (dSrc d) (dGen d && ! dGside d) entry (dSys d) (dSzs d) row
      let w := wordSpan at_ (dXlen d) p.lo p.n
      let ps := st.parts row
      if w.2 = 0 ∨ (ps.any fun q => decide (q.lo < w.1 + w.2) && decide (w.1 < q.lo + q.n)) then s
      else
        match elsewhere e (dSrc d) with
        | some x =>
          if (match x with | .core _ => decide (at_ < 0) || decide (0xC0000 < at_ + dXlen d) | .device _ => decide (at_ < 0)) then
            (s.faultStream e 8).settleStream e
          else
            let a := (at_ + w.1).toNat
            let r := s.askParts e x row w.1 (cutRuns x.most a w.2 (w.2 / x.most + 2))
            r.2.modStream e fun st => st.setParts row (r.1.foldl (fun ps q => insPart q ps) ps)
        | none =>
          let r := s.resolve e (dSrc d) (at_ + w.1) w.2 .read
          match r.1 with
          | .error f => (r.2.faultStream e f).settleStream e
          | .ok runs =>
            let s := if aSpace (dSrc d) = 2 then r.2.countFar e false runs else r.2
            s.partCame e row
              (insPart { lo := w.1, n := w.2, tag := 0, data := some (s.readSide e (dSrc d) runs) } ps)

/-- Write runs of bytes and poison the words that arrive poisoned (R228, R229). -/
def storeRuns (m : Mem) (runs : List (Nat × List Byte)) (poison : List Nat) : Mem :=
  poison.foldl (fun m a => m.poisonWord a) (runs.foldl (fun m r => m.store r.1 r.2) m)

/-- Whether write-back entries of the list that overlap a staging entry's Drum range have not all been read (R295). -/
def State.stageHeld (s : State) (e : Engine) : Bool :=
  match e with
  | .core _ _ => false
  | .turret sp _ =>
    let st := s.stream e
    if st.wback ∨ st.entry = 0xFFFF ∨ aSpace (dDst st.desc) ≠ 1 then false
    else
      let span (d : SDesc) (src : Bool) : Int × Int :=
        if dGen d && (dGside d != src) then (0, 0x800000) else if src then srcExtent d else dstExtent d
      let w := span st.desc false
      (s.spire sp).turret.any (fun p =>
        p.2.live && p.2.wback && decide (p.2.acked.length + p.2.pending.length < p.2.rows) &&
        decide ((span p.2.desc true).1 < w.2) && decide (w.1 < (span p.2.desc true).2)) ||
      (s.spire sp).listTodo.any (·.2)

/-- The bytes of a run that lie in the whole words touched by [lo, lo + n) of the row, and the pieces of the run that stay. -/
def WRun.cut (r : WRun) (lo n : Nat) : Option WRun × List WRun :=
  let len := r.bytes.length
  let a := max lo r.off
  let b := min (lo + n) (r.off + len)
  if b ≤ a then (none, [r])
  else
    let w := wordSpan r.addr len (a - r.off) (b - a)
    let piece (o k : Nat) : WRun := { off := r.off + o, addr := r.addr + o, bytes := (r.bytes.drop o).take k }
    (some (piece w.1 w.2),
     (if w.1 = 0 then [] else [piece 0 w.1]) ++
     (if w.1 + w.2 < len then [piece (w.1 + w.2) (len - (w.1 + w.2))] else []))

/-- Replace what is pending of a row: with nothing left the row is done. -/
def State.rowPending (s : State) (e : Engine) (p : PendingWrite) (bytes : Nat) : State :=
  (s.modStream e fun st =>
    let rest := st.pending.filter fun q => decide (q.row ≠ p.row)
    let st := { st with done := st.done + bytes }
    if p.runs.isEmpty ∧ p.tags.isEmpty then { st with pending := rest, acked := st.acked ++ [p.row] }
    else { st with pending := rest ++ [p] }).settleStream e

/-- Words of a row's write are performed and acknowledged at their destination (R215, R222, R290); a Local write of another
placement's epoch is discarded (R292). -/
def State.ackRow (s : State) (e : Engine) (p : RowPart) : State :=
  let st := s.stream e
  let d := st.desc
  match st.pending.find? fun q => decide (q.row = p.row) with
  | none => s
  | some q =>
    let cuts := q.runs.map fun r => r.cut p.lo p.n
    let now := cuts.filterMap (·.1)
    let left := cuts.flatMap (·.2)
    if now.isEmpty ∨ ! st.running ∨ s.stageHeld e ∨ s.sideHeld e (dDst d) then s
    else
      let stale := decide (aSpace (dDst d) = 0) && decide ((s.core (engineRouter e)).epoch ≠ dEpoch d)
      if stale then (s.faultStream e 6).rowPending e { q with runs := left } 0
      else
        let lost := decide (2 ≤ aSpace (dDst d)) && now.any fun r => s.farDead r.addr
        let s := now.foldl (fun s r => s.writeSide e (dDst d) r.addr r.bytes) s
        let s := if lost then s.modStream e fun st => { st with poisoned := true } else s
        s.rowPending e { q with runs := left } (now.foldl (fun n r => n + r.bytes.length) 0)

/-- What another core or device answers to a read of a part: its data, or a fault that ends the stream (R289, R525). -/
def State.partRead (s : State) (e : Engine) (row tag : Nat) (data : List (Byte × Bool)) (fault : BitVec 4) : State :=
  let st := s.stream e
  let ps := st.parts row
  if ! ps.any fun q => decide (q.tag = tag) && q.data.isNone then s
  else
    let ps := ps.map fun q =>
      if q.tag = tag ∧ q.data = none then
        { q with data := some ((data ++ List.replicate (q.n - data.length) (0, false)).take q.n) }
      else q
    (if fault = 0 then s else s.faultStream e fault).partCame e row ps

/-- A packet of a row's write is acknowledged: the row is done with its last packet, and a packet that answers with poison
makes the stream report it (R290, R388). -/
def State.partAcked (s : State) (e : Engine) (row tag : Nat) (poison : Bool) (fault : BitVec 4) : State :=
  let st := s.stream e
  match st.pending.find? fun p => decide (p.row = row) && p.tags.any fun t => decide (t.1 = tag) with
  | none => s
  | some p =>
    let s := if fault = 0 then s else s.faultStream e fault
    let s := if poison then s.modStream e fun st => { st with poisoned := true } else s
    let n := if poison ∨ fault ≠ 0 then 0 else (p.tags.filter fun t => decide (t.1 = tag)).foldl (fun n t => n + t.2) 0
    s.rowPending e { p with tags := p.tags.filter fun t => decide (t.1 ≠ tag) } n

/-! ### Another core's Local over the D-mesh (R289, R292) -/

/-- A read request reaches the core: its bytes go back on response VC1. -/
def State.serveRead (s : State) (p : Packet) (e : Engine) (row tag a n : Nat) : State :=
  let s := s.consume p.id
  let ok := s.domCarries (spireOf p.dst).toNat && decide (a + n ≤ 0xC0000)
  s.send p.dst p.src true true p.tenant
    (.strData e row tag (if ok then readRuns (s.core p.dst).mem [(a, n)] else List.replicate n (0, true)) (if ok then 0 else 3))

/-- Write data reaches the core: written and acknowledged on response VC0, or discarded where the core carries another
placement's epoch. -/
def State.serveWrite (s : State) (p : Packet) (e : Engine) (row tag a : Nat) (epoch : Byte) (bs : List (Byte × Bool)) :
    State :=
  let s := s.consume p.id
  let fault : BitVec 4 :=
    if ! s.domCarries (spireOf p.dst).toNat then 3 else if (s.core p.dst).epoch ≠ epoch then 6 else 0
  let s := if fault = 0 then s.modCore p.dst fun k => { k with mem := storeMarked k.mem a bs } else s
  s.send p.dst p.src true false p.tenant (.strAck e row tag fault)

/-- A packet of a row's read is taken: data that has come back, else a request at the core that holds the row. -/
def State.readPacket (s : State) (e : Engine) (row : Nat) : Option State :=
  match s.flight.find? fun p => s.consumable p &&
      (match p.body with | .strData x r _ _ _ => decide (x = e) && decide (r = row) | _ => false) with
  | some p =>
    match p.body with
    | .strData _ _ tag bs f => some ((s.consume p.id).partRead e row tag bs f)
    | _ => none
  | none =>
    match s.flight.find? fun p => s.consumable p &&
        (match p.body with | .strRead x r _ _ _ => decide (x = e) && decide (r = row) | _ => false) with
    | some p =>
      match p.body with
      | .strRead _ _ tag a n => some (s.serveRead p e row tag a n)
      | _ => none
    | none => none

/-- A packet of a row's write is taken: an acknowledgement that has come back, else data at the core that it goes to. -/
def State.writePacket (s : State) (e : Engine) (row : Nat) : Option State :=
  match s.flight.find? fun p => s.consumable p &&
      (match p.body with | .strAck x r _ _ => decide (x = e) && decide (r = row) | _ => false) with
  | some p =>
    match p.body with
    | .strAck _ _ tag f => some ((s.consume p.id).partAcked e row tag false f)
    | _ => none
  | none =>
    match s.flight.find? fun p => s.consumable p &&
        (match p.body with | .strWrite x r _ _ _ _ => decide (x = e) && decide (r = row) | _ => false) with
    | some p =>
      match p.body with
      | .strWrite _ _ tag a ep bs => some (s.serveWrite p e row tag a ep bs)
      | _ => none
    | none => none

/-! ### SCHED streams (R293) -/

/-- The SCHED stream that a core's channel is bound to. -/
def State.boundStream (s : State) (c : CoreId) (chan : Nat) : Option Engine :=
  let hits := (s.core c).slots.filter fun p => p.2.live && dSched p.2.desc && decide (dPchan p.2.desc = chan)
  match hits with
  | [] => none
  | (k, _) :: _ => some (.core c (BitVec.ofNat 4 k))

/-- Bytes of one flit of a channel: 64, or 16 with WIDTH 1 (R244). -/
def chanBytes (w : BitVec 128) : Nat := if bit w 22 then 16 else 64

/-- S-mesh bytes of a SCHED stream in all. -/
def Stream.meshBytes (st : Stream) : Nat :=
  st.rows * (if dInbound st.desc then dXlen st.desc else dDstLen st.desc)

/-- The smallest number of source bytes that holds whole elements and yields whole destination bytes. -/
def groupBytes (d : SDesc) : Nat :=
  if dConv d then
    let ws := (fmtWidth (dCsrc d)).getD 8
    let wd := (fmtWidth (dCdst d)).getD 8
    let n := Nat.lcm (8 / Nat.gcd 8 ws) (8 / Nat.gcd 8 wd)
    n * ws / 8
  else 1

/-- Destination bytes of `n` source bytes that hold whole groups. -/
def convLen (d : SDesc) (n : Nat) : Nat :=
  if dConv d then n * 8 / (fmtWidth (dCsrc d)).getD 8 * (fmtWidth (dCdst d)).getD 8 / 8 else n

/-- An outbound SCHED stream reads on in its row until four flits are ready, and sets its channel's `SMR_PREADY` bit once
one is. -/
def State.readSched (s : State) (e : Engine) (row : Nat) : State :=
  match e with
  | .turret _ _ => s
  | .core c _ =>
    let st := s.stream e
    let d := st.desc
    let cb := chanBytes ((s.core c).router.chan (dPchan d))
    let off := st.pos % dXlen d
    let g := groupBytes d
    let n := min (dXlen d - off) ((4 * cb - st.out.length) / convLen d g * g)
    if ! st.live ∨ ! dSched d ∨ dInbound d ∨ row ≠ st.pos / dXlen d ∨ st.rows ≤ row ∨ n = 0 ∨ s.sideHeld e (dSrc d) then s
    else
      let at_ := rowStart d (dSrc d) false 0 (dSys d) (dSzs d) row + off
      let r := s.resolve e (dSrc d) at_ n .read
      match r.1 with
      | .error f => (r.2.faultStream e f).settleStream e
      | .ok runs =>
        let s := r.2
        let bytes := readRuns (s.sideMem e (dSrc d)) runs
        let conv := if dConv d then convertRow d bytes else (bytes, ConvSum.zero)
        let s := if dConv d then s.streamConverted e at_ 0 conv.2 else s
        let s := s.modStream e fun st =>
          { st with out := st.out ++ conv.1, pos := st.pos + n, poisoned := st.poisoned || bytes.any (·.2),
                    acked := if off + n = dXlen d then st.acked ++ [row] else st.acked }
        let st := s.stream e
        if cb ≤ st.out.length ∨ st.acked.length = st.rows then
          let own := decide (chanSpace ((s.core c).router.chan (dPchan d)) = 1) &&
            decide (fld ((s.core c).router.chan (dPchan d)) 29 28 = st.owner.thread.toNat)
          s.modCore c fun k =>
            { k with router :=
              { k.router with
                  pready := k.router.pready ||| (1#8 <<< dPchan d)
                  freed := k.router.freed ||| (if own then 1#8 <<< dPchan d else 0) } }
        else s

/-- The next flit of an outbound stream: its bytes with their poison, padded with zeros at the end; none where no flit
is ready. The stream completes when its last flit has been driven. -/
def State.takeSched (s : State) (e : Engine) (n : Nat) : Option (List (Byte × Bool)) × State :=
  let st := s.stream e
  let total := st.meshBytes
  let left := total - st.sent
  if st.out.length < min n left ∨ left = 0 ∨ dInbound st.desc then (none, s)
  else
    let bs := st.out.take n
    let s := s.setStream e
      { st with out := st.out.drop n, sent := st.sent + min n left, done := st.done + min n left }
    let s := if total ≤ (s.stream e).sent then s.completeStream e else s
    (some (bs ++ List.replicate (n - bs.length) (0, false)), s)

/-- The runs of present bytes among arrived ones, each at its offset. -/
def presentRuns (k : Nat) : List (Option (Byte × Bool)) → List (Nat × List (Byte × Bool))
  | [] => []
  | none :: r => presentRuns (k + 1) r
  | some b :: r =>
    match presentRuns (k + 1) r with
    | (j, bs) :: q => if j = k + 1 then (k, b :: bs) :: q else (k, [b]) :: (j, bs) :: q
    | [] => [(k, [b])]

/-- Write destination bytes of an inbound stream. -/
def State.putSchedRun (s : State) (e : Engine) (at_ : Int) (bs : List (Byte × Bool)) : State :=
  let d := (s.stream e).desc
  let r := s.resolve e (dDst d) at_ bs.length .write
  match r.1 with
  | .error f => r.2.faultStream e f
  | .ok runs =>
    let parts := spread runs bs
    r.2.modSideMem e (dDst d) fun m =>
      storeRuns m (parts.map fun p => (p.1, p.2.map (·.1)))
        (parts.flatMap fun p => (p.2.zipIdx.filter fun b => b.1.2).map fun b => p.1 + b.2)

/-- Destination bytes of one group of arrived bytes: an element that a hole touches leaves the bytes of its result
unchanged. -/
def groupOut (d : SDesc) (g : List (Option (Byte × Bool))) : List (Option (Byte × Bool)) × ConvSum :=
  if dConv d then
    let ws := (fmtWidth (dCsrc d)).getD 8
    let wd := (fmtWidth (dCdst d)).getD 8
    let bytes := g.map fun x => x.getD (0, false)
    let holes := g.map fun x => x.isNone
    let r := convertRow d bytes
    (r.1.zipIdx.map fun p =>
      let first := p.2 * 8 / wd
      let last := (p.2 * 8 + 7) / wd
      if (List.range (last + 1 - first)).any fun k => bitsBad holes ((first + k) * ws) ws then none else some p.1, r.2)
  else (g, ConvSum.zero)

/-- Write the whole groups that have arrived, row by row, `n` pieces at most; they wait for earlier operations of the thread
on the same Local (R214), and a Local write of another placement's epoch is discarded (R292). -/
def State.drainSched (s : State) (e : Engine) : Nat → State
  | 0 => s
  | n + 1 =>
    let st := s.stream e
    let d := st.desc
    let off := st.sent % dXlen d
    let g := min st.inb.length (dXlen d - off) / groupBytes d * groupBytes d
    if g = 0 ∨ st.meshBytes ≤ st.sent ∨ ! st.live ∨ s.sideHeld e (dDst d) then s
    else if aSpace (dDst d) = 0 ∧ (s.core (BitVec.ofNat 11 (aNode (dDst d)))).epoch ≠ dEpoch d then s.faultStream e 6
    else
      let o := groupOut d (st.inb.take g)
      let dOff := convLen d off
      let base := rowStart d (dDst d) false 0 (dDys d) (dDzs d) (st.sent / dXlen d) + dOff
      let s := if dConv d then s.streamConverted e 0 base o.2 else s
      let s := (presentRuns 0 o.1).foldl (fun s p => s.putSchedRun e (base + p.1) p.2) s
      let bad := o.1.any fun x => match x with | some b => b.2 | none => false
      let s := s.modStream e fun st =>
        { st with inb := st.inb.drop g, sent := st.sent + g, poisoned := st.poisoned || bad,
                  done := st.done + (o.1.filter (·.isSome)).length }
      s.drainSched e n

/-- An inbound SCHED stream writes what has arrived, and completes with its last byte. -/
def State.writeSched (s : State) (e : Engine) : State :=
  let s := s.drainSched e ((s.stream e).inb.length + 2)
  let st := s.stream e
  if st.running ∧ (st.fault ≠ 0 ∨ st.meshBytes ≤ st.sent) then s.completeStream e else s

/-- A flit reaches an inbound SCHED stream: its data bytes go to the stream's next destination bytes, a void flit
advances past them; with its last byte the stream completes. [DEDUCED, log 48] -/
def State.putSched (s : State) (e : Engine) (bytes : List (Option (Byte × Bool))) : State :=
  (s.modStream e fun st => { st with inb := st.inb ++ bytes }).writeSched e

end Sys2Proof.Machine
end

