-- ==== Sys2Proof/Machine/TileOps.lean ====
section
/-! DEFINITION. Allocation, release and power-gating of tiles and accumulators (R70, R71, R164). -/

namespace Sys2Proof.Machine

open Sys2Proof

/-- The codes 0 to 23 that the low 24 bits of a mask name: tiles, then accumulators (R70). -/
def maskCodes (m : Word) : List Nat := (List.range 24).filter fun k => bit m k

/-- The banks of a code (R160). -/
def codeBanks (k : Nat) : List Nat := if k < 16 then [k] else [2 * k - 16, 2 * k - 15]

/-- A mask of codes. -/
def codesMask (ks : List Nat) : Word := ks.foldl (fun m k => m ||| (1#32 <<< k)) 0

/-- The requested codes that other threads own (R70). -/
def TileFile.conflicts (f : TileFile) (t : BitVec 2) (m : Word) : List Nat :=
  (maskCodes m).filter fun k => match (f.target k).owner with | some o => o ≠ t | none => false

/-- A free tile becomes the thread's: undefined contents, empty, checksums invalid, its banks powered (R70, R164). -/
def TileFile.allocate (f : TileFile) (t : BitVec 2) (free k : Nat) : TileFile :=
  if (f.target k).owner.isSome then f
  else
    let x : TileSt := { owner := some t, empty := true, data := { base := .free free, bytes := [], poison := [] },
                        chk := Checksum.reset }
    let f := f.setTarget k x
    { f with gated := (codeBanks k).foldl (fun g b => g &&& ~~~ (1#32 <<< b)) f.gated }

/-- Allocate codes one after the other, with fresh undefined contents for each. -/
def State.allocTiles (s : State) (t : Tid) : List Nat → State
  | [] => s
  | k :: r =>
    let s := (s.modCore t.core fun c => { c with tile := c.tile.allocate t.thread s.free k })
    ({ s with free := s.free + 1 }).allocTiles t r

/-- A released tile: no owner, empty, undefined contents; the 64 idle cycles of its banks count from now (R71, R164). -/
def TileFile.release (f : TileFile) (free now k : Nat) : TileFile :=
  let x : TileSt := { owner := none, empty := true, data := { base := .free free, bytes := [], poison := [] },
                      chk := Checksum.reset }
  let f := f.setTarget k x
  { f with idleFrom := (codeBanks k).foldl (fun i b => Store.put i b now) f.idleFrom }

/-- Release codes one after the other. -/
def State.releaseTiles (s : State) (c : CoreId) : List Nat → State
  | [] => s
  | k :: r =>
    let s := s.modCore c fun x => { x with tile := x.tile.release s.free s.now k }
    ({ s with free := s.free + 1 }).releaseTiles c r

/-- Release every tile and accumulator of a thread. -/
def State.releaseAllTiles (s : State) (t : Tid) : State :=
  s.releaseTiles t.core ((List.range 24).filter fun k => ((s.core t.core).tile.target k).owner = some t.thread)

/-- Whether a queued unit instruction names one of the codes (R71). -/
def State.tilesQueued (s : State) (c : CoreId) (m : Word) : Bool :=
  (s.core c).queued.any fun u => u.namesT.any fun k => (maskCodes m).contains k

/-- Whether a bank's tile or accumulator has been free, with GATE set, for 64 cycles; they count from the Spire's release
for a bank that nothing has used since (R164). -/
def State.bankIdle (s : State) (c : CoreId) (b : Nat) : Bool :=
  let f := (s.core c).tile
  let code := if b < 16 then b else (b + 16) / 2
  (f.target code).owner.isNone && bit (s.creg .matCtl c.toNat 0) 1 &&
  decide (Store.get (s.spire (spireOf c)).cycBase f.idleFrom b + 64 ≤ s.now)

end Sys2Proof.Machine
end

