-- ==== Sys2Proof/Machine/Unblock.lean ====
section
/-! DEFINITION. What a stalled thread waits for, and how its instruction completes once the condition holds (R37). -/

namespace Sys2Proof.Machine

open Sys2Proof

/-- Set V. -/
def Thread.setVflag (th : Thread) (v : Bool) : Thread := th.setBank { th.bank with v := v }

/-! ### Fences (R73 to R75) -/

/-- `fence.l`: every earlier load has returned its data (stores are in their banks at once). -/
def Thread.fenceLDone (th : Thread) : Bool := th.loads.all (·.arrived)

/-- `fence.s`: the thread's streams have completed and their counters are signalled. -/
def State.fenceSDone (s : State) (t : Tid) : Bool :=
  ! ((s.core t.core).slots.any fun p => p.2.running && decide (p.2.owner = t)) &&
  ! (s.flight.any fun p => match p.body with | .signal (.stream _ (some o)) _ _ _ => decide (o = t) | _ => false)

/-- `fence.s` completes: V tells of a fault or poison since the last one. -/
def State.fenceSEnd (s : State) (t : Tid) : State :=
  s.modThread t fun th => { th.setVflag th.sFault with sFault := false }

/-- `fence.d` completes: V and `SSTAT` tell of a channel message answered STALE_EPOCH or CLOSED (R75, R86). Of several
answers the oldest is reported, and the others are left to later fences. [DESIGN CHOICE, log 108] -/
def Thread.fenceDEnd (th : Thread) : Thread :=
  match th.dStatus with
  | (c, h) :: rest => ({ th with dStatus := rest }.reportHandle c h)
  | [] => th.setVflag false

/-! ### `tick_end` (R68, R69) -/

/-- The thread's entries in the unit queues have completed. -/
def State.unitsDone (s : State) (t : Tid) : Bool := (s.queuedOf t).isEmpty

/-- Whether the edge cycle has come: a report made now is late (R68). -/
def State.edgeDue (s : State) : Bool := match s.ct.notice with | some c => decide (c ≤ s.now) | none => false

/-- A thread sleeps until the edge, its instruction completed; a report before the edge cycle counts (R68, R69). -/
def State.tickEndDone (s : State) (t : Tid) : State :=
  s.modThread t fun th => { th.retire with status := .tickSleep, doneTick := ! s.edgeDue }

/-! ### Streams -/

/-- The lowest free slot of a core (R284). -/
def Core.freeSlot (k : Core) : Option Nat :=
  (List.range 12).find? fun n => ! (Store.get Stream.reset k.slots n).running

/-- Start a validated stream in a slot (R284). -/
def State.startStream (s : State) (t : Tid) (slot : Nat) (d : SDesc) (reg : Reg) : State :=
  let k := s.core t.core
  let st := s.newStream d t (s.thread t).tenant k.nextSeq 0xFFFF false
  let s := s.setCore t.core { k with nextSeq := k.nextSeq + 1 }
  let s := s.setStream (.core t.core (BitVec.ofNat 4 slot)) st
  (s.modThread t fun th => th.setG reg (BitVec.ofNat 32 slot)).traceStream t.core slot 0

/-! ### Channels -/

/-- The first `n` words of a queue, where they are there. -/
def Endpoint.firstWords (e : Endpoint) (n : Nat) : Option (List QWord) :=
  if e.queue.length < n then none else some (e.queue.take n)

/-- A receive that finds a poisoned word pops its words and raises `ECC_UNCORRECTED` (R27, R282). [DEDUCED, log 18] -/
def State.recvPoisoned (s : State) (t : Tid) (n : BitVec 2) (count : Nat) : State :=
  (s.popWords t n count).syncExc t 0x05 ((epId t n).setWidth 32) (s.thread t).pc .channel

/-- A `recv` or `recvv` whose words are there (R27, R282). -/
def State.takeWords (s : State) (t : Tid) (n : BitVec 2) (count : Nat) (take : State → State) : Option State :=
  match ((s.thread t).ep n).firstWords count with
  | none => none
  | some ws =>
    if ws.any (·.poison) then some (s.recvPoisoned t n count)
    else some ((take s).resume t)

/-- A waiting `send` judged again: a closed or stale handle reports, credit for every word sends it (R84, R86). -/
def State.trySend (s : State) (t : Tid) (h : BitVec 3) (words : List DWord) : Option State :=
  let th := s.thread t
  match th.sendVerdict h words.length with
  | some c => some ((s.modThread t fun th => th.reportHandle c h).resume t)
  | none =>
    if words.length ≤ (th.handle h).credit then
      some ((s.claimCredit t h words).modThread t fun th => { th with status := .blocked (.inject h words 0) })
    else none

/-- `chclose` with every message acknowledged: a held answer is reported, else OK; the handle is released, and a request
on VC1 releases the opener slot (R86, R271). [DEDUCED, log 23] -/
def State.closeHandle (s : State) (t : Tid) (h : BitVec 3) : State :=
  let x := (s.thread t).handle h
  let s := s.modThread t fun th => (th.setHandle h Handle.reset).reportHandle x.status h
  if ! x.opened then s
  else
    (s.modThread t fun th => { th with posted := th.posted + 1 }).send t.core (epThread x.ep).core false true (s.thread t).tenant
      (.chclose t h x.ep x.slot)

/-! ### Control writes in flight -/

/-- Whether a posted write of the thread to its own Lantern is still on its way (R106). -/
def State.lanternWrites (s : State) (t : Tid) : Bool :=
  s.flight.any fun p =>
    match p.body with
    | .ctlWrite who _ a _ => decide (who = t) && (match lanternAt a.toNat with | some (o, _) => decide (o = t) | none => false)
    | _ => false

/-- Whether a queued unit instruction of the thread writes a general register. -/
def State.gPending (s : State) (t : Tid) : Bool := (s.queuedOf t).any fun u => ! u.ins.writesG.isEmpty

/-- Whether the thread's own stores and streams into memory have completed, as a write of `CUP_DONE` or of its router's
`SMR_PREADY` waits for (R247, R324). -/
def State.localDone (s : State) (t : Tid) : Bool :=
  ! ((s.core t.core).slots.any fun p => p.2.running && decide (p.2.owner = t))

/-- A held control write leaves the core (R247, R324). -/
def State.postCtl (s : State) (t : Tid) (addr v : Word) : State :=
  let th := s.thread t
  let s := s.modThread t fun th => { th with posted := th.posted + 1 }
  s.send t.core (addrRouter addr.toNat) false false th.tenant (.ctlWrite t th.priv addr v)

/-- Whether a held control write may leave: a write of `SMR_PREADY` waits for the thread's streams into Local and its
unit instructions, a write of `CUP_DONE` for all its streams (R247, R324). -/
def State.heldReady (s : State) (t : Tid) (addr : Word) : Bool :=
  match locate addr.toNat with
  | some (.smrPready, _, _) =>
    s.unitsDone t &&
    ! ((s.core t.core).slots.any fun p => p.2.running && decide (p.2.owner = t) && decide (aSpace (dDst p.2.desc) = 0))
  | _ => s.localDone t

/-! ### Polling -/

/-- Complete what a thread waits for, where its condition holds (R37). [DESIGN CHOICE, log 14] -/
def State.poll (s : State) (t : Tid) : State :=
  match (s.thread t).status with
  | .blocked b =>
    match b with
    | .fenceL => if (s.thread t).fenceLDone then s.resume t else s
    | .fenceS => if s.fenceSDone t then (s.fenceSEnd t).resume t else s
    | .fenceD => if (s.thread t).posted = 0 then (s.modThread t Thread.fenceDEnd).resume t else s
    | .tickEnd => if s.unitsDone t then s.tickEndDone t else s
    | .trel m => if s.tilesQueued t.core m then s else (s.releaseTiles t.core (maskCodes m)).resume t
    | .send h ws _ => (s.trySend t h ws).getD s
    | .recv d n => (s.takeWords t n 1 fun s => s.recvWord t d n).getD s
    | .recvv d n => (s.takeWords t n 8 fun s => s.recvVec t d n).getD s
    | .chclose h => if ((s.thread t).handle h).unacked = 0 then (s.closeHandle t h).resume t else s
    | .cupDone addr v => if s.heldReady t addr then (s.postCtl t addr v).resume t else s
    | .eret =>
      if s.lanternWrites t ∨ s.gPending t then s
      else
        match s.eret t with
        | .ok s => s.modThread t fun th => { th with status := .running }
        | .error (c, a) => s.syncExc t c a (s.thread t).pc .scalar
    | .wait _ | .sissue .. | .swait .. | .lock .. | .atomic .. | .ctlrx .. | .chopen .. | .guarded _ | .inject .. | .fetch
    | .preload .. => s
  | _ => s

/-- The threads of a core that wait for a stream slot, with their tickets. -/
def State.slotWaiters (s : State) (c : CoreId) : List (Nat × BitVec 2) :=
  ([0, 1, 2, 3] : List (BitVec 2)).filterMap fun k =>
    match (s.thread { core := c, thread := k }).status with
    | .blocked (.sissue _ _ n) => some (n, k)
    | _ => none

/-- The thread that has waited for a slot the longest (R283). -/
def firstTicket : List (Nat × BitVec 2) → Option (BitVec 2)
  | [] => none
  | w :: r => some (r.foldl (fun a b => if b.1 < a.1 then b else a) w).2

/-- Freed slots go to the threads that wait for one, first come first served (R283). -/
def State.serveSlots (s : State) (c : CoreId) : Nat → State
  | 0 => s
  | n + 1 =>
    match firstTicket (s.slotWaiters c), (s.core c).freeSlot with
    | some k, some slot =>
      let t : Tid := { core := c, thread := k }
      match (s.thread t).status with
      | .blocked (.sissue d desc _) => ((s.startStream t slot desc d).resume t).serveSlots c n
      | _ => s
    | _, _ => s

/-- Poll the four threads of a core; freed stream slots are given out first. -/
def State.pollCore (s : State) (c : CoreId) : State :=
  ((((s.serveSlots c 4).poll { core := c, thread := 0 }).poll { core := c, thread := 1 }).poll
    { core := c, thread := 2 }).poll { core := c, thread := 3 }

end Sys2Proof.Machine
end

