-- ==== Sys2Proof/Machine/Stop.lean ====
section
/-! DEFINITION. Stopping what a thread is held on, so that a vector can be taken (R37, R76, R100, R110 to R112). -/

namespace Sys2Proof.Machine

open Sys2Proof

/-- What stopping a thread comes to: the entry must wait, the thread has taken a cause of its own instead, or it stands
at the return address. -/
inductive Stop where
  | wait
  | taken (s : State)
  | ready (s : State)

/-- The device of a counter operand with R = 1 (R305). -/
def operandDev (w : Word) : BitVec 10 := w.extractLsb' 16 10

/-- Whether a counter operand names a counter of another device. -/
def State.remoteCtr (s : State) (w : Word) : Bool := bit w 26 && decide (operandDev w ≠ s.devId)

/-- Send an operation of a remote counter to its home: code 0 `sig`, 1 `sigp`, 2 `swait`, beside the operand in ADDR, and
the increment or target in ARG (R397). [DESIGN CHOICE, log 43] -/
def State.askCounter (s : State) (who : Hart) (w : Word) (code : Nat) (arg : Word) (what : SkbFor) : State :=
  let x := s.hartTenant who
  (s.skbAsk (operandDev w) 6 x.1 x.2 false (BitVec.ofNat 64 (w.toNat + code * 2 ^ 32)) (arg.setWidth 64) [] what).2

/-- The Skybridge tag under which a requester's `swait` waits. -/
def State.counterTag (s : State) (who : Hart) (tag : Nat) : Option (BitVec 16) :=
  (s.skbWaits.find? fun w => decide (w.what = .counter who tag)).map (·.tag)

/-- A COUNTER_OP that nothing waits for: code 3 a withdrawal, 4 a watch's registration with its target in ARG, 5 its
withdrawal (R311, R397). [DESIGN CHOICE, log 43] -/
def State.tellCounter (s : State) (w : Word) (tenant : BitVec 4) (epoch : Byte) (tag : BitVec 16) (code : Nat) (arg : Word) :
    State :=
  { s with
      toSkb := s.toSkb ++
        [{ dst := operandDev w, src := s.devId, ptype := 6, tenant := tenant, epoch := epoch, tag := tag, poison := false,
           addr := BitVec.ofNat 64 (w.toNat % 2 ^ 31 + code * 2 ^ 32), arg := arg.setWidth 64, e2eOk := true, data := [] }] }

/-- A requester as a Cupola knows it. -/
def requesterOf : Hart → Requester
  | .thread t => .thread t
  | .belfry b => .belfry b

/-- Withdraw a waiting `swait` or `lock` request (R310, R319). -/
def State.sendWithdraw (s : State) (who : Hart) (tag : Nat) (lock : Bool) (operand : Word) : State :=
  let x := s.hartTenant who
  if ! lock ∧ s.remoteCtr operand then
    match s.counterTag who tag with
    | some g =>
      ({ s with skbWaits := s.skbWaits.filter fun w => w.tag ≠ g } : State).tellCounter operand x.1 x.2 g 3 (g.setWidth 32)
    | none => s
  else
    let obj : BitVec 16 := if lock then (operand.setWidth 14).setWidth 16 else operand.setWidth 16
    let sp := if lock then lockSpire (obj.setWidth 14) else ctrSpire obj
    s.send (hartRouter who) (cupolaRouter sp) false false x.1 (.withdraw (requesterOf who) tag lock obj)

/-- A Belfry core that waits for a counter or a lock gives its request up and stands at the instruction again (R310,
R319). -/
def State.belfryStop (s : State) (b : BCore) : State :=
  let free (s : State) : State := s.modBel b fun k => { k with block := none }
  match (s.bel b).block with
  | some (.swait _ op _ _ tag _ _ _) => free (s.sendWithdraw (.belfry b) tag false op)
  | some (.lock _ op _ tag _ _) => free (s.sendWithdraw (.belfry b) tag true op)
  | _ => s

/-- The thread stands at its program counter again and may issue. -/
def State.wake (s : State) (t : Tid) : State := s.modThread t fun th => { th with status := .running }

/-- A held unit instruction stops at a boundary: `n` units are done (R111, R112). One that the unit has not begun stops
with none more. R111 names no boundary inside an `mstore`, an `mchk` or a vector instruction of one step: such a one runs
to its end. [DESIGN CHOICE, log 36] -/
def State.stopUnit (s : State) (t : Tid) (seq n : Nat) : Stop :=
  match (s.core t.core).queued.find? fun u => decide (u.seq = seq) with
  | none => .ready (s.wake t)
  | some u =>
    let n := if u.dispatched then n else u.start
    if u.ins.kind = 0 ∨ n < u.start ∨ u.units ≤ n then .wait
    else
      match (if u.dispatched then s.runUnit t u n else .ok s) with
      | .ok s =>
        let s := s.modCore t.core fun k => k.dropUnit seq
        .ready (s.modThread t fun th => { th.record u.ins.kind (some n) with status := .running })
      | .trap .. => .taken (s.completeUnit t u)

/-- Stop the thread for a vector: a blocking instruction that must write its result first makes the entry wait (R100), as
does a queued unit instruction whose register a forced save would have to hold; a `send` that is entering the mesh and an
`ipreload` stop after the current word or line (R111, R112). [DEDUCED, log 36] -/
def State.stop (s : State) (t : Tid) (n : Nat) : Stop :=
  if (s.thread t).inShadow ∧ s.gPending t then .wait
  else
  match (s.thread t).status with
  | .running => .ready s
  | .blocked b =>
    match b with
    | .atomic .. | .ctlrx .. | .chopen .. => .wait
    | .guarded seq => s.stopUnit t seq n
    | .inject h words done =>
      .ready ((s.modThread t fun th =>
        (th.setHandle h { th.handle h with part := words.take done }).record 5 (some done)).wake t)
    | .preload _ _ _ done => .ready ((s.modThread t fun th => th.record 6 (some done)).wake t)
    | .wait d =>
      let w := s.wakeSet (s.thread t)
      if w = 0 then .ready (s.wake t) else .ready ((s.modThread t fun th => th.setG d w).resume t)
    | .swait _ op _ _ tag _ _ _ => .ready ((s.sendWithdraw (.thread t) tag false op).wake t)
    | .lock _ op _ tag _ _ => .ready ((s.sendWithdraw (.thread t) tag true op).wake t)
    | .chclose _ | .send .. | .recv .. | .recvv .. | .fenceL | .fenceS | .fenceD | .tickEnd | .trel _ | .sissue ..
    | .cupDone .. | .eret | .fetch => .ready (s.wake t)
  | _ => .wait

end Sys2Proof.Machine
end

