-- ==== Sys2Proof/Machine/Counters.lean ====
section
/-! DEFINITION. Counters, locks and dispatch: the instructions of major 0x21 and the Cupola's events (R303 to R328). -/

namespace Sys2Proof.Machine

open Sys2Proof

/-! ### The instructions (R305 to R310, R317 to R319) -/

/-- Whether the core's copy of its tenant's counter map holds the counter's unit (R306). -/
def Core.mapsCtr (k : Core) (c : BitVec 16) : Bool := k.cmap.getLsbD (fld c 15 6)

/-- Whether the core's copy of its tenant's lock map holds the lock's unit. -/
def Core.mapsLock (k : Core) (l : BitVec 14) : Bool := k.lmap.getLsbD (fld l 13 4)

/-- One more posted request of the thread (R75). -/
def State.posts (s : State) (t : Tid) : State := s.modThread t fun th => { th with posted := th.posted + 1 }

/-- Whether a Belfry core may name an object: Duboette every one, a tenant's core those of its tenant (R306).
[DESIGN CHOICE, log 112] -/
def State.belfryOwns (s : State) (b : BCore) (own : BitVec 4 → Bool) : Bool :=
  decide (b.extractLsb' 0 2 = 0) || own (s.bel b).tenant

/-- A register of a Belfry core as a 32-bit operand. -/
def State.belWord (s : State) (b : BCore) (r : Reg) : Word := ((s.bel b).gr r.toNat).setWidth 32

/-- `sig` or `sigp` of a thread at issue (R306, R307, R397). -/
def threadSig (i : Iss) (poison : Bool) (d a b : Reg) (s : State) : Host.Outcome State Fault Refusal :=
  issue i { g := [a, b] } s fun t s =>
    let w := (s.thread t).g a
    let inc := (s.thread t).g b
    let c : BitVec 16 := w.setWidth 16
    if d ≠ 0 ∨ fld w 31 27 ≠ 0 then .exc 0x01 0 .scalar
    else if s.remoteCtr w then .done ((s.posts t).askCounter (.thread t) w (b2n poison) inc (.posted (.thread t) w))
    else if ! (s.core t.core).mapsCtr c then .exc 0x25 w .scalar
    else
      .done ((s.posts t).send t.core (cupolaRouter (ctrSpire c)) false false (s.thread t).tenant
        (.signal (.thread t) c inc poison))

/-- The same of a Belfry core (R304, R307). [DESIGN CHOICE, log 112] -/
def belfrySig (bf : BCore) (poison : Bool) (d a b : Reg) (s : State) : Host.Outcome State Fault Refusal :=
  s.belfryIssue bf fun s =>
    let w := s.belWord bf a
    let inc := s.belWord bf b
    let c : BitVec 16 := w.setWidth 16
    if d ≠ 0 ∨ fld w 31 27 ≠ 0 then s.belfryEnter bf 0x01 0 0
    else if s.remoteCtr w then (s.askCounter (.belfry bf) w (b2n poison) inc (.posted (.belfry bf) w)).belfryNext bf
    else if ! s.belfryOwns bf fun t => s.ownsCtr t c then s.belfryEnter bf 0x25 (w.setWidth 64) 0
    else
      (s.send (servicePort (belQuad bf)) (cupolaRouter (ctrSpire c)) false false (s.bel bf).tenant
        (.signal (.belfry bf) c inc poison)).belfryNext bf

/-- `sig` or `sigp` at issue. -/
def sigOp (who : By) (poison : Bool) (d a b : Reg) (s : State) : Host.Outcome State Fault Refusal :=
  match who with
  | .compute i => threadSig i poison d a b s
  | .belfry bf => belfrySig bf poison d a b s

/-- `sig` (R307). [DEDUCED, log 25] -/
def execSig (who : By) (d a b : Reg) (s : State) : Host.Outcome State Fault Refusal := sigOp who false d a b s

/-- `sigp` (R307). -/
def execSigp (who : By) (d a b : Reg) (s : State) : Host.Outcome State Fault Refusal := sigOp who true d a b s

/-- Send an `swait` to its home (R309, R397). -/
def State.askSwait (s : State) (who : Hart) (w target : Word) (tag : Nat) : State :=
  if s.remoteCtr w then s.askCounter who w 2 target (.counter who tag)
  else
    s.send (hartRouter who) (cupolaRouter (ctrSpire (w.setWidth 16))) false false (s.hartTenant who).1
      (.swait (requesterOf who) tag (w.setWidth 16) target)

/-- When a timeout of `n` cycles that begins now ends; 0 is none. -/
def State.dueIn (s : State) (n : Word) : Option Nat := if n = 0 then none else some (s.now + n.toNat)

/-- `swait` of a thread (R305, R306, R309). -/
def threadSwait (i : Iss) (d a b : Reg) (s : State) : Host.Outcome State Fault Refusal :=
  issue i { g := [a, a + 1, b], wg := [d, d + 1] } s fun t s =>
    let th := s.thread t
    let w := th.g a
    if ! evenReg d ∨ ! evenReg a ∨ fld w 31 27 ≠ 0 then .exc 0x01 0 .scalar
    else if ! s.remoteCtr w ∧ ! (s.core t.core).mapsCtr (w.setWidth 16) then .exc 0x25 w .scalar
    else
      let g := s.newId
      .block (g.2.askSwait (.thread t) w (th.g b) g.1)
        (.swait d w (th.g b) (th.g (a + 1)) g.1 (s.dueIn (th.g (a + 1))) none none)

/-- A Belfry core waits for the answer of a request. -/
def State.belfryBlock (s : State) (bf : BCore) (b : Block) : State := s.modBel bf fun k => { k with block := some b }

/-- `swait` of a Belfry core (R304, R309). [DESIGN CHOICE, log 112] -/
def belfrySwait (bf : BCore) (d a b : Reg) (s : State) : Host.Outcome State Fault Refusal :=
  s.belfryIssue bf fun s =>
    let w := s.belWord bf a
    let tmo := s.belWord bf (a + 1)
    let target := s.belWord bf b
    if ! evenReg d ∨ ! evenReg a ∨ fld w 31 27 ≠ 0 then s.belfryEnter bf 0x01 0 0
    else if ! s.remoteCtr w ∧ ! (s.belfryOwns bf fun t => s.ownsCtr t (w.setWidth 16)) then
      s.belfryEnter bf 0x25 (w.setWidth 64) 0
    else
      let g := s.newId
      (g.2.askSwait (.belfry bf) w target g.1).belfryBlock bf (.swait d w target tmo g.1 (s.dueIn tmo) none none)

/-- `swait` (R305, R309). -/
def execSwait (who : By) (d a b : Reg) (s : State) : Host.Outcome State Fault Refusal :=
  match who with
  | .compute i => threadSwait i d a b s
  | .belfry bf => belfrySwait bf d a b s

/-- The highest rank of a rank mask (R318). -/
def highRank (m : BitVec 16) : Option (BitVec 4) :=
  ((List.range 16).reverse.find? fun k => bit m k).map (BitVec.ofNat 4)

/-- The ranks of the locks that a requester holds (R317, R318). -/
def State.ranksOf (s : State) : Hart → BitVec 16
  | .thread t => (s.thread t).rankMask
  | .belfry b => (s.bel b).ranks

/-- Send a `lock` request to its home (R318). -/
def State.askLock (s : State) (who : Hart) (w : Word) (tag : Nat) : State :=
  let l : BitVec 14 := w.setWidth 14
  s.send (hartRouter who) (cupolaRouter (lockSpire l)) false false (s.hartTenant who).1
    (.lock (requesterOf who) tag l (highRank (s.ranksOf who)))

/-- `lock` of a thread (R305, R306, R318). [DEDUCED, log 26] -/
def threadLock (i : Iss) (d a b : Reg) (s : State) : Host.Outcome State Fault Refusal :=
  issue i { g := [a, a + 1], wg := [d] } s fun t s =>
    let th := s.thread t
    let w := th.g a
    if b ≠ 0 ∨ ! evenReg a ∨ fld w 31 14 ≠ 0 then .exc 0x01 0 .scalar
    else if ! (s.core t.core).mapsLock (w.setWidth 14) then .exc 0x25 w .scalar
    else
      let g := s.newId
      .block (g.2.askLock (.thread t) w g.1) (.lock d w (th.g (a + 1)) g.1 (s.dueIn (th.g (a + 1))) none)

/-- `lock` of a Belfry core (R304, R318). [DESIGN CHOICE, log 112] -/
def belfryLock (bf : BCore) (d a b : Reg) (s : State) : Host.Outcome State Fault Refusal :=
  s.belfryIssue bf fun s =>
    let w := s.belWord bf a
    let tmo := s.belWord bf (a + 1)
    if b ≠ 0 ∨ ! evenReg a ∨ fld w 31 14 ≠ 0 then s.belfryEnter bf 0x01 0 0
    else if ! s.belfryOwns bf fun t => s.ownsLock t (w.setWidth 14) then s.belfryEnter bf 0x25 (w.setWidth 64) 0
    else
      let g := s.newId
      (g.2.askLock (.belfry bf) w g.1).belfryBlock bf (.lock d w tmo g.1 (s.dueIn tmo) none)

/-- `lock` (R305, R318). -/
def execLock (who : By) (d a b : Reg) (s : State) : Host.Outcome State Fault Refusal :=
  match who with
  | .compute i => threadLock i d a b s
  | .belfry bf => belfryLock bf d a b s

/-- `unlock` of a thread (R305, R306, R318). -/
def threadUnlock (i : Iss) (d a b : Reg) (s : State) : Host.Outcome State Fault Refusal :=
  issue i { g := [a] } s fun t s =>
    let w := (s.thread t).g a
    let l : BitVec 14 := w.setWidth 14
    if d ≠ 0 ∨ b ≠ 0 ∨ fld w 31 14 ≠ 0 then .exc 0x01 0 .scalar
    else if ! (s.core t.core).mapsLock l then .exc 0x25 w .scalar
    else
      .done ((s.posts t).send t.core (cupolaRouter (lockSpire l)) false false (s.thread t).tenant (.unlock (.thread t) l))

/-- `unlock` of a Belfry core (R304, R318). [DESIGN CHOICE, log 112] -/
def belfryUnlock (bf : BCore) (d a b : Reg) (s : State) : Host.Outcome State Fault Refusal :=
  s.belfryIssue bf fun s =>
    let w := s.belWord bf a
    let l : BitVec 14 := w.setWidth 14
    if d ≠ 0 ∨ b ≠ 0 ∨ fld w 31 14 ≠ 0 then s.belfryEnter bf 0x01 0 0
    else if ! s.belfryOwns bf fun t => s.ownsLock t l then s.belfryEnter bf 0x25 (w.setWidth 64) 0
    else
      (s.send (servicePort (belQuad bf)) (cupolaRouter (lockSpire l)) false false (s.bel bf).tenant
        (.unlock (.belfry bf) l)).belfryNext bf

/-- `unlock` (R305, R318). -/
def execUnlock (who : By) (d a b : Reg) (s : State) : Host.Outcome State Fault Refusal :=
  match who with
  | .compute i => threadUnlock i d a b s
  | .belfry bf => belfryUnlock bf d a b s

/-! ### Dispatch slots that cannot start -/

/-- Retire every slot of a Spire that is due to retire without dispatch, each under R326; R323 sets `BADTGT`. -/
def State.retireDoomed (s : State) (sp : Spire) : Nat → State
  | 0 => s
  | n + 1 =>
    match s.doomedSlot sp with
    | none => s
    | some k =>
      let bad := ! s.ctrPoison (s.slotWait sp k)
      let s := s.retireSlot sp k (if bad then 0x0C else 0x0D)
      let s := if bad then s.setCreg .cupDstat sp.toNat 0 (s.creg .cupDstat sp.toNat 0 ||| 0x10000#32) else s
      s.retireDoomed sp n

/-- The same in every Spire that has slots in use: poison flows down a chain of slots (R326). -/
def State.retireAll (s : State) : State :=
  s.spires.foldl (fun s p => if p.2.slots.isEmpty then s else s.retireDoomed (BitVec.ofNat 6 p.1) 64) s

/-! ### Signals -/

/-- A signal that a stream of a thread waited for has been performed: the thread's SDONE source is latched and whatever
it waits for is judged again (R115, R290). -/
def State.signalDone (s : State) (who : Signaller) : State :=
  match who with
  | .stream (.core c _) (some t) => (s.latch t 6).pollCore c
  | _ => s

/-- The acknowledgement of a signal: a core's travels back, another device's leaves over Skybridge (R307, R397). -/
def State.ackSignal (s : State) (p : Packet) (who : Signaller) (c : BitVec 16) (r : Refuse) : State :=
  match who with
  | .thread t => s.send p.dst p.src true false p.tenant (.ack (.thread t) r)
  | .belfry b => s.send p.dst p.src true false p.tenant (.ack (.belfry b) r)
  | .remote d g => s.answerRemote d g c.toNat (s.ctrVal c) (match r with | some (k, _) => k | none => 0)
  | _ => s

/-- Why a Cupola refuses an operation on a counter before it performs it: its domain is closing or removed, or another
device's tenant does not own the counter (R306, R313). -/
def State.ctrRefused (s : State) (c : BitVec 16) (remote : Bool) (tenant : BitVec 4) : Option (BitVec 8) :=
  if ! s.domOpen (ctrSpire c).toNat then some 0x12 else if remote ∧ ! s.ownsCtr tenant c then some 0x25 else none

/-- Whether a signal comes from another device. -/
def Signaller.isRemote : Signaller → Bool
  | .remote _ _ => true
  | _ => false

/-- The Cupola performs a signal, or refuses and logs it (R307, R308, R313, R314, R326); poison may retire slots. -/
def execCounterSignal (id : Nat) (s : State) : Host.Outcome State Fault Refusal :=
  .next (match s.arrived? id with
    | some p =>
      match p.body with
      | .signal who c inc poison =>
        let s := s.consume id
        match s.ctrRefused c who.isRemote p.tenant with
        | some k =>
          ((s.logRefused (ctrSpire c) c.toNat who ((s.ctrUnit c).setWidth 4)).ackSignal p who c
            (some (k, c.setWidth 32))).signalDone who
        | none =>
          let r := s.signal who c inc poison
          ((r.1.ackSignal p who c r.2).signalDone who).retireAll
      | _ => s
    | none => s)

/-! ### `swait` -/

/-- Whether a request comes from another device. -/
def Requester.isRemote : Requester → Bool
  | .remote _ _ => true
  | _ => false

/-- The Cupola judges an `swait`, or refuses and logs it (R309, R311, R313, R314); one whose target word is poisoned is
answered POISONED (R275). -/
def execSwaitRequest (id : Nat) (s : State) : Host.Outcome State Fault Refusal :=
  .next (match s.arrived? id with
    | some p =>
      match p.body with
      | .swait r tag c target =>
        let s := s.consume id
        match s.ctrRefused c r.isRemote p.tenant with
        | some k =>
          (s.logRefused (ctrSpire c) c.toNat r.signaller ((s.ctrUnit c).setWidth 4)).answerSwait (ctrSpire c) r tag c.toNat 0 0
            (some (k, c.setWidth 32))
        | none => if p.bad then s.answerSwait (ctrSpire c) r tag c.toNat 0 2 none else s.judgeSwait r tag c target
      | _ => s
    | none => s)

/-- The core takes the answer of a waiting `swait`; one that nothing waits for any more is discarded
(R309 to R311, R313). -/
def State.threadSwaitAnswered (s : State) (t : Tid) (tag : Nat) (value : Word) (status : BitVec 2) (refuse : Refuse) :
    State :=
  match (s.thread t).status with
  | .blocked (.swait d w target tmo g due seen _) =>
    if g ≠ tag then s
    else
      match refuse with
      | some (c, _) => s.syncExc t c w (s.thread t).pc .scalar
      | none =>
        if status = 3 then
          s.modThread t fun th =>
            { th with status := .blocked (.swait d w target tmo g due (some (seen.getD value)) (some (s.now + 64))) }
        else if status = 2 ∧ (s.thread t).ltn.poisonf then s.syncExc t 0x24 w (s.thread t).pc .scalar
        else (s.modThread t fun th => (th.setG d value).setG (d + 1) (status.setWidth 32)).resume t
  | _ => s

/-- A Belfry core takes the answer of its `swait`: it has no POISONF and reads the status. [DESIGN CHOICE, log 112] -/
def State.belfrySwaitAnswered (s : State) (b : BCore) (tag : Nat) (value : Word) (status : BitVec 2) (refuse : Refuse) :
    State :=
  match (s.bel b).block with
  | some (.swait d w target tmo g due seen _) =>
    if g ≠ tag then s
    else
      match refuse with
      | some (c, _) => (s.modBel b fun k => { k with block := none }).belfryEnter b c (w.setWidth 64) 0
      | none =>
        if status = 3 then s.belfryBlock b (.swait d w target tmo g due (some (seen.getD value)) (some (s.now + 64)))
        else
          (s.modBel b fun k =>
            { (k.setGr d.toNat (value.setWidth 64)).setGr (d + 1).toNat (status.setWidth 64) with block := none }).belfryNext b
  | _ => s

/-- A requester takes the answer of its `swait`. -/
def State.swaitAnswered (s : State) (who : Hart) (tag : Nat) (value : Word) (status : BitVec 2) (refuse : Refuse) :
    State :=
  match who with
  | .thread t => s.threadSwaitAnswered t tag value status refuse
  | .belfry b => s.belfrySwaitAnswered b tag value status refuse

/-- The answer reaches the core (R309). -/
def execSwaitAnswer (id : Nat) (s : State) : Host.Outcome State Fault Refusal :=
  .next (match s.arrived? id with
    | some p =>
      match p.body with
      | .swaitAnswer who tag value status refuse => (s.consume id).swaitAnswered who tag value status refuse
      | _ => s
    | none => s)

/-- Whether a moment has come. -/
def State.past (s : State) (n : Option Nat) : Bool :=
  match n with
  | some k => decide (k ≤ s.now)
  | none => false

/-- Whether a packet is the answer of a request, of an `swait` or a `lock`. -/
def answerOf (who : Hart) (tag : Nat) : Body → Bool
  | .swaitAnswer h g _ _ _ => decide (h = who) && decide (g = tag)
  | .lockGrant h g _ _ _ => decide (h = who) && decide (g = tag)
  | _ => false

/-- Whether a request's timeout expires now: its answer has not reached the core (R310, R319). -/
def State.expires (s : State) (who : Hart) (tag : Nat) (due : Option Nat) : Bool :=
  s.past due && ! s.comes (answerOf who tag)

/-- The timeout of an `swait` expires: the waiter is withdrawn and TIMEOUT reported, with the value of the request's
first answer; an answer that has come counts (R309, R310). -/
def execSwaitTimeout (who : Hart) (s : State) : Host.Outcome State Fault Refusal :=
  .next (match who with
    | .thread th =>
      match (s.thread th).status with
      | .blocked (.swait d w _ _ tag due seen _) =>
        if s.expires who tag due then
          ((s.sendWithdraw who tag false w).modThread th fun x => (x.setG d (seen.getD 0)).setG (d + 1) 1).resume th
        else s
      | _ => s
    | .belfry b =>
      match (s.bel b).block with
      | some (.swait d w _ _ tag due seen _) =>
        if s.expires who tag due then
          ((s.sendWithdraw who tag false w).modBel b fun k =>
            { (k.setGr d.toNat ((seen.getD 0).setWidth 64)).setGr (d + 1).toNat 1 with block := none }).belfryNext b
        else s
      | _ => s)

/-! ### Locks -/

/-- The Cupola judges a lock request; a closing or removed one refuses and logs it (R313, R314, R318). -/
def execLockRequest (id : Nat) (s : State) : Host.Outcome State Fault Refusal :=
  .next (match s.arrived? id with
    | some p =>
      match p.body with
      | .lock r tag l rank =>
        let s := s.consume id
        if s.domOpen (lockSpire l).toNat then s.judgeLock r tag l rank
        else
          (s.logRefused (lockSpire l) l.toNat r.signaller ((s.lockUnit l).setWidth 4)).answerLock r tag l 0
            (some (0x12, l.setWidth 32))
      | _ => s
    | none => s)

/-- The Cupola performs an unlock, granting the next queued request, and acknowledges it (R313, R318).
[DEDUCED, log 26] -/
def execUnlockRequest (id : Nat) (s : State) : Host.Outcome State Fault Refusal :=
  .next (match s.arrived? id with
    | some p =>
      match p.body with
      | .unlock who l =>
        let s := s.consume id
        let q := requesterOf who
        if s.domOpen (lockSpire l).toNat then
          let r := s.unlock q l
          r.1.send p.dst p.src true false p.tenant (.ack who r.2)
        else
          (s.logRefused (lockSpire l) l.toNat q.signaller ((s.lockUnit l).setWidth 4)).send p.dst p.src true false p.tenant
            (.ack who (some (0x12, l.setWidth 32)))
      | _ => s
    | none => s)

/-- A thread takes the answer of its lock request: a grant enters its rank mask (R317, R318). [DEDUCED, log 26] -/
def State.threadLockAnswered (s : State) (t : Tid) (tag : Nat) (l : BitVec 14) (status : BitVec 2) (refuse : Refuse) :
    State :=
  match (s.thread t).status with
  | .blocked (.lock d w tmo g due _) =>
    if g ≠ tag then s
    else
      match refuse with
      | some (c, _) => s.syncExc t c w (s.thread t).pc .scalar
      | none =>
        if status = 3 then
          s.modThread t fun th => { th with status := .blocked (.lock d w tmo g due (some (s.now + 64))) }
        else
          (s.modThread t fun th =>
            { th.setG d (status.setWidth 32) with rankMask := th.rankMask ||| (1#16 <<< s.lockRank l) }).resume t
  | _ => s

/-- A Belfry core takes the answer of its lock request; it carries ranks in the same way (R318). -/
def State.belfryLockAnswered (s : State) (b : BCore) (tag : Nat) (l : BitVec 14) (status : BitVec 2) (refuse : Refuse) :
    State :=
  match (s.bel b).block with
  | some (.lock d w tmo g due _) =>
    if g ≠ tag then s
    else
      match refuse with
      | some (c, _) => (s.modBel b fun k => { k with block := none }).belfryEnter b c (w.setWidth 64) 0
      | none =>
        if status = 3 then s.belfryBlock b (.lock d w tmo g due (some (s.now + 64)))
        else
          (s.modBel b fun k =>
            { k.setGr d.toNat (status.setWidth 64) with
                block := none, ranks := k.ranks ||| (1#16 <<< s.lockRank l) }).belfryNext b
  | _ => s

/-- The answer of a lock request reaches the core (R318). -/
def execLockGrant (id : Nat) (s : State) : Host.Outcome State Fault Refusal :=
  .next (match s.arrived? id with
    | some p =>
      match p.body with
      | .lockGrant who tag l status refuse =>
        match who with
        | .thread t => (s.consume id).threadLockAnswered t tag l status refuse
        | .belfry b => (s.consume id).belfryLockAnswered b tag l status refuse
      | _ => s
    | none => s)

/-- The timeout of a `lock` expires; a grant that has come counts (R318, R319). -/
def execLockTimeout (who : Hart) (s : State) : Host.Outcome State Fault Refusal :=
  .next (match who with
    | .thread th =>
      match (s.thread th).status with
      | .blocked (.lock d w _ tag due _) =>
        if s.expires who tag due then ((s.sendWithdraw who tag true w).modThread th fun x => x.setG d 1).resume th else s
      | _ => s
    | .belfry b =>
      match (s.bel b).block with
      | some (.lock d w _ tag due _) =>
        if s.expires who tag due then
          ((s.sendWithdraw who tag true w).modBel b fun k => { k.setGr d.toNat 1 with block := none }).belfryNext b
        else s
      | _ => s)

/-- A withdrawal reaches the Cupola (R310, R319). -/
def execWaiterWithdrawal (id : Nat) (s : State) : Host.Outcome State Fault Refusal :=
  .next (match s.arrived? id with
    | some p =>
      match p.body with
      | .withdraw r tag lock obj => (s.consume id).withdraw r tag lock obj
      | _ => s
    | none => s)

/-! ### Watches (R311, R327) -/

/-- Send the registration of a Lantern's watch `k`, or with EN = 0 its withdrawal, to the counter's Cupola. -/
def State.askWatch (s : State) (t : Tid) (k : BitVec 3) : State :=
  let l := (s.thread t).ltn
  let w := Store.get 0 l.watch k.toNat
  s.send t.core (cupolaRouter (ctrSpire (w.setWidth 16))) false false (s.thread t).tenant
    (.watchReg (.lantern t k) (s.thread t).tenant (w.setWidth 16)
      (if bit w 31 then some (Store.get 0 l.wtgt k.toNat) else none))

/-- The tag by which the home of a counter of another device knows watch `n` of a quadrant. -/
def watchTag (q : Quad) (n : BitVec 9) : BitVec 16 := (q ++ n).setWidth 16

/-- The same for watch `n` of a quadrant's Belfry cluster; that of another device's counter travels over Skybridge (R23).
[DEDUCED, log 47] -/
def State.askBelfryWatch (s : State) (q : Quad) (n : BitVec 9) : State :=
  let w := s.creg .bicWctr q.toNat n.toNat
  let tenant := Store.get 0 (s.quad q).watchTenant n.toNat
  if s.remoteCtr w then
    s.tellCounter w tenant 0 (watchTag q n) (if bit w 31 then 4 else 5) (s.creg .bicWtgt q.toNat n.toNat)
  else
  s.send (servicePort q) (cupolaRouter (ctrSpire (w.setWidth 16))) false false tenant
    (.watchReg (.belfry q n) tenant (w.setWidth 16)
      (if bit w 31 then some (s.creg .bicWtgt q.toNat n.toNat) else none))

/-- The Cupola registers, replaces, refuses or withdraws a watch (R311); a closing or removed Cupola refuses and logs it
(R313, R314); one whose target word is poisoned is repeated (R275). [DEDUCED, log 27] -/
def execWatchRegistration (id : Nat) (s : State) : Host.Outcome State Fault Refusal :=
  .next (match s.arrived? id with
    | some p =>
      match p.body with
      | .watchReg who tenant c target =>
        let s := s.consume id
        if ! s.domOpen (ctrSpire c).toNat then
          s.logRefused (ctrSpire c) c.toNat who.signaller ((s.ctrUnit c).setWidth 4)
        else if p.bad ∧ target.isSome then s.retryWatch who c.toNat
        else s.registerWatch who tenant c target
      | _ => s
    | none => s)

/-- An above or below event sets or clears the watcher's level source; a watch that was withdrawn meanwhile stays low
(R115, R311). -/
def State.watchTold (s : State) (who : Watcher) (above : Bool) : State :=
  match who with
  | .lantern t k =>
    s.modThread t fun th => th.modLtn fun l =>
      if bit (Store.get 0 l.watch k.toNat) 31 then
        { l with watchHigh := if above then l.watchHigh ||| (1#8 <<< k.toNat) else l.watchHigh &&& ~~~ (1#8 <<< k.toNat) }
      else l
  | .belfry q n =>
    if bit (s.creg .bicWctr q.toNat n.toNat) 31 then
      s.modQuad q fun r => { r with bicWatch := Store.set false r.bicWatch n.toNat above }
    else s
  | .remote _ _ => s

/-- An above or below event reaches its watcher (R311). -/
def execWatchEvent (id : Nat) (s : State) : Host.Outcome State Fault Refusal :=
  .next (match s.arrived? id with
    | some p =>
      match p.body with
      | .watchEvent who above => (s.consume id).watchTold who above
      | _ => s
    | none => s)

/-- 64 cc after a RETRY answer the core repeats an `swait` or `lock` without losing its timeout count, and a Lantern or
a Belfry cluster repeats the registration of a watch (R311). -/
def execSwaitRetry (who : RetryOf) (s : State) : Host.Outcome State Fault Refusal :=
  .next (match who with
    | .swait (.thread t) =>
      match (s.thread t).status with
      | .blocked (.swait d w target tmo tag due seen retry) =>
        if s.past retry then
          (s.askSwait (.thread t) w target tag).modThread t fun th =>
            { th with status := .blocked (.swait d w target tmo tag due seen none) }
        else s
      | .blocked (.lock d w tmo tag due retry) =>
        if s.past retry then
          (s.askLock (.thread t) w tag).modThread t fun th => { th with status := .blocked (.lock d w tmo tag due none) }
        else s
      | _ => s
    | .swait (.belfry b) =>
      match (s.bel b).block with
      | some (.swait d w target tmo tag due seen retry) =>
        if s.past retry then
          (s.askSwait (.belfry b) w target tag).belfryBlock b (.swait d w target tmo tag due seen none)
        else s
      | some (.lock d w tmo tag due retry) =>
        if s.past retry then (s.askLock (.belfry b) w tag).belfryBlock b (.lock d w tmo tag due none) else s
      | _ => s
    | .watch t k =>
      if s.past (Store.find? (s.thread t).ltn.watchRetry k.toNat) then
        (s.modThread t fun th => th.modLtn fun l => { l with watchRetry := Store.del l.watchRetry k.toNat }).askWatch t k
      else s
    | .belfryWatch q n =>
      if s.past (Store.find? (s.quad q).watchRetry n.toNat) then
        (s.modQuad q fun r => { r with watchRetry := Store.del r.watchRetry n.toNat }).askBelfryWatch q n
      else s)

/-- A write of `BIC_WCTRn` or, with `tgt`, of `BIC_WTGTn` (R311, R327). [DEDUCED, log 47] -/
def State.writeBelfryWatch (s : State) (ag : Agent) (q : Quad) (n : BitVec 9) (tgt : Bool) (v : Word) : State :=
  let was := bit (s.creg .bicWctr q.toNat n.toNat) 31
  let old := s.creg .bicWctr q.toNat n.toNat
  let s := s.plainWrite (if tgt then .bicWtgt else .bicWctr) q.toNat n.toNat v
  let now := bit (s.creg .bicWctr q.toNat n.toNat) 31
  let s := s.modQuad q fun r => { r with watchTenant := Store.set 0 r.watchTenant n.toNat (s.agentTenant ag) }
  let new := s.creg .bicWctr q.toNat n.toNat
  let moved := was && (decide (ctrSpire (old.setWidth 16) ≠ ctrSpire (new.setWidth 16)) ||
    decide (s.remoteCtr old ≠ s.remoteCtr new) || (s.remoteCtr old && decide (operandDev old ≠ operandDev new)))
  let s :=
    if ! moved then s
    else if s.remoteCtr old then s.tellCounter old 0 0 (watchTag q n) 5 0
    else
      s.send (servicePort q) (cupolaRouter (ctrSpire (old.setWidth 16))) false false 0
        (.watchReg (.belfry q n) 0 (old.setWidth 16) none)
  let s := if now then s else
      s.modQuad q fun r =>
        { r with bicWatch := Store.set false r.bicWatch n.toNat false, watchRetry := Store.del r.watchRetry n.toNat }
  if was ∨ now then s.askBelfryWatch q n else s

/-- A Belfry watch is registered, replaced or withdrawn (R327). -/
def execBelfryWatchWrite (ag : Agent) (q : Quad) (n : BitVec 9) (tgt : Bool) (v : Word) (s : State) :
    Host.Outcome State Fault Refusal :=
  .next (s.gated ag (if tgt then .bicWtgt else .bicWctr) q.toNat fun s => s.writeBelfryWatch ag q n tgt v)

/-! ### Registers of the Cupola (R320 to R328) -/

/-- Start the task of a ready slot: its thread runs at ENTRY in Supervisor (R322). -/
def State.startSlot (s : State) (sp : Spire) (k : Nat) : State :=
  let t := s.slotThread sp k
  let entry := s.creg .cupDent sp.toNat k
  let par := s.creg .cupDpar sp.toNat k
  let tenant : BitVec 4 := (s.creg .cupDctl sp.toNat k).extractLsb' 12 4
  let s := s.setSlot sp k .running
  s.modThread t fun th =>
    let b := (th.bank.setReg 1 (BitVec.ofNat 32 k)).setReg 2 par
    { th.setBank { b with depth := 0 } with
        status := .running, enabled := true, pc := entry, priv := .supervisor, rankMask := 0, tenant := tenant,
        ltn := th.ltn.enable (s.legacyOf tenant) }

/-- The Cupola dispatches the lowest ready slot (R322). [DEDUCED, log 24] -/
def execDispatchSlotStart (sp : Spire) (s : State) : Host.Outcome State Fault Refusal :=
  .next (
    if s.spireRuns sp then
      match s.readySlot sp with
      | some k => s.startSlot sp k
      | none => s
    else s)

/-- A write of `CUP_DONE` by a thread: the running thread's ends its task; another's is ignored and recorded
(R324, R326). -/
def State.writeCupDone (s : State) (ag : Agent) (sp : Spire) (slot : BitVec 6) : State :=
  let k := slot.toNat
  let mine := match ag with
    | .thread t => decide (s.slotSt sp k = .running) && decide (s.slotThread sp k = t)
    | _ => false
  if ! mine then s.logAccess ag (BitVec.ofNat 64 (CReg.cupDone.addr sp.toNat 0))
  else
    let s := (s.noteSlot sp k 0).setSlot sp k .closing
    let s := s.signalQuiet (.slot slot) (s.slotDone sp k) 1 false
    let s := s.setSlot sp k .empty
    let s := if bit (s.creg .cupDctl sp.toNat k) 7 then s.raiseBic (quadOf sp) (cupolaSource sp) else s
    s.retireAll

/-- The running thread ends its task (R324). -/
def execCupDoneWrite (th : Tid) (sp : Spire) (slot : BitVec 6) (s : State) : Host.Outcome State Fault Refusal :=
  .next (s.gated (.thread th) .cupDone sp.toNat fun s => s.writeCupDone (.thread th) sp slot)

/-- A write of `CUP_DCTLk`: VALID arms an empty slot, CANCEL retires a waiting one and wins over everything else
(R321, R326). -/
def State.writeCupDctl (s : State) (sp : Spire) (k : Nat) (v : Word) : State :=
  let s := s.plainWrite .cupDctl sp.toNat k (v &&& ~~~ (0x300#32))
  let s := if bit v 8 ∧ s.slotSt sp k = .empty then s.setSlot sp k .waiting else s
  let s := if bit v 9 ∧ s.slotSt sp k = .waiting then s.retireSlot sp k 0x0C else s
  s.retireAll

/-- A dispatch slot is armed (R321). -/
def execCupDctlValid (ag : Agent) (sp : Spire) (slot : BitVec 6) (v : Word) (s : State) :
    Host.Outcome State Fault Refusal :=
  .next (s.gated ag .cupDctl sp.toNat fun s => s.writeCupDctl sp slot.toNat (v ||| 0x100#32))

/-- A dispatch slot is cancelled (R326). -/
def execCupDctlCancel (ag : Agent) (sp : Spire) (slot : BitVec 6) (v : Word) (s : State) :
    Host.Outcome State Fault Refusal :=
  .next (s.gated ag .cupDctl sp.toNat fun s => s.writeCupDctl sp slot.toNat (v ||| 0x200#32))

/-- Every lock of the Cupola that a thread holds passes on as broken (R320). -/
def State.breakLocks (s : State) (sp : Spire) (t : Tid) : Nat → State
  | 0 => s
  | n + 1 =>
    let s := s.breakLocks sp t n
    let l : BitVec 14 := sp ++ BitVec.ofNat 8 n
    if (s.lock l).holder = some (.thread t) then (s.dropRank (.thread t) l).freeLock l true else s

/-- A waiter entry of a thread's own request. -/
def Waiter.by (w : Waiter) (t : Tid) : Bool :=
  match w.want with
  | .swait q _ _ => decide (q = .thread t)
  | .lock q _ => decide (q = .thread t)
  | .watch _ _ _ => false

/-- Whether a packet is a thread's `swait` or `lock` request. -/
def Packet.asks (p : Packet) (t : Tid) : Bool :=
  match p.body with
  | .swait q _ _ _ => decide (q = .thread t)
  | .lock q _ _ _ => decide (q = .thread t)
  | _ => false

/-- A write of `CUP_BREAK`: with GO the thread's requests that wait, in an entry or in the request queue, are removed and
its locks passed on (R320). -/
def State.writeCupBreak (s : State) (sp : Spire) (v : Word) : State :=
  let s := s.plainWrite .cupBreak sp.toNat 0 (v &&& ~~~ (0x2000#32))
  if bit v 13 then
    let t : Tid := { core := v.setWidth 11, thread := v.extractLsb' 11 2 }
    let s := s.modSpire sp fun k => { k with waiters := k.waiters.filter fun w => ! w.by t }
    let s : State :=
      { s with
          flight := s.flight.filter fun p =>
            ! (decide (p.pos = cupolaRouter sp) && decide (p.dst = cupolaRouter sp) && p.asks t) }
    s.breakLocks sp t 256
  else s

/-- A departed thread's locks are released as broken (R320). -/
def execCupBreakGo (ag : Agent) (sp : Spire) (v : Word) (s : State) : Host.Outcome State Fault Refusal :=
  .next (s.gated ag .cupBreak sp.toNat fun s => s.writeCupBreak sp (v ||| 0x2000#32))

/-- The counter with an index in a Spire's Cupola. -/
def ctrOf (sp : Spire) (n : BitVec 10) : BitVec 16 := sp ++ n

/-- A write of `CUP_CVALi`: the value, not checked against the limit; waiters, watches and slots are judged again
(R328). -/
def State.writeCval (s : State) (sp : Spire) (n : BitVec 10) (v : Word) : State :=
  ((s.setCreg .cupCval sp.toNat n.toNat v).poke (ctrOf sp n)).retireAll

/-- A counter is written (R328). -/
def execCupCvalWrite (ag : Agent) (sp : Spire) (n : BitVec 10) (v : Word) (s : State) :
    Host.Outcome State Fault Refusal :=
  .next (s.gated ag .cupCval sp.toNat fun s => s.writeCval sp n v)

/-- A write of `CUP_CSTATi`: 1 clears the poison, and watches follow the value again (R311, R312). -/
def State.writeCstat (s : State) (sp : Spire) (n : BitVec 10) (v : Word) : State :=
  (s.plainWrite .cupCstat sp.toNat n.toNat v).poke (ctrOf sp n)

/-- A counter's poison is cleared (R312). -/
def execCupCstatPoisonClear (ag : Agent) (sp : Spire) (n : BitVec 10) (v : Word) (s : State) :
    Host.Outcome State Fault Refusal :=
  .next (s.gated ag .cupCstat sp.toNat fun s => s.writeCstat sp n v)

end Sys2Proof.Machine
end

