-- ==== Sys2Proof/Machine/Channels.lean ====
section
/-! DEFINITION. Channel instructions, the packets of channels, acknowledgements and refusals, and the D-mesh hop
(R82 to R86, R270 to R282, R313, R521, R525). -/

namespace Sys2Proof.Machine

open Sys2Proof

/-! ### Opening and closing -/

/-- `chopen` fails: gd is all ones and the status tells why (R83). -/
def Thread.openFailed (th : Thread) (d : Reg) (code : BitVec 4) (h : BitVec 3) : Thread :=
  (th.setG d (BitVec.allOnes 32)).chanStatus code h

/-- `chopen gd, ga` (R83, R521). -/
def execChopen (i : Iss) (d a b : Reg) (s : State) : Host.Outcome State Fault Refusal :=
  issue i { g := [a], wg := [d] } s fun t s =>
    let th := s.thread t
    if b ≠ 0 then .exc 0x01 0 .scalar
    else
      match th.freeHandle with
      | none =>
        let x := s.fresh
        .done (x.2.modThread t fun th => th.openFailed d 6 (x.1.setWidth 3))
      | some _ =>
        let ep : BitVec 15 := (th.g a).setWidth 15
        let g := s.newId
        .block (g.2.send t.core (epThread ep).core false true th.tenant (.chopen t g.1 ep)) (.chopen d g.1)

/-- The lowest free opener slot of an endpoint. -/
def Endpoint.freeOpener (e : Endpoint) : Option Nat := (List.range 4).find? fun k => e.opener k = .free

/-- A `chopen` request reaches its endpoint: accepted into the lowest free opener slot, or refused (R83, R280). -/
def execChopenRequest (id : Nat) (s : State) : Host.Outcome State Fault Refusal :=
  .next (match s.arrived? id with
    | some p =>
      match p.body with
      | .chopen t tag ep =>
        let s := s.consume id
        let x := epThread ep
        let n := epIndex ep
        let e := (s.thread x).ep n
        let reply (s : State) (code : BitVec 4) (slot share : Nat) : State :=
          s.send p.dst p.src true false p.tenant (.chopenReply t tag code ep slot share (s.thread x).epoch)
        if ! s.domOpen (spireOf x.core).toNat then reply s 3 0 0
        else if ! bit e.cfg 0 then reply s 5 0 0
        else
          match e.freeOpener with
          | none => reply s 5 0 0
          | some k =>
            let sh := e.share k
            if sh = 0 ∨ 32 < e.granted + sh then reply s 5 0 0
            else reply (s.modThread x fun th => th.setEp n (e.setOpener k (.opened t 0 sh))) 0 k sh
      | _ => s
    | none => s)

/-- The opener slot that a `chopen` took is given the opener's handle, or freed where its thread no longer waits. -/
def State.bindOpener (s : State) (t : Tid) (ep : BitVec 15) (slot : Nat) (h : Option (BitVec 3)) : State :=
  s.modThread (epThread ep) fun th =>
    let e := th.ep (epIndex ep)
    match e.opener slot, h with
    | .opened o _ sh, some h => if o = t then th.setEp (epIndex ep) (e.setOpener slot (.opened t h sh)) else th
    | .opened o _ _, none => if o = t then th.setEp (epIndex ep) ((e.setOpener slot (.closing true)).settleSlot slot) else th
    | _, _ => th

/-- The reply reaches the opener: the lowest free send handle, or the refusal (R83, R281). [DEDUCED, log 19] -/
def execChopenReply (id : Nat) (s : State) : Host.Outcome State Fault Refusal :=
  .next (match s.arrived? id with
    | some p =>
      match p.body with
      | .chopenReply t tag code ep slot share epoch =>
        let s := s.consume id
        let th := s.thread t
        let waits : Option Reg := match th.status with
          | .blocked (.chopen d k) => if k = tag then some d else none
          | _ => none
        match waits with
        | none => if code = 0 then s.bindOpener t ep slot none else s
        | some d =>
          let failed : State :=
            let x := s.fresh
            (x.2.modThread t fun th => th.openFailed d (if code = 0 then 6 else code) (x.1.setWidth 3)).resume t
          if code = 0 then
            match th.freeHandle with
            | some h =>
              let s := s.bindOpener t ep slot (some h)
              (s.modThread t fun th =>
                ((th.setHandle h { opened := true, ep := ep, slot := slot, epoch := epoch, share := share,
                                   credit := share, unacked := (th.handle h).unacked, status := 0,
                                   part := [], hold := 0 }).setG d (h.setWidth 32)).chanStatus 0 h).resume t
            | none => failed
          else failed
      | _ => s
    | none => s)

/-- `chclose h` (R86, R521). [DEDUCED, log 23] -/
def execChclose (i : Iss) (d a b : Reg) (s : State) : Host.Outcome State Fault Refusal :=
  issue i {} s fun t s =>
    let h : BitVec 3 := d.setWidth 3
    let x := (s.thread t).handle h
    if d.extractLsb' 3 2 ≠ 0 ∨ a ≠ 0 ∨ b ≠ 0 then .exc 0x01 0 .scalar
    else if ! x.opened then
      .done (s.modThread t fun th => th.reportHandle (if x.status = 0 then 4 else x.status) h)
    else if x.unacked = 0 then .done (s.closeHandle t h)
    else .block s (.chclose h)

/-! ### Sending -/

/-- The words of a `send`: pairs from gs on; pairs beyond g31 are free values (R84). -/
def sendWords (s : State) (t : Tid) (gs : Nat) : Nat → List DWord × State
  | 0 => ([], s)
  | n + 1 =>
    if gs < 31 then
      let r := sendWords s t (gs + 2) n
      ((s.thread t).pair (BitVec.ofNat 5 gs) :: r.1, r.2)
    else
      let x := s.fresh
      let r := sendWords x.2 t (gs + 2) n
      (x.1.setWidth 64 :: r.1, r.2)

/-- A message at issue: a stopped one goes on after the words that have entered the mesh; else a status at once, the
words one a cycle into the mesh, or a wait for credit (R84, R112). -/
def State.issueSend (s : State) (t : Tid) (h : BitVec 3) (words : List DWord) : Eff :=
  let th := s.thread t
  let k := th.progressOf 5
  let part := (th.handle h).part
  if k ≠ 0 ∧ k = part.length ∧ k < words.length then .block s (.inject h (part ++ words.drop k) k)
  else
    match th.sendVerdict h words.length with
    | some c => .done (s.modThread t fun th => (th.reportHandle c h).endProgress)
    | none =>
      if words.length ≤ (th.handle h).credit + (th.handle h).hold then .block (s.claimCredit t h words) (.inject h words 0)
      else
        let due := if th.ctl.sendTimeout = 0 then none else some (s.now + th.ctl.sendTimeout.toNat)
        .block s (.send h words due)

/-- `send gs, h, #n` (R84, R521). [DEDUCED, log 19, 44] -/
def execSend (i : Iss) (d a b : Reg) (s : State) : Host.Outcome State Fault Refusal :=
  issue i { g := (List.range (2 * min b.toNat 8)).map fun k => a + BitVec.ofNat 5 k } s fun t s =>
    if d.extractLsb' 3 2 ≠ 0 ∨ ! evenReg a ∨ b = 0 ∨ 8 < b.toNat then .exc 0x01 0 .scalar
    else
      let r := sendWords s t a.toNat b.toNat
      r.2.issueSend t (d.setWidth 3) r.1

/-- The eight 64-bit lanes of a v register. -/
def vWords (x : VReg) : List DWord := (List.range 8).map fun k => x.extractLsb' (64 * k) 64

/-- `sendv va, h` (R84, R521). -/
def execSendv (i : Iss) (d a b : Reg) (s : State) : Host.Outcome State Fault Refusal :=
  issue i { v := [a] } s fun t s =>
    if d.extractLsb' 3 2 ≠ 0 ∨ b ≠ 0 then .exc 0x01 0 .scalar
    else s.issueSend t (d.setWidth 3) (vWords ((s.thread t).v a))

/-- Whether a packet returns credit to a handle. -/
def creditFor (t : Tid) (h : BitVec 3) : Body → Bool
  | .credit o g _ => decide (o = t) && decide (g = h)
  | _ => false

/-- `SEND_TIMEOUT` expires on a waiting `send`: nothing is sent, the status is TIMEOUT; credit that reaches the handle in
the same cycle comes first (R84, R279). -/
def execSendTimeoutExpiry (th : Tid) (s : State) : Host.Outcome State Fault Refusal :=
  .next (match (s.thread th).status with
    | .blocked (.send h _ (some due)) =>
      if due ≤ s.now ∧ ! s.comes (creditFor th h) then
        (s.modThread th fun r => (r.chanStatus 1 h).endProgress).resume th
      else s
    | _ => s)

/-! ### Receiving -/

/-- A receive at issue: the words are there, poisoned ones are popped and raise ECC_UNCORRECTED, or the thread waits (R85,
R282). -/
def State.issueRecv (s : State) (t : Tid) (n : BitVec 2) (count : Nat) (take : State → State) (empty : Eff) : Eff :=
  match ((s.thread t).ep n).firstWords count with
  | none => empty
  | some ws => if ws.any (·.poison) then .moved (s.recvPoisoned t n count) else .done (take s)

/-- `recv gd, qinN` (R85, R521). [DEDUCED, log 18] -/
def execRecv (i : Iss) (d a b : Reg) (s : State) : Host.Outcome State Fault Refusal :=
  issue i { wg := [d, d + 1] } s fun t s =>
    let n : BitVec 2 := a.setWidth 2
    if ! evenReg d ∨ a.extractLsb' 2 3 ≠ 0 ∨ b ≠ 0 then .exc 0x01 0 .scalar
    else s.issueRecv t n 1 (fun s => s.recvWord t d n) (.block s (.recv d n))

/-- `recv.nb gd, qinN`: an empty queue sets Z and writes nothing (R85, R521). -/
def execRecvNb (i : Iss) (d a b : Reg) (s : State) : Host.Outcome State Fault Refusal :=
  issue i { wg := [d, d + 1] } s fun t s =>
    let n : BitVec 2 := a.setWidth 2
    if ! evenReg d ∨ a.extractLsb' 2 3 ≠ 0 ∨ b ≠ 0 then .exc 0x01 0 .scalar
    else s.issueRecv t n 1 (fun s => s.recvWord t d n)
      (.done (s.modThread t fun th => th.setBank { th.bank with z := true }))

/-- `recvv vd, qinN` (R85, R521). -/
def execRecvv (i : Iss) (d a b : Reg) (s : State) : Host.Outcome State Fault Refusal :=
  issue i { wv := [d] } s fun t s =>
    let n : BitVec 2 := a.setWidth 2
    if a.extractLsb' 2 3 ≠ 0 ∨ b ≠ 0 then .exc 0x01 0 .scalar
    else s.issueRecv t n 8 (fun s => s.recvVec t d n) (.block s (.recvv d n))

/-- The words of a message as the queue holds them: the last one marked, poisoned ones marked (R278, R282). -/
def queueWords (words : List DWord) (slot : Nat) (bad : List Nat) : List QWord :=
  words.zipIdx.map fun p =>
    { word := p.1, last := decide (p.2 + 1 = words.length), slot := slot, poison := bad.contains p.2 }

/-- A message reaches its endpoint whole: it is readable from now on; a message of another epoch, or for a slot that has
closed, is discarded and answered so (R278, R280, R281). A `chclose` that reaches it frees the opener slot (R86). -/
def execChannelMessageArrival (id : Nat) (s : State) : Host.Outcome State Fault Refusal :=
  .next (match s.arrived? id with
    | some p =>
      match p.body with
      | .chclose t h ep slot =>
        ((s.consume id).freeOpener t h ep slot).send p.dst p.src true false p.tenant (.ack (.thread t) none)
      | .message t h ep slot epoch words bad =>
        let s := s.consume id
        let x := epThread ep
        let n := epIndex ep
        let e := (s.thread x).ep n
        let answer (s : State) (code : BitVec 4) : State := s.send p.dst p.src true false p.tenant (.msgAck t h code)
        let mine := match e.opener slot with | .opened o g _ => decide (o = t) && decide (g = h) | _ => false
        if ! s.domOpen (spireOf x.core).toNat then answer s 3
        else if (s.thread x).epoch ≠ epoch then
          answer (s.modCore x.core fun k => { k with retired := k.retired.map fun p => (p.1, p.2 + 1) }) 2
        else if ! mine then answer s 4
        else
          (answer (s.modThread x fun th =>
            th.setEp n { e with queue := e.queue ++ queueWords words slot bad }) 0).poll x
      | _ => s
    | none => s)

/-- Credit returns to its handle; one that had none raises CREDIT, and a waiting `send` goes on (R84, R115, R279). -/
def execCreditReturn (id : Nat) (s : State) : Host.Outcome State Fault Refusal :=
  .next (match s.arrived? id with
    | some p =>
      match p.body with
      | .credit t h n =>
        let s := s.consume id
        let x := (s.thread t).handle h
        if ! x.opened then s
        else
          let s := if x.credit = 0 then s.latch t 7 else s
          (s.modThread t fun th => th.setHandle h { x with credit := min x.share (x.credit + n) }).poll t
      | _ => s
    | none => s)

/-- `EPCFG.EN` of an endpoint is cleared: every opener is closed and sent its notice (R86, R280). -/
def execEpcfgDisable (th : Tid) (n : BitVec 2) (s : State) : Host.Outcome State Fault Refusal :=
  .next (s.writeEpcfg th n (((s.thread th).ep n).cfg &&& 0xFFFFFFFE))

/-- A close notice reaches the opener's core: the handle is released, the notice acknowledged behind the handle's
messages, and a waiting `send` returns CLOSED (R86, R280). [DEDUCED, log 23] -/
def execCloseNotice (id : Nat) (s : State) : Host.Outcome State Fault Refusal :=
  .next (match s.arrived? id with
    | some p =>
      match p.body with
      | .closeNotice t h ep slot =>
        let s := s.consume id
        let x := (s.thread t).handle h
        let s := if x.opened ∧ x.ep = ep ∧ x.slot = slot then
            s.modThread t fun th => th.setHandle h { x with opened := false, credit := 0 }
          else s
        (s.send p.dst p.src false true p.tenant (.closeAck ep slot)).poll t
      | _ => s
    | none => s)

/-! ### Acknowledgements and refusals -/

/-- A refusal is held for its thread, four at most (R313). -/
def Thread.holdRefusal (th : Thread) (r : Refuse) : Thread :=
  match r with
  | some (c, d) => if th.refusals.length < 4 then { th with refusals := th.refusals ++ [{ cause := c, detail := d }] } else th
  | none => th

/-- A message's answer: OK, or a status that the handle holds for its next use; `fence.d` tells of STALE_EPOCH and CLOSED
(R75, R86, R525). [DESIGN CHOICE, log 108] -/
def Thread.messageAnswered (th : Thread) (h : BitVec 3) (code : BitVec 4) : Thread :=
  let x := th.handle h
  let th := { th.setHandle h { x with unacked := x.unacked - 1, status := if code ≠ 0 then code else x.status }
              with posted := th.posted - 1 }
  if code = 2 ∨ code = 4 then { th with dStatus := th.dStatus ++ [(code, h)] } else th

/-- A Belfry core takes the refusal of a posted request as a synchronous exception. [DESIGN CHOICE, log 112] -/
def State.belfryRefused (s : State) (b : BCore) (r : Refuse) : State :=
  match r with
  | some (c, d) => (s.belfryStop b).belfryEnter b c (d.setWidth 64) 0
  | none => s

/-- An acknowledgement arrives: of a posted request, with a refusal where it was refused (R75, R313), of a message, or of
a close notice (R280). -/
def execDmeshAckArrival (id : Nat) (s : State) : Host.Outcome State Fault Refusal :=
  .next (match s.arrived? id with
    | some p =>
      match p.body with
      | .ack (.thread t) r =>
        ((s.consume id).modThread t fun th => { th with posted := th.posted - 1 }.holdRefusal r).poll t
      | .ack (.belfry b) r => (s.consume id).belfryRefused b r
      | .msgAck t h code => ((s.consume id).modThread t fun th => th.messageAnswered h code).poll t
      | .closeAck ep slot =>
        (s.consume id).modThread (epThread ep) fun th =>
          let e := th.ep (epIndex ep)
          match e.opener slot with
          | .closing false => th.setEp (epIndex ep) ((e.setOpener slot (.closing true)).settleSlot slot)
          | _ => th
      | _ => s
    | none => s)

/-- The Lantern takes the oldest refusal of a posted request as a synchronous exception at the thread's next instruction
boundary; a thread in its shadow window keeps it (R313). -/
def execPostedRefusal (th : Tid) (s : State) : Host.Outcome State Fault Refusal :=
  .next (match (s.thread th).refusals with
    | [] => s
    | r :: rest =>
      if (s.thread th).inShadow ∨ ! s.spireRuns (spireOf th.core) then s
      else
        match s.stop th 0 with
        | .wait => s
        | .taken s => s
        | .ready s =>
          let s := s.modThread th fun x => { x with refusals := rest }
          s.syncExc th r.cause r.detail (s.thread th).pc .other)

/-! ### The hop (R270 to R275, R525) -/

/-- The next router on the way: along the row first, then along the column (R272). -/
def nextRouter (pos dst : CoreId) : CoreId :=
  let c := meshCol pos
  let d := meshCol dst
  let r := meshRow pos
  let e := meshRow dst
  if c < d then routerAt r (c + 1)
  else if d < c then routerAt r (c - 1)
  else if r < e then routerAt (r + 1) c
  else if e < r then routerAt (r - 1) c
  else pos

/-- The input at which a packet from `pos` enters the next router: 1 to 4 from the north, east, south and west (R273). -/
def enters (pos next : CoreId) : Nat :=
  if meshRow pos < meshRow next then 1 else if meshCol next < meshCol pos then 2
  else if meshRow next < meshRow pos then 3 else 4

/-- The input VC in which a packet waits at its router, within its class. -/
def Packet.inVc (p : Packet) : Nat := 2 * p.inp + b2n p.vc1

/-- Whether a packet is on its way and waits in a router's buffer. -/
def Packet.inTransit (p : Packet) : Bool := decide (p.pos ≠ p.dst)

/-- Whether two packets wait in one buffer: of one input, class and VC of a router (R273). -/
def Packet.sameBuffer (p q : Packet) : Bool :=
  decide (p.pos = q.pos) && decide (p.inp = q.inp) && decide (p.resp = q.resp) && decide (p.vc1 = q.vc1)

/-- The flits that a packet holds in an input buffer, which has room for 4 (R273). [DESIGN CHOICE, log 41] -/
def Packet.held (p : Packet) : Nat := min 4 p.flits

/-- Whether a packet may start out of its buffer: it has come whole and is the first there. -/
def State.bufferHead (s : State) (p : Packet) : Bool :=
  p.inTransit && decide (p.since ≤ s.now) && ! s.flight.any fun q => q.inTransit && q.sameBuffer p && q.before p

/-- Whether there is credit for a packet at the router after its own: room in that router's buffer less the credits that
are on their way, or, at its destination, in the request queue of a Cupola (R273, R304). -/
def State.hasCredit (s : State) (p : Packet) : Bool :=
  let n := nextRouter p.pos p.dst
  let q : Packet := { p with pos := n, inp := enters p.pos n }
  if n = p.dst then ! cupolaBody p.body || decide ((s.cupolaQueue n).length < 64)
  else
    let there := (s.flight.filter fun x => x.inTransit && x.sameBuffer q).foldl (fun k x => k + x.held) 0
    let due := (s.dcredits.filter fun c =>
      decide (c.router = n) && decide (c.inVc = 2 * q.inVc + b2n q.resp) && decide (s.now < c.due)).foldl (fun k c => k + c.n) 0
    decide (there + due + p.held ≤ 4)

/-- The key of the output by which a packet leaves its router. -/
def Packet.output (p : Packet) : Nat := 8 * p.pos.toNat + enters p.pos (nextRouter p.pos p.dst)

/-- The packets that an output could grant: first in their buffers, with credit (R273). -/
def State.waiting (s : State) (o : Nat) : List Packet :=
  s.flight.filter fun p => decide (p.output = o) && s.bufferHead p && s.hasCredit p

/-- How far an input VC is behind the one that was served last: round robin takes the nearest (R273). -/
def rrDist (last vc : Nat) : Nat := (vc + 9 - last % 10) % 10

/-- The input VC that round robin serves among packets of one class. -/
def rrPick (last : Nat) : List Packet → Option Packet
  | [] => none
  | p :: r => some (r.foldl (fun a b => if rrDist last b.inVc < rrDist last a.inVc then b else a) p)

/-- The packet that an output grants: a response before a request, but a request at each fourth start that it could have
had; within a class round robin over the input VCs (R273). -/
def State.granted (s : State) (o : Nat) : Option Packet :=
  let k := Store.get DOut.reset s.douts o
  let ps := s.waiting o
  let reqs := ps.filter fun p => ! p.resp
  let resps := ps.filter fun p => p.resp
  if resps.isEmpty ∨ (3 ≤ k.skipped ∧ ! reqs.isEmpty) then rrPick k.lastReq reqs else rrPick k.lastResp resps

/-- A link that crosses a die edge takes a cycle longer (R270). -/
def hopCycles (pos n : CoreId) : Nat := if quadOf (spireOf pos) = quadOf (spireOf n) then 1 else 2

/-- The granted packet makes its hop: it holds the output from head to tail, and the credits of the buffer that it leaves
return 3 cc after its flits have left it (R270, R273). -/
def State.meshHop (s : State) (p : Packet) (f : Packet → Packet) : State :=
  let n := nextRouter p.pos p.dst
  let o := p.output
  let k := Store.get DOut.reset s.douts o
  let passed := (s.waiting o).any fun q => ! q.resp
  let k : DOut :=
    if p.resp then { k with until_ := s.now + p.flits, skipped := if passed then k.skipped + 1 else k.skipped, lastResp := p.inVc }
    else { k with until_ := s.now + p.flits, skipped := 0, lastReq := p.inVc }
  let back : List DCredit :=
    if p.inp = 0 then []
    else [{ router := p.pos, inVc := 2 * p.inVc + b2n p.resp, n := p.held, due := s.now + p.flits + 3 }]
  let q := f { p with pos := n, inp := enters p.pos n, since := s.now + hopCycles p.pos n }
  ({ s with
      douts := Store.set DOut.reset s.douts o k
      dcredits := (s.dcredits.filter fun c => s.now < c.due) ++ back
      flight := s.flight.map fun x => if x.id = p.id then q else x } : State).queued q

/-- Count in a half of a quadrant's `DMF_ECC`: corrected words below, poisoned words and discards above (R302). -/
def State.countEcc (s : State) (q : Quad) (ue : Bool) : State :=
  let w := s.creg .dmfEcc q.toNat 0
  let lo := fld w 15 0
  let hi := fld w 31 16
  s.setCreg .dmfEcc q.toNat 0 (BitVec.ofNat 32 (
    if ue then lo + min 65535 (hi + 1) * 2 ^ 16 else min 65535 (lo + 1) + hi * 2 ^ 16))

/-- The 64-bit word `k` of a packet's bytes is poisoned. -/
def poisonBytes (bs : List (Byte × Bool)) (k : Nat) : List (Byte × Bool) :=
  bs.zipIdx.map fun p => if p.2 / 8 = k then (p.1.1, true) else p.1

/-- A data word of the packet arrives poisoned (R275): a word of a message or a stream is poisoned in place, a signal
poisons its counter and adds nothing, a value that was read raises ECC_UNCORRECTED, and a write, a registration or an
atomic remembers that its operand is bad. [DESIGN CHOICE, log 29] -/
def Packet.poisoned (p : Packet) (k : Nat) : Packet :=
  match p.body with
  | .message t h ep slot epoch words bad => { p with body := .message t h ep slot epoch words (insNat bad k) }
  | .atomicAnswer t tag old _ => { p with body := .atomicAnswer t tag old (some 0x05) }
  | .ctlData t tag _ _ => { p with body := .ctlData t tag 0 (some (0x05, 0)) }
  | .signal who c _ _ => { p with body := .signal who c 0 true }
  | .swaitAnswer who tag v _ r => { p with body := .swaitAnswer who tag v 2 r }
  | .strData e row tag bs f => { p with body := .strData e row tag (poisonBytes bs k) f }
  | .strWrite e row tag a ep bs => { p with body := .strWrite e row tag a ep (poisonBytes bs k) }
  | _ => { p with bad := true }

/-- The record of a discarded packet: it names the router, with the packet's tag (R275). -/
def State.discarded (s : State) (r : CoreId) (p : Packet) : State :=
  (s.consume p.id).reportCore r 0x22 1 (BitVec.ofNat 64 (p.id % 2 ^ 16)) p.tenant

/-- The refusal that goes back for a request that a closed quadrant cannot take (R525): the body of the answer, or none
where nobody waits for one. -/
def refusalOf (b : Body) : Option Body :=
  match b with
  | .ctlWrite who _ a _ => some (.ack (.thread who) (some (0x12, a)))
  | .ctlRead t tag a => some (.ctlData t tag 0 (some (0x12, a)))
  | .chopen t tag ep => some (.chopenReply t tag 3 ep 0 0 0)
  | .message t h _ _ _ _ _ => some (.msgAck t h 3)
  | .chclose t _ _ _ => some (.ack (.thread t) none)
  | .signal (.thread t) c _ _ => some (.ack (.thread t) (some (0x12, c.setWidth 32)))
  | .signal (.belfry b) c _ _ => some (.ack (.belfry b) (some (0x12, c.setWidth 32)))
  | .swait (.thread t) tag c _ => some (.swaitAnswer (.thread t) tag 0 0 (some (0x12, c.setWidth 32)))
  | .swait (.belfry b) tag c _ => some (.swaitAnswer (.belfry b) tag 0 0 (some (0x12, c.setWidth 32)))
  | .lock (.thread t) tag l _ => some (.lockGrant (.thread t) tag l 0 (some (0x12, l.setWidth 32)))
  | .lock (.belfry b) tag l _ => some (.lockGrant (.belfry b) tag l 0 (some (0x12, l.setWidth 32)))
  | .unlock who l => some (.ack who (some (0x12, l.setWidth 32)))
  | .atomic who tag _ _ => some (.atomicAnswer who tag 0 (some 0x12))
  | .strRead e row tag _ _ => some (.strData e row tag [] 3)
  | .strWrite e row tag _ _ _ => some (.strAck e row tag 3)
  | _ => none

/-- What else a refusal brings about: the record of R314, the answer that another device waits for, and the end of a
stream's wait for its signal. -/
def State.refusedAlso (s : State) (b : Body) : State :=
  let note (s : State) (sp : Spire) (obj : Nat) (who : Signaller) (tenant : Word) : State :=
    s.reportSpire sp 0x18 1 (syncDetail obj who) (tenant.setWidth 4)
  match b with
  | .signal who c _ _ =>
    let s := (note s (ctrSpire c) c.toNat who (s.ctrUnit c)).signalDone who
    (match who with | .remote d g => s.answerRemote d g c.toNat 0 0x12 | _ => s)
  | .swait r _ c _ =>
    let s := note s (ctrSpire c) c.toNat r.signaller (s.ctrUnit c)
    (match r with | .remote d g => s.answerRemote d g c.toNat 0 0x12 | _ => s)
  | .lock r _ l _ => note s (lockSpire l) l.toNat r.signaller (s.lockUnit l)
  | .unlock who l => note s (lockSpire l) l.toNat (requesterOf who).signaller (s.lockUnit l)
  | .watchReg w _ c _ => note s (ctrSpire c) c.toNat w.signaller (s.ctrUnit c)
  | _ => s

/-- A packet makes one hop where its output grants it: the router that samples it corrects or poisons its words, discards
it on a bad header, and no router sends it into a quadrant whose mesh fabric takes no traffic (R272, R273, R275, R525).
[DESIGN CHOICE, log 41] -/
def execDmeshPacketHop (id : Nat) (err : HopError) (s : State) : Host.Outcome State Fault Refusal :=
  .next (match s.flight.find? fun p => p.id = id with
    | none => s
    | some p =>
      let n := nextRouter p.pos p.dst
      let q := quadOf (spireOf n)
      let out := Store.get DOut.reset s.douts p.output
      if ! s.bufferHead p then s
      else if ! s.domOpen (68 + q.toNat) then
        if p.resp then s.discarded p.pos p
        else
          let s := (s.consume id).refusedAlso p.body
          match refusalOf p.body with
          | some b => s.send p.pos p.src true false p.tenant b
          | none => s
      else if s.now < out.until_ ∨ (s.granted p.output).map (·.id) ≠ some id then s
      else
        match err with
        | .none => s.meshHop p fun x => x
        | .single => (s.countEcc q false).meshHop p fun x => x
        | .dataWord k =>
          if 8 * k < bodyBytes p.body then (s.countEcc q true).meshHop p fun x => x.poisoned k else s.meshHop p fun x => x
        | .header => ((s.meshHop p fun x => x).countEcc q true).discarded n p)

end Sys2Proof.Machine
end

