-- ==== Sys2Proof/Machine/Fetch.lean ====
section
/-! DEFINITION. The instruction caches and program caches (R45, R87 to R90). -/

namespace Sys2Proof.Machine

open Sys2Proof

/-- The window address of an instruction address (R45). -/
def State.codeAddr (s : State) (t : Tid) (pc : Word) : Nat := (s.thread t).ctl.codeBase.toNat * 2 ^ 21 + pc.toNat

/-- The set of a physical address in the instruction cache: bits [12:6] (R87). -/
def icSet (a : Nat) : Nat := a / 64 % 128

/-- The set of a physical address in the program cache: bits [15:6] (R87). -/
def pcSet (a : Nat) : Nat := a / 64 % 1024

/-- The line that a way of a set holds: its physical address divided by 64, plus 1; 0 where none is held. -/
def ICache.line (k : ICache) (set way : Nat) : Nat := Store.get 0 k.lines (4 * set + way)

/-- Whether the instruction cache holds the line of a physical address. -/
def ICache.hits (k : ICache) (a : Nat) : Bool := (List.range 4).any fun w => k.line (icSet a) w = a / 64 + 1

/-- The way that a miss fills: an unlocked way that holds no line, else the next unlocked way in rotation. The spec gives
the instruction cache no order of replacement (R88). [DESIGN CHOICE, log 109] -/
def ICache.victim (k : ICache) (set : Nat) : Nat :=
  let open_ := (List.range 4).filter fun w => ! bit k.lock w
  match open_.find? fun w => k.line set w = 0 with
  | some w => w
  | none =>
    let last := Store.get 3 k.next set
    (((List.range 4).map fun i => (last + 1 + i) % 4).find? fun w => open_.contains w).getD 0

/-- Put a line into a way. -/
def ICache.fill (k : ICache) (a way : Nat) : ICache :=
  { k with lines := Store.set 0 k.lines (4 * icSet a + way) (a / 64 + 1), next := Store.set 3 k.next (icSet a) way }

/-- A way of a program-cache set: the line it holds plus 1, or 0. -/
def SpireSt.pcLine (k : SpireSt) (set way : Nat) : Nat := Store.get 0 k.pcLines (8 * set + way)

/-- Whether the program cache holds a line. -/
def SpireSt.pcWay (k : SpireSt) (line : Nat) : Option Nat :=
  (List.range 8).find? fun w => k.pcLine (pcSet (64 * line)) w = line + 1

/-- An evicted line is offered to the program cache (R89). -/
def State.offerLine (s : State) (sp : Spire) (line : Nat) : State :=
  let k := s.spire sp
  let set := pcSet (64 * line)
  if (k.pcWay line).isSome then s
  else
    let lock := s.creg .pcLock sp.toNat 0
    let open_ := (List.range 8).filter fun w => ! bit lock w && ! k.pcUsed.contains (8 * set + w)
    let pick := match open_.find? fun w => k.pcLine set w = 0 with
      | some w => some w
      | none => open_.head?
    match pick with
    | some w => s.modSpire sp fun k => { k with pcLines := Store.set 0 k.pcLines (8 * set + w) (line + 1) }
    | none => s.modSpire sp fun k => { k with pcUsed := k.pcUsed.filter fun x => x / 8 ≠ set }

/-- Fill a line into a way of a core's instruction cache: a program-cache line that serves it is marked used, an
evicted line is offered (R87, R89). -/
def State.fillLine (s : State) (c : CoreId) (a way : Nat) : State :=
  let sp := spireOf c
  let k := (s.core c).icache
  let old := k.line (icSet a) way
  let s := match (s.spire sp).pcWay (a / 64) with
    | some w => s.modSpire sp fun r => { r with pcUsed := insNat r.pcUsed (8 * pcSet a + w) }
    | none => s
  let s := s.modCore c fun r => { r with icache := r.icache.fill a way }
  if old ≠ 0 ∧ old ≠ a / 64 + 1 then s.offerLine sp (old - 1) else s

/-- Whether the line that a fill brings from Far holds a poisoned word; one that the program cache serves does not
(R27, R228). -/
def State.lineBad (s : State) (c : CoreId) (a : Nat) : Bool :=
  ((s.spire (spireOf c)).pcWay (a / 64)).isNone && s.far.poisoned (a / 64 * 64) 64

/-- Translate a code address for fetch (R45, R204). -/
def State.fetchPhys (s : State) (t : Tid) (wa : Nat) : Option Nat × State :=
  let r := s.translate (.core t.core) (s.thread t).tenant wa .fetch
  (r.1.bind fun a => if farPopulated a then some a else none, r.2)

end Sys2Proof.Machine
end

