-- ==== Sys2Proof/Machine/System.lean ====
section
/-! DEFINITION. The system instructions of major 0x1C, unassigned encodings and instruction-cache fills (R46, R66 to
R69, R73 to R76, R87, R88, R95 to R106). -/

namespace Sys2Proof.Machine

open Sys2Proof

/-! ### The compare timer and `wait` (R66, R67) -/

/-- The compare timer fires once when `CYC` has reached the compare value while it is armed. -/
def State.fireTimer (s : State) (t : Tid) : State :=
  let c := (s.thread t).ctl
  if c.cmpen ∧ c.cmp.toNat ≤ s.cyc t.core then
    (s.modThread t fun th => th.modCtl fun c => { c with cmpen := false }).latch t 1
  else s

/-- `wait`: ends at once with a wake source pending, else the thread sleeps (R66). -/
def execWait (i : Iss) (d : Reg) (s : State) : Host.Outcome State Fault Refusal :=
  issue i { wg := [d] } s fun t s =>
    let s := s.fireTimer t
    let w := s.wakeSet (s.thread t)
    if w ≠ 0 then .done (s.modThread t fun th => th.setG d w) else .block s (.wait d)

/-- The wake set of a sleeping thread becomes non-empty: it is written to d and the thread goes on (R66). -/
def execWaitWake (th : Tid) (s : State) : Host.Outcome State Fault Refusal :=
  .next (match (s.thread th).status with
    | .blocked (.wait d) =>
      let w := s.wakeSet (s.thread th)
      if w = 0 then s else (s.modThread th fun r => r.setG d w).resume th
    | _ => s)

/-- `tick_end`: a tick-bound thread waits for its unit instructions, reports done and sleeps; a free thread sleeps until
the next edge (R68, R69). -/
def execTickEnd (i : Iss) (s : State) : Host.Outcome State Fault Refusal :=
  issue i {} s fun t s =>
    let th := s.thread t
    if th.inShadow then .exc 0x01 0 .scalar
    else if th.ctl.bound ∧ ! s.unitsDone t then .block s .tickEnd
    else if th.ctl.bound then .moved (s.tickEndDone t)
    else .moved (s.modThread t fun th => { th.retire with status := .tickSleep })

/-! ### Traps, breakpoints and unassigned encodings -/

/-- `trap #n`: vector 0x80 + n, returning to the instruction after it (R93, R95). -/
def execTrap (who : By) (n : BitVec 7) (low : BitVec 8) (s : State) : Host.Outcome State Fault Refusal :=
  match who with
  | .belfry b => s.belfryIssue b fun s => s.belfryTrap b n low
  | .compute i =>
    issue i {} s fun t s =>
      let vec : BitVec 8 := 0x80 + n.setWidth 8
      if low ≠ 0 then .exc 0x01 0 .scalar
      else if (s.thread t).inShadow then .exc vec 0 .scalar
      else
        let s' := s.modThread t Thread.retire
        .moved (s'.syncExc t vec 0 (s'.thread t).pc .scalar)

/-- `brk`: BREAKPOINT at the instruction (R94, R499). -/
def execBrk (who : By) (s : State) : Host.Outcome State Fault Refusal :=
  match who with
  | .belfry b => s.belfryIssue b fun s => s.belfryEnter b 0x08 0 0
  | .compute i => issue i {} s fun _ _ => .exc 0x08 0 .scalar

/-- An unassigned encoding issues under its own condition and raises ILLEGAL_INSTR (R46); a word that is assigned is
no such command, and nothing happens. -/
def execUnassignedEncoding (i : Iss) (w : Word) (s : State) : Host.Outcome State Fault Refusal :=
  if unassignedWord w then issue { i with cond := w.extractLsb' 28 4 } {} s fun _ _ => .exc 0x01 0 .scalar else .next s

/-- `halt`: Machine only; disables the issuing thread (R65). -/
def execHalt (i : Iss) (s : State) : Host.Outcome State Fault Refusal :=
  issue i {} s fun t s =>
    if (s.thread t).priv ≠ .machine then .exc 0x02 0 .scalar
    else .moved ((s.modThread t Thread.retire).disableThread t)

/-! ### Return and the shadow window -/

/-- `eret` (R106, R119): Supervisor; a compute thread waits for its writes to its own Lantern. [DEDUCED, log 36] -/
def execEret (who : By) (s : State) : Host.Outcome State Fault Refusal :=
  match who with
  | .belfry b => s.belfryIssue b fun s => s.belfryEret b
  | .compute i =>
    issue i { g := [26, 28, 29] } s fun t s =>
      if (s.thread t).priv = .user then .exc 0x02 0 .scalar
      else if s.lanternWrites t ∨ s.gPending t then .block s .eret
      else
        match s.eret t with
        | .ok s' => .moved s'
        | .error (c, a) => .exc c a .scalar

/-- `saveshadow` (R104): Supervisor; nothing outside the shadow window. [DEDUCED, log 36] -/
def execSaveshadow (i : Iss) (s : State) : Host.Outcome State Fault Refusal :=
  issue i { g := [29] } s fun t s =>
    if (s.thread t).priv = .user then .exc 0x02 0 .scalar
    else if ! (s.thread t).inShadow then .done s
    else if s.gPending t then .hold
    else
      match s.saveShadow t with
      | .ok s' => .done s'
      | .error (c, a) => .exc c a .scalar

/-! ### Descriptors (R96 to R99) -/

/-- The table entry of a vector as Local holds it: invalid where its bytes are out of range or poisoned, with every field
at its reset value (R98). [DESIGN CHOICE, log 111] -/
def State.tableEntry (s : State) (t : Tid) (v : Nat) : Desc :=
  let m := (s.core t.core).mem
  let a := (s.thread t).ltn.vdt.toNat * 4096 + 16 * v
  if 0xC0000 < a + 16 ∨ m.poisoned a 16 then Desc.reset
  else { handler := BitVec.ofNat 64 (m.readNat a 8), sp := BitVec.ofNat 32 (m.readNat (a + 8) 4),
         ctl := BitVec.ofNat 32 (m.readNat (a + 12) 4) }

/-- Reload one copy: a Machine entry, and the entry of a cause that the device fixes at Machine, only from Machine (R92,
R99); a poisoned table word logs its record (R228). -/
def State.reloadOne (s : State) (t : Tid) (mach : Bool) (v : Nat) : State :=
  let old := Store.get Desc.reset (s.thread t).ltn.copies v
  if (fld old.ctl 13 12 = 3 ∨ fixedMachine (BitVec.ofNat 8 v)) ∧ ! mach then s
  else
    let a := (s.thread t).ltn.vdt.toNat * 4096 + 16 * v
    let s := if a + 16 ≤ 0xC0000 ∧ (s.core t.core).mem.poisoned a 16 then
        s.reportPoison t.core 0x02 (BitVec.ofNat 64 a) (s.thread t).tenant true
      else s
    let d := s.tableEntry t v
    s.modThread t fun th => th.modLtn fun l => { l with copies := Store.set Desc.reset l.copies v d }

/-- Reload `count` copies from `first` on, wrapping past 0xFF (R98). -/
def State.reload (s : State) (t : Tid) (mach : Bool) (first : Nat) : Nat → State
  | 0 => s
  | n + 1 => (s.reloadOne t mach first).reload t mach ((first + 1) % 256) n

/-- The count field: 0 means 256; none above 256 (R98). -/
def reloadCount (v : Word) : Option Nat :=
  let n := fld v 16 8
  if n = 0 then some 256 else if 256 < n then none else some n

/-- `desc_sync` (R98, R99); in ZN2 compatibility mode it reloads nothing (R123). -/
def execDescSync (i : Iss) (a : Reg) (s : State) : Host.Outcome State Fault Refusal :=
  issue i { g := [a] } s fun t s =>
    let th := s.thread t
    let v := th.g a
    if th.priv = .user then .exc 0x02 0 .scalar
    else
      match reloadCount v with
      | none => .exc 0x01 0 .scalar
      | some n => .done (if (s.lanternOf t).legacy then s else s.reload t (decide (th.priv = .machine)) (fld v 7 0) n)

/-! ### Instruction-cache preload and fill (R87, R88) -/

/-- The next line of an `ipreload` is loaded into its way, after the last the thread goes on; a line that cannot be
translated raises `WINDOW_MISS`, with the lines done in `PROGRESS` (R88, R112). A line that is poisoned in Far is not
kept (R27). [DESIGN CHOICE, log 109] -/
def State.preloadLine (s : State) (t : Tid) (way first total k : Nat) : State :=
  let wa := (s.codeAddr t 0) + 64 * (first + k)
  let p := s.fetchPhys t wa
  match p.1 with
  | none =>
    let s := p.2.modThread t fun th => th.record 6 (some k)
    s.syncExc t 0x11 (BitVec.ofNat 32 wa) (s.thread t).pc .scalar
  | some x =>
    let s := if p.2.lineBad t.core x then p.2 else p.2.fillLine t.core x way
    if k + 1 < total then s.modThread t fun th => { th with status := .blocked (.preload way first total (k + 1)) }
    else (s.modThread t Thread.endProgress).resume t

/-- `ipreload ga, gb, #w`: stalls while the lines of a code range are loaded into way w, one at each ICACHE_FILL of the
thread (R88). [DESIGN CHOICE, log 109] -/
def execIpreload (i : Iss) (d a b : Reg) (s : State) : Host.Outcome State Fault Refusal :=
  issue i { g := [a, b] } s fun t s =>
    let th := s.thread t
    if th.priv = .user then .exc 0x02 0 .scalar
    else
      let lo := (th.g a).toNat
      let n := (th.g b).toNat
      let first := lo / 64
      let lines := if n = 0 then 0 else (lo + n - 1) / 64 + 1 - first
      let k := th.progressOf 6
      if k < lines then .block s (.preload (fld d 1 0) first lines k)
      else .done (s.modThread t Thread.endProgress)

/-- A running thread fetches: a hit changes nothing; a miss stalls the thread and is outstanding from now on, or waits
for the one that is; a fetch that misses the window table raises `WINDOW_MISS` (R45, R87). -/
def State.fetchMiss (s : State) (t : Tid) : State :=
  let pc := (s.thread t).pc
  let wa := s.codeAddr t pc
  let p := s.fetchPhys t wa
  match p.1 with
  | none => p.2.syncExc t 0x11 (BitVec.ofNat 32 wa) pc .scalar
  | some x =>
    if (p.2.core t.core).icache.hits x then p.2
    else
      let s := p.2.modCore t.core fun c =>
        { c with icmiss := satAdd c.icmiss 1, miss := some (c.miss.getD (t, x)) }
      s.modThread t fun th => { th with status := .blocked .fetch }

/-- The miss outstanding for a thread fills its line, and the threads that stall for it fetch again (R87). A line that is
poisoned in Far is not kept, and faults the thread where it still waits for it (R27). [DESIGN CHOICE, log 109] -/
def State.fillMiss (s : State) (t : Tid) (x : Nat) : State :=
  let c := t.core
  let way := (s.core c).icache.victim (icSet x)
  if s.lineBad c x then
    let r := (s.modCore c fun k => { k with miss := none }).refetch c
    if (s.thread t).status = .blocked .fetch then
      r.syncExc t 0x05 (BitVec.ofNat 32 (s.codeAddr t (s.thread t).pc)) (s.thread t).pc .scalar
    else r
  else ((s.fillLine c x way).modCore c fun k => { k with miss := none }).refetch c

/-- ICACHE_FILL: a thread's miss begins, is filled when the command comes again, or the next line of its `ipreload` is
loaded (R87, R88). [DESIGN CHOICE, log 109] -/
def execIcacheFill (th : Tid) (s : State) : Host.Outcome State Fault Refusal :=
  .next (
    if ! s.spireRuns (spireOf th.core) then s
    else
      match (s.thread th).status with
      | .blocked (.preload way first total k) => s.preloadLine th way first total k
      | st =>
        match (s.core th.core).miss with
        | some (o, x) => if o = th then s.fillMiss th x else if st = .running then s.fetchMiss th else s
        | none => if st = .running then s.fetchMiss th else s)

/-! ### Fences (R73 to R76) -/

/-- `fence.l`. -/
def execFenceL (i : Iss) (s : State) : Host.Outcome State Fault Refusal :=
  issue i {} s fun t s => if (s.thread t).fenceLDone then .done s else .block s .fenceL

/-- `fence.s`. -/
def execFenceS (i : Iss) (s : State) : Host.Outcome State Fault Refusal :=
  issue i {} s fun t s => if s.fenceSDone t then .done (s.fenceSEnd t) else .block s .fenceS

/-- `fence.d`. -/
def execFenceD (i : Iss) (s : State) : Host.Outcome State Fault Refusal :=
  issue i {} s fun t s =>
    if (s.thread t).posted = 0 then .done (s.modThread t Thread.fenceDEnd) else .block s .fenceD

end Sys2Proof.Machine
end

