-- ==== Sys2Proof/Machine/LanternEvents.lean ====
section
/-! DEFINITION. The Lantern's deliveries and its registers, and the thread registers that other agents write (R43, R44,
R108 to R118, R311, R522, R523). -/

namespace Sys2Proof.Machine

open Sys2Proof

/-! ### Delivery -/

/-- An entry of the Lantern into vector `vec`. -/
def lanternEntry (vec : BitVec 8) (detail : Word) (prio : Nat) (th : Thread) : Entry :=
  { th.entry vec detail th.pc .lantern with prio := prio }

/-- What `LTN_OVR` records of a stopped thread (R118, R358). -/
def Thread.ovrWord (th : Thread) : Word :=
  BitVec.ofNat 32 (th.priv.code.toNat + th.ltn.stack.length * 2 ^ 8 +
    (match th.ltn.stack with | e :: _ => e.1.toNat | [] => 0) * 2 ^ 16 + b2n th.inShadow * 2 ^ 24)

/-- `TICK_OVERRUN` enters a thread that has stopped: its loops, its `PROGRESS` and its priority stack are cleared, and the
entry record leads back to `TENTRY` in User with `IE` set (R358). -/
def State.takeOverrun (s : State) (t : Tid) : State :=
  let th := s.thread t
  let entry : Word := th.ctl.tentry
  let e : Entry :=
    { vec := 0x38, detail := if th.status = .tickSleep then entry else th.pc, ret := entry, prio := 0, unit := .lantern,
      ppriv := .user, pie := true, forced := false }
  let clear (s : State) : State :=
    s.modThread t fun th =>
      { th with
          main := { th.main with depth := 0 }
          ctl := { th.ctl with progress := 0 } }
  let s := s.modThread t fun th => th.modLtn fun l =>
    { l with ovr := th.ovrWord, stack := [], spurMarks := [], fresh := [], atom := .inactive, atomStack := [] }
  if th.inShadow then
    match s.saveShadow t with
    | .error _ => s.lockup t th.handling 0x38 th.pc
    | .ok s => (clear s).deliver t { e with forced := true }
  else (clear s).deliver t e

/-- Enter a Machine cause in a thread that has stopped. -/
def State.machineEntry (s : State) (t : Tid) (vec : BitVec 8) (detail : Word) : State :=
  if vec = 0x38 then s.takeOverrun t else s.asyncExc t (lanternEntry vec detail 0)

/-- Raise a Machine cause in a thread (R92): taken at once where the thread can, kept where it is held, and lost in a
thread that is disabled or locked up. [DEDUCED, log 17] -/
def State.raiseMachine (s : State) (t : Tid) (vec : BitVec 8) (detail : Word) : State :=
  let keep : State := s.modThread t fun th => th.modLtn fun l => { l with machPend := l.machPend ++ [(vec, detail)] }
  match (s.thread t).status with
  | .disabled | .lockedUp => s
  | .armed | .tickSleep => keep
  | .running | .blocked _ =>
    if (s.thread t).ltn.machPend ≠ [] then keep
    else
      match s.stop t 0 with
      | .ready s => s.machineEntry t vec detail
      | .wait | .taken _ => keep

/-- Take a kept Machine cause, stopping a guarded instruction after `n` units. [DEDUCED, log 17] -/
def State.takeMachine (s : State) (t : Tid) (n : Nat) (vec : BitVec 8) (detail : Word) (rest : List (BitVec 8 × Word)) :
    State :=
  match s.stop t n with
  | .wait => s
  | .taken s => s
  | .ready s =>
    (s.modThread t fun th => th.modLtn fun l => { l with machPend := rest }).machineEntry t vec detail

/-- Take interrupt source `n`: the stack is pushed, an edge source's pending bit clears (R115, R116). -/
def State.takeSource (s : State) (t : Tid) (n units : Nat) : State :=
  match s.stop t units with
  | .wait => s
  | .taken s => s
  | .ready s =>
    let p := (s.thread t).ltn.prioOf n
    let s := s.modThread t fun th => th.modLtn fun l =>
      { l with
          stack := (BitVec.ofNat 5 n, BitVec.ofNat 6 p) :: l.stack,
          edge := if levelSource n then l.edge else l.edge &&& ~~~ (1#32 <<< n) }
    (s.asyncExc t fun th =>
      { lanternEntry (BitVec.ofNat 8 (0x40 + n)) 0 p th with
          level := if levelSource n then some (BitVec.ofNat 5 n) else none }).traceLantern t (0x40 + n) p

/-- Whether a pending slot underrun may be delivered (R523). -/
def Lantern.underDue (l : Lantern) : Bool := l.slotUnder && l.open_

/-- The Lantern delivers: a Machine cause that waits comes first, a slot underrun goes ahead of every interrupt, and then
comes the deliverable source of lowest priority value (R92, R109, R115, R523). [DEDUCED, log 21] -/
def execInterruptDelivery (th : Tid) (units : BitVec 16) (s : State) : Host.Outcome State Fault Refusal :=
  .next (
    let r := s.thread th
    if ! s.spireRuns (spireOf th.core) ∨ ! r.takesVectors then s
    else
      match r.ltn.machPend with
      | (vec, detail) :: rest => s.takeMachine th units.toNat vec detail rest
      | [] =>
        if r.ltn.underDue then s
        else
          match s.bestSource r with
          | some n => s.takeSource th n units.toNat
          | none => s)

/-- A pending slot underrun is delivered where interrupts are open, whatever the running priority, after the Machine
causes (R523). [DEDUCED, log 48] -/
def execSlotUnderrunDelivery (th : Tid) (units : BitVec 16) (s : State) : Host.Outcome State Fault Refusal :=
  .next (
    let r := s.thread th
    if ! s.spireRuns (spireOf th.core) ∨ ! r.takesVectors ∨ ! r.ltn.underDue ∨ r.ltn.machPend ≠ [] then s
    else
      match s.stop th units.toNat with
      | .wait => s
      | .taken s => s
      | .ready s =>
        let info := s.creg .smrUnderinfo th.core.toNat 0
        (s.modThread th fun x => x.modLtn fun l => { l with slotUnder := false }).asyncExc th (lanternEntry 0x39 info 0))

/-- A handler's atomic section ends (R108). -/
def execAtomicSectionExpiry (th : Tid) (s : State) : Host.Outcome State Fault Refusal :=
  .next (match (s.thread th).ltn.atom with
    | .running e => if e ≤ s.now then s.modThread th fun x => x.modLtn fun l => { l with atom := .expired } else s
    | _ => s)

/-- The compare timer fires (R66). -/
def execCompareTimerFire (th : Tid) (s : State) : Host.Outcome State Fault Refusal :=
  .next (if s.domCarries (spireOf th.core).toNat then s.fireTimer th else s)

/-! ### Registers of the Lantern (R114 to R118) -/

/-- Whether JTAG or a host function has a way to the Lanterns (R405, R483, R492). -/
def State.lanternWay (s : State) : Agent → Bool
  | .jtag => decide (fld (s.creg .keepDbg 0 0) 1 0 ≠ 0)
  | .host fn => decide (fn = 0) && ! bit (s.creg .keepBootstat 0 0) 7
  | _ => true

/-- The gate of a write to a Lantern register: as `State.gate`, `mach` marking the register M (R118, R313, R447).
[DEDUCED, log 100] -/
def State.lanternGate (s : State) (ag : Agent) (t : Tid) (mach : Bool) : Gate :=
  let away := match ag with
    | .belfry b => decide (s.agentPriv ag = Priv.user) && ! s.inPartition (s.bel b).tenant (spireOf t.core)
    | _ => false
  if ! s.lanternWay ag then .ignore
  else if away then .ignoreLogged
  else if ! s.domOpen (spireOf t.core).toNat then (if agentIsThread ag then .refuse 0x12 else .ignoreLogged)
  else if mach ∧ s.agentPriv ag ≠ Priv.machine then (if agentIsThread ag then .refuse 0x02 else .ignore)
  else .ok

/-- The control address of a Lantern's register. -/
def lanternAddr (t : Tid) (off : Nat) : Nat :=
  spireBase (spireOf t.core).toNat + 0x10000 + 0x1000 * (t.core.toNat % 32) + 0x400 * t.thread.toNat + off

/-- Perform a write to a Lantern register where the gate lets it through. -/
def State.lanternGated (s : State) (ag : Agent) (t : Tid) (mach : Bool) (off : Nat) (f : State → State) : State :=
  match s.lanternGate ag t mach with
  | .ok => f s
  | .refuse _ => s
  | .ignore => s
  | .ignoreLogged => s.logAccess ag (BitVec.ofNat 64 (lanternAddr t off))

/-- A write of `LTN_EOI`: the top source pops; any other, or an empty stack, raises PRIORITY_STACK (R116, R117). -/
def State.writeEoi (s : State) (t : Tid) (v : Word) : State :=
  let n : BitVec 5 := v.setWidth 5
  match (s.thread t).ltn.stack with
  | e :: rest =>
    if e.1 = n then
      (s.modThread t fun th => th.modLtn fun l =>
        { l with
            stack := rest, spurMarks := l.spurMarks.filter (· ≠ n),
            spur := if l.spurMarks.contains n ∧ l.spur ≠ BitVec.allOnes 16 then l.spur + 1 else l.spur }).traceLantern
        t (0x40 + n.toNat) e.2.toNat
    else s.raiseMachine t 0x3A (n.setWidth 32)
  | [] => s.raiseMachine t 0x3A (n.setWidth 32)

/-- End-of-interrupt (R116). -/
def execLtnEoiWrite (ag : Agent) (th : Tid) (v : Word) (s : State) : Host.Outcome State Fault Refusal :=
  .next (s.lanternGated ag th false 0x014 fun s => s.writeEoi th v)

/-- A write of `LTN_SWSET` latches SOFT0 to SOFT7. -/
def State.writeSwset (s : State) (t : Tid) (v : Word) : State :=
  s.modThread t fun th => th.modLtn fun l => { l with edge := l.edge ||| (v &&& 0x00FF0000) }

/-- Software sources are latched (R115, R118). -/
def execLtnSwsetWrite (ag : Agent) (th : Tid) (v : Word) (s : State) : Host.Outcome State Fault Refusal :=
  .next (s.lanternGated ag th false 0x00C fun s => s.writeSwset th v)

/-- A write of `LTN_PCLR` clears pending edge sources. -/
def State.writePclr (s : State) (t : Tid) (v : Word) : State :=
  s.modThread t fun th => th.modLtn fun l => { l with edge := l.edge &&& ~~~ v }

/-- Pending edge sources are cleared (R118). -/
def execLtnPclrWrite (ag : Agent) (th : Tid) (v : Word) (s : State) : Host.Outcome State Fault Refusal :=
  .next (s.lanternGated ag th false 0x010 fun s => s.writePclr th v)

/-- A write of `LTN_SYNC` reloads descriptors; a count above 256 is ignored; in ZN2 compatibility mode only a Machine
write reloads (R98, R99, R123). -/
def State.writeSync (s : State) (mach : Bool) (t : Tid) (v : Word) : State :=
  match reloadCount v with
  | some n => if (s.lanternOf t).legacy ∧ ! mach then s else s.reload t mach (fld v 7 0) n
  | none => s

/-- Descriptors are reloaded through the Lantern (R98). -/
def execLtnSyncWrite (ag : Agent) (th : Tid) (v : Word) (s : State) : Host.Outcome State Fault Refusal :=
  .next (s.lanternGated ag th false 0x024 fun s => s.writeSync (decide (s.agentPriv ag = .machine)) th v)

/-- Whether any thread of the device is locked up (R118, R516). -/
def State.anyLocked (s : State) : Bool := s.threads.any fun p => decide (p.2.status = .lockedUp)

/-- The `FAULT_N` source of lockups clears with the last `SPL_LOCK` bit (R516). -/
def State.settleLockFault (s : State) : State :=
  if s.anyLocked then s else { s with faultSrc := s.faultSrc &&& ~~~ 1#6 }

/-- A Machine write of 1 to `LTN_LOCKUP.RESET` (R114). -/
def State.resetLockup (s : State) (t : Tid) : State :=
  if (s.thread t).status = .lockedUp then
    (s.modThread t fun th =>
      { th.disable.clearProgress with
          inShadow := false,
          ltn := { th.ltn with stack := [], edge := 0, ie := false, slotUnder := false, machPend := [], spurMarks := [],
                               fresh := [], atom := .inactive, atomStack := [] } }).settleLockFault
  else s

/-- A locked-up thread returns to Disabled (R114). -/
def execLtnLockupReset (ag : Agent) (th : Tid) (s : State) : Host.Outcome State Fault Refusal :=
  .next (s.lanternGated ag th true 0x030 fun s => s.resetLockup th)

/-- A write of `LTN_WATCHk` (R311). -/
def State.writeLtnWatch (s : State) (t : Tid) (k : BitVec 3) (v : Word) : State :=
  let old := Store.get 0 (s.thread t).ltn.watch k.toNat
  let v := v &&& 0x8000FFFF
  let s := s.modThread t fun th => th.modLtn fun l => { l with watch := Store.set 0 l.watch k.toNat v }
  let s := if bit old 31 ∧ ctrSpire (old.setWidth 16) ≠ ctrSpire (v.setWidth 16) then
      s.send t.core (cupolaRouter (ctrSpire (old.setWidth 16))) false false (s.thread t).tenant
        (.watchReg (.lantern t k) (s.thread t).tenant (old.setWidth 16) none)
    else s
  let s := if bit v 31 then s else
      s.modThread t fun th => th.modLtn fun l =>
        { l with watchHigh := l.watchHigh &&& ~~~ (1#8 <<< k.toNat), watchRetry := Store.del l.watchRetry k.toNat }
  if bit old 31 ∨ bit v 31 then s.askWatch t k else s

/-- A counter watch of a Lantern is registered, replaced or withdrawn (R311). [DEDUCED, log 27] -/
def execLtnWatchWrite (ag : Agent) (th : Tid) (k : BitVec 3) (v : Word) (s : State) : Host.Outcome State Fault Refusal :=
  .next (s.lanternGated ag th false (0x060 + 4 * k.toNat) fun s => s.writeLtnWatch th k v)

/-- A write of `LTN_WTGTk`: a registered watch is registered anew (R311). -/
def State.writeLtnWtgt (s : State) (t : Tid) (k : BitVec 3) (v : Word) : State :=
  let s := s.modThread t fun th => th.modLtn fun l => { l with wtgt := Store.set 0 l.wtgt k.toNat v }
  if bit (Store.get 0 (s.thread t).ltn.watch k.toNat) 31 then s.askWatch t k else s

/-- The target of a Lantern's watch is written (R311). -/
def execLtnWtgtWrite (ag : Agent) (th : Tid) (k : BitVec 3) (v : Word) (s : State) : Host.Outcome State Fault Refusal :=
  .next (s.lanternGated ag th false (0x080 + 4 * k.toNat) fun s => s.writeLtnWtgt th k v)

/-! ### Thread and core registers written by commands of their own (R42 to R44) -/

/-- Whether an agent may write the Supervisor registers of a core: a thread of that core at Supervisor, or Duboette.
[DEDUCED, log 100] -/
def State.supervises (s : State) (ag : Agent) (c : CoreId) : Bool :=
  match ag with
  | .thread t => decide (t.core = c) && (s.agentPriv ag).atLeast .supervisor
  | .belfry _ => decide (s.agentPriv ag = .machine)
  | _ => false

/-- Threads are enabled or disabled (R44, R522). -/
def execThreadEnWrite (ag : Agent) (core : CoreId) (v : Word) (s : State) : Host.Outcome State Fault Refusal :=
  .next (if s.supervises ag core then s.writeThreadEn core v 4 else s)

/-- `TCFG` is written: BOUND from the next edge, CMPEN at once (R44). -/
def execTcfgWrite (ag : Agent) (th : Tid) (v : Word) (s : State) : Host.Outcome State Fault Refusal :=
  .next (if s.supervises ag th.core then s.writeTreg th 0x00B v else s)

/-- `CMP_LO` is written: held until the next write of `CMP_HI` (R43). -/
def execCmpLoWrite (th : Tid) (v : Word) (s : State) : Host.Outcome State Fault Refusal :=
  .next (s.writeTreg th 0x004 v)

/-- `CMP_HI` is written: the compare value takes effect (R43). -/
def execCmpHiWrite (th : Tid) (v : Word) (s : State) : Host.Outcome State Fault Refusal :=
  .next (s.writeTreg th 0x005 v)

/-- A read of `CYC_LO` latches `CYC_HI` for its reader (R43). -/
def execCycLoRead (th : Tid) (s : State) : Host.Outcome State Fault Refusal :=
  .next (s.readTreg th th 0x100).2

/-- `ICCTL` is written: way locks, or every line dropped (R44, R88). -/
def execIcctlWrite (ag : Agent) (core : CoreId) (v : Word) (s : State) : Host.Outcome State Fault Refusal :=
  .next (if s.supervises ag core then s.writeTreg { core := core, thread := 0 } 0x104 v else s)

end Sys2Proof.Machine
end

