-- ==== Sys2Proof/Machine/Belfry.lean ====
section
/-! DEFINITION. The quadrants' Belfry interrupt controllers and the cache range instructions (R122, R225 to R227). -/

namespace Sys2Proof.Machine

open Sys2Proof

/-! ### The interrupt controller (R122) -/

/-- A core's priority stack. -/
def QuadSt.bicStack (k : QuadSt) (c : Nat) : List (BitVec 10 × BitVec 6) := Store.get [] k.bicStacks c

/-- Whether a source is on one of the controller's stacks. -/
def QuadSt.bicStacked (k : QuadSt) (n : Nat) : Bool :=
  (List.range 4).any fun c => (k.bicStack c).any fun e => decide (e.1.toNat = n)

/-- The pending bit of a source (R115, R122). -/
def State.bicPend (s : State) (q : Quad) (n : Nat) : Bool :=
  if bicLevel n then (s.quad q).bicStacked n || s.bicCond q n else Store.get false (s.quad q).bicEdge n

/-- The sources of a controller that may be pending: latched edges, watches that are high and the other levels. -/
def State.bicSources (s : State) (q : Quad) : List Nat :=
  ((List.range 0x143).filter bicLevel) ++ (s.quad q).bicEdge.map (·.1) ++ (s.quad q).bicWatch.map (fun p => 0x200 + p.1)

/-- Whether source `n` is deliverable to core `c` (R109, R122). -/
def State.bicDeliverable (s : State) (q : Quad) (c n : Nat) : Bool :=
  let w := s.creg .bicSrc q.toNat n
  let st := (s.quad q).bicStack c
  let running := match st with | [] => 64 | e :: _ => e.2.toNat
  s.bicPend q n && bit w 14 && decide (fld w 1 0 = c) && ! (s.quad q).bicStacked n && decide (fld w 13 8 < running) &&
  decide (st.length < 16)

/-- The deliverable source of lowest priority value, the lowest number among equals. -/
def State.bicBest (s : State) (q : Quad) (c : Nat) : Option Nat :=
  (s.bicSources q).foldl (fun best n =>
    if ! s.bicDeliverable q c n then best
    else
      match best with
      | none => some n
      | some m =>
        let p := fld (s.creg .bicSrc q.toNat n) 13 8
        let o := fld (s.creg .bicSrc q.toNat m) 13 8
        if p < o ∨ (p = o ∧ n < m) then some n else some m) none

/-- A Belfry core takes a vector and pushes a frame (R119, R122). -/
def execBelfryInterruptDelivery (bf : BCore) (s : State) : Host.Outcome State Fault Refusal :=
  .next (
    let q := belQuad bf
    let c := bf.toNat % 4
    let k := s.bel bf
    let waits : Bool := match k.block with | some (.atomic ..) => true | _ => false
    if k.halted ∨ k.held ∨ ! bit k.status 0 ∨ waits ∨ ! s.domCarries (64 + q.toNat) then s
    else
      match s.bicBest q c with
      | none => s
      | some n =>
        let w := s.creg .bicSrc q.toNat n
        let s := (s.belfryStop bf).modQuad q fun r =>
          { r with
              bicStacks := Store.set [] r.bicStacks c ((BitVec.ofNat 10 n, BitVec.ofNat 6 (fld w 13 8)) :: r.bicStack c),
              bicEdge := Store.set false r.bicEdge n false }
        s.belfryTake bf
          { vec := BitVec.ofNat 8 (0x40 + fld w 7 2), detail := BitVec.ofNat 64 n, prio := fld w 13 8, ret := k.pc,
            level := if bicLevel n then some (BitVec.ofNat 10 n) else none })

/-- A write of `BIC_EOIk`: the top source pops; any other raises PRIORITY_STACK in core k (R116, R117, R122). -/
def State.writeBicEoi (s : State) (q : Quad) (c : Nat) (v : Word) : State :=
  let s := s.belfryJudge (q ++ BitVec.ofNat 2 c)
  let n : BitVec 10 := v.setWidth 10
  let bad : State := s.belfryEnter (q ++ BitVec.ofNat 2 c) 0x3A (n.setWidth 64) 0
  match (s.quad q).bicStack c with
  | e :: rest =>
    if e.1 = n then
      let marks := Store.get [] (s.quad q).bicSpurMarks c
      let s := s.modQuad q fun r =>
        { r with
            bicStacks := Store.set [] r.bicStacks c rest,
            bicSpurMarks := Store.set [] r.bicSpurMarks c (marks.filter (· ≠ n)) }
      let x := s.creg .bicSpur q.toNat c
      if marks.contains n ∧ x.toNat < 0xFFFF then s.setCreg .bicSpur q.toNat c (x + 1) else s
    else bad
  | [] => bad

/-- End-of-interrupt at a Belfry core (R122). -/
def execBicEoiWrite (ag : Agent) (q : Quad) (k : BitVec 2) (v : Word) (s : State) : Host.Outcome State Fault Refusal :=
  .next (s.gated ag .bicEoi q.toNat fun s => s.writeBicEoi q k.toNat v)

/-- A write of `BIC_SRCn`: its fields, and SET latches a software source (R122). -/
def State.writeBicSrc (s : State) (q : Quad) (n : Nat) (v : Word) : State :=
  let s := s.plainWrite .bicSrc q.toNat n (v &&& ~~~ (0x20000#32))
  if bit v 17 ∧ 0x180 ≤ n ∧ n < 0x200 then s.raiseBic q n else s

/-- A software source of a controller is latched (R122). -/
def execBicSrcSetWrite (ag : Agent) (q : Quad) (n : BitVec 10) (s : State) : Host.Outcome State Fault Refusal :=
  .next (s.gated ag .bicSrc q.toNat fun s => s.writeBicSrc q n.toNat (s.creg .bicSrc q.toNat n.toNat ||| 0x20000#32))

/-! ### Cache ranges (R226, R227) -/

/-- Act on lines one after the other, at most `n` of them; `act` gets the physical line and its address in the range.
The number done comes back, or the address that is not mapped. -/
def State.rangeLines (s : State) (b : BCore) (act : State → Nat → Nat → State) : Nat → List Nat → Except Nat Nat × State
  | done, [] => (.ok done, s)
  | done, l :: r =>
    let p := s.belfryPhys b (64 * l) .read
    match p.1 with
    | none => (.error (64 * l), p.2)
    | some x => (act p.2 (x / 64) l).rangeLines b act (done + 1) r

/-- A cache range instruction of a Belfry core: `n` lines in this step; with lines left, `PROGRESS` records them and the
instruction goes on from there, else the core goes on (R112, R226). -/
def State.belfryRange (s : State) (b : BCore) (a g n : Nat) (act : Nat → Nat → State → Nat → Nat → State) : State :=
  let k := s.bel b
  let lo := (k.gr a).toNat
  let len := (k.gr g).toNat
  let first := lo / 64
  let total := if len = 0 then 0 else (lo + len - 1) / 64 + 1 - first
  let start := if bit k.progress 31 ∧ fld k.progress 26 24 = 6 then fld k.progress 15 0 else 0
  let lines := ((List.range total).drop start).map (first + ·)
  let r := s.rangeLines b (act lo (lo + len)) start (lines.take n)
  match r.1 with
  | .error at_ => r.2.belfryEnter b 0x11 (BitVec.ofNat 64 at_) 0
  | .ok done =>
    r.2.modBel b fun k =>
      if total ≤ done then { k with pc := k.pc + 4, progress := k.progress &&& 0x7FFFFFFF } else { k with progress := progressWord done 6 }

/-- `clean.range` writes dirty bytes back and leaves the lines valid (R226); on a compute core it is illegal. -/
def execCleanRange (who : By) (a b : Reg) (lines : Nat) (s : State) : Host.Outcome State Fault Refusal :=
  match who with
  | .compute i => issue i {} s fun _ _ => .exc 0x01 0 .scalar
  | .belfry bc =>
    s.belfryIssue bc fun s => s.belfryRange bc a.toNat b.toNat lines fun _ _ s x _ => s.cleanLine (belQuad bc) x

/-- `inval.range` removes lines, writing back the dirty bytes of the edge lines that lie outside the range (R226); on a
compute core it is illegal. -/
def execInvalRange (who : By) (a b : Reg) (lines : Nat) (s : State) : Host.Outcome State Fault Refusal :=
  match who with
  | .compute i => issue i {} s fun _ _ => .exc 0x01 0 .scalar
  | .belfry bc =>
    s.belfryIssue bc fun s => s.belfryRange bc a.toNat b.toNat lines fun lo hi s x l =>
      s.evictLine (belQuad bc) x fun o => decide (64 * l + o < lo) || decide (hi ≤ 64 * l + o)

end Sys2Proof.Machine
end

