-- ==== Sys2Proof/Machine/SmeshOps.lean ====
section
/-! DEFINITION. The scheduled mesh: entries, links, the reduce unit, port channels and the core port (R230 to R261). -/

namespace Sys2Proof.Machine

open Sys2Proof

/-! ### Entries (R236 to R240) -/

/-- Fields of a schedule entry. -/
def eDur (w : DWord) : Nat := fld w 15 0
/-- The reduction operation; the reserved codes act as none. -/
def eRed (w : DWord) : Nat := if fld w 40 37 ≤ 10 then fld w 40 37 else 0
/-- The first operand of the reduce unit. -/
def eRa (w : DWord) : Nat := fld w 43 41
/-- The second operand. -/
def eRb (w : DWord) : Nat := fld w 46 44
/-- The express input of source code 0b110. -/
def eEin (w : DWord) : SDir := match fld w 48 47 with | 0 => .xw | 1 => .xe | 2 => .xn | _ => .xs
/-- The void policy. -/
def eVpol (w : DWord) : Nat := fld w 52 51
/-- Whether the core port reduces. -/
def eCred (w : DWord) : Bool := bit w 53
/-- The channel of source code 0b101. -/
def ePin (w : DWord) : Nat := fld w 56 54
/-- The channel that the core port writes. -/
def ePout (w : DWord) : Nat := fld w 59 57
/-- Whether the entry is the schedule's last. -/
def eLast (w : DWord) : Bool := bit w 60
/-- Whether the entry signals. -/
def eSig (w : DWord) : Bool := bit w 61

/-- Whether a 64-bit entry holds an even number of ones. -/
def evenOnes (w : DWord) : Bool := decide (((List.range 64).filter fun k => bit w k).length % 2 = 0)

/-- The outputs of a router. -/
inductive SOut where
  | n | e | s | w | core | xx | xy
  deriving DecidableEq, Repr

/-- Every output. -/
def allOuts : List SOut := [.n, .e, .s, .w, .core, .xx, .xy]

/-- The source code that an entry gives an output (R236). -/
def eSrc (w : DWord) : SOut → Nat
  | .n => fld w 18 16
  | .e => fld w 21 19
  | .s => fld w 24 22
  | .w => fld w 27 25
  | .core => fld w 30 28
  | .xx => fld w 33 31
  | .xy => fld w 36 34

/-- The entry at an index of a bank. -/
def SBank.entry (b : SBank) (k : Nat) : DWord := Store.get 0 b.entries k

/-- Whether the forwarding-path reduce unit is used: some output selects its result. -/
def eReduces (w : DWord) : Bool := allOuts.any fun o => eSrc w o = 7

/-- Whether it drives void (R240). -/
def eRedVoid (w : DWord) : Bool :=
  decide (eRed w = 0) || decide (eRa w = 0) || decide (eRa w = 7) || decide (eRb w = 0) || decide (eRb w = 7) || eCred w

/-- Whether the entry reads a CORE flit. -/
def eUsesCore (w : DWord) : Bool :=
  (allOuts.any fun o => eSrc w o = 5) || (eReduces w && ! eRedVoid w && (decide (eRa w = 5) || decide (eRb w = 5)))

/-- Whether every output of an entry is idle. -/
def eIdle (w : DWord) : Bool := allOuts.all fun o => eSrc w o = 0

/-! ### Links (R230, R231, R234) -/

/-- The number of an input in a link's key. -/
def dirNum : SDir → Nat
  | .n => 0 | .e => 1 | .s => 2 | .w => 3 | .xe => 4 | .xw => 5 | .xn => 6 | .xs => 7

/-- Every input. -/
def allDirs : List SDir := [.n, .e, .s, .w, .xe, .xw, .xn, .xs]

/-- The key of a link: the router that samples it and its input there. -/
def linkKey (c : CoreId) (d : SDir) : Nat := 8 * c.toNat + dirNum d

/-- The router at an input's far end; none for a link that does not exist (R231). -/
def inputFrom (c : CoreId) (d : SDir) : Option CoreId :=
  let r := meshRow c
  let k := meshCol c
  let north (n : Nat) := if n ≤ r then some (routerAt (r - n) k) else none
  let south (n : Nat) := if r + n < 32 then some (routerAt (r + n) k) else none
  match d with
  | .n => north 1
  | .s => south 1
  | .w => if 1 ≤ k then some (routerAt r (k - 1)) else none
  | .e => if k + 1 < 64 then some (routerAt r (k + 1)) else none
  | .xw => if 4 ≤ k then some (routerAt r (k - 4)) else none
  | .xe => if k + 4 < 64 then some (routerAt r (k + 4)) else none
  | .xn => if 16 ≤ r ∧ r < 20 then none else north 4
  | .xs => if 12 ≤ r ∧ r < 16 then none else south 4

/-- Whether an input is an express link. -/
def isExpress : SDir → Bool
  | .xe | .xw | .xn | .xs => true
  | _ => false

/-- The latency of the link between two routers in router cycles (R230). -/
def linkLat (a b : CoreId) (express : Bool) : Nat :=
  if quadOf (spireOf a) ≠ quadOf (spireOf b) then 4 else if express then 2 else 1

/-- The input of the far router that an output drives under an entry. -/
def outInput (w : DWord) : SOut → Option SDir
  | .n => some .s
  | .s => some .n
  | .e => some .w
  | .w => some .e
  | .core => none
  | .xx => some (if bit w 49 then .xe else .xw)
  | .xy => some (if bit w 50 then .xs else .xn)

/-- The input of this router that lies opposite: the same side as the output. -/
def outSide (w : DWord) : SOut → Option SDir
  | .n => some .n
  | .s => some .s
  | .e => some .e
  | .w => some .w
  | .core => none
  | .xx => some (if bit w 49 then .xw else .xe)
  | .xy => some (if bit w 50 then .xn else .xs)

/-- What an express link carries of a flit (R234). -/
def Flit.narrow (f : Flit) : Flit :=
  if f.void then f else { f with data := (f.data.setWidth 128).setWidth 512, poison := (f.poison.setWidth 2).setWidth 8 }

/-- Whether the quadrant's fabric runs and its routers have started a tick. -/
def State.fabricRuns (s : State) (q : Quad) : Bool := s.domCarries (68 + q.toNat) && (s.quad q).edged

/-- A flit that a router drives in its cycle `t`: it is sampled at the far end a latency later (R232). -/
def State.drive (s : State) (c : CoreId) (w : DWord) (o : SOut) (t : Nat) (f : Flit) : State :=
  match outSide w o, outInput w o with
  | some side, some inp =>
    match inputFrom c side with
    | some d =>
      if s.fabricRuns (quadOf (spireOf d)) then
        let k := linkKey d inp
        let f := if (isExpress inp) then f.narrow else f
        { s with links := Store.set [] s.links k (Store.get [] s.links k ++ [(t + linkLat c d (isExpress inp), f)]) }
      else s
    | none => s
  | _, _ => s

/-- Whether an output selects a link that does not exist. -/
def noLink (c : CoreId) (w : DWord) (o : SOut) : Bool :=
  match outSide w o with
  | some side => (inputFrom c side).isNone
  | none => false

/-- The flit on a link for the router's cycle `t`. -/
def State.onLink (s : State) (c : CoreId) (d : SDir) (t : Nat) : Option Flit :=
  ((Store.get [] s.links (linkKey c d)).find? fun x => decide (x.1 = t)).map (·.2)

/-- Take every flit due by cycle `t` from a router's links. -/
def State.clearLinks (s : State) (c : CoreId) (t : Nat) : State :=
  allDirs.foldl (fun s d =>
    let k := linkKey c d
    { s with links := Store.set [] s.links k ((Store.get [] s.links k).filter fun x => decide (t < x.1)) }) s

/-- The cycles before `t` in which a flit arrived that nothing sampled. -/
def State.missed (s : State) (c : CoreId) (t : Nat) : List Nat :=
  (allDirs.foldl (fun l d => l ++ ((Store.get [] s.links (linkKey c d)).filter fun x => decide (x.1 < t)).map (·.1)) []).eraseDups

/-- A flit as it is sampled with wrong parity: void for its framing, one word poisoned otherwise (R235). -/
def Flit.flawed (f : Flit) : FlitError → Flit
  | .framing => Flit.none
  | .word k => if f.void then f else { f with poison := f.poison ||| (1#8 <<< k.toNat) }

/-! ### The reduce unit (R238, R243) -/

/-- The lane type and the vector operation that has the same arithmetic. -/
def redOp : Nat → BitVec 3 × VOp
  | 1 => (1, .add)
  | 2 => (7, .add)
  | 3 => (0, .add)
  | 4 => (4, .add)
  | 5 => (1, .max)
  | 6 => (1, .min)
  | 7 => (0, .max)
  | 8 => (0, .min)
  | 9 => (4, .max)
  | _ => (4, .min)

/-- The unit latency. -/
def redLat (op : Nat) : Nat := if op = 2 then 2 else 1

/-- A ⊕ B on two DATA flits: its elements and what they raised. -/
def combineData (op : Nat) (a b : BitVec 512) : BitVec 512 × ConvSum :=
  let r := redOp op
  let outs := (List.zip (lanesOf r.1 a) (lanesOf r.1 b)).map fun p => lane r.2 r.1 0 p.1 p.2 0
  (ofLanes r.1 (outs.map (·.bits)), sumOuts 0 outs ConvSum.zero)

/-- A ⊕ B: a void operand is the identity, a poisoned word poisons the result's (R243). -/
def combine (op : Nat) (a b : Flit) : Flit × ConvSum :=
  if a.void then (b, ConvSum.zero)
  else if b.void then (a, ConvSum.zero)
  else
    let r := combineData op a.data b.data
    ({ void := false, data := r.1, poison := a.poison ||| b.poison }, r.2)

/-- Count a reduction's elements and log a generated NaN in SERVICE mode (R155, R156). -/
def State.countReduce (s : State) (c : CoreId) (x : ConvSum) : State :=
  let s := s.countNum c 5 x.sat x.ftz x.nan
  if x.gen.isSome ∧ (s.core c).service then s.reportCore c 0x11 1 0 (s.core c).tenant else s

/-! ### Port channels (R244 to R247) -/

/-- The bytes of a flit with their poison. -/
def Flit.bytes (f : Flit) : List (Byte × Bool) :=
  (leBytes 64 f.data.toNat).zipIdx.map fun p => (p.1, f.poison.getLsbD (p.2 / 8))

/-- A DATA flit of bytes with their poison, zero beyond them. -/
def Flit.ofBytes (bs : List (Byte × Bool)) : Flit :=
  { void := false, data := BitVec.ofNat 512 (leNat (bs.map (·.1))),
    poison := BitVec.ofNat 8 ((List.range 8).foldl (fun n k =>
      n + b2n (((bs.drop (8 * k)).take 8).any (·.2)) * 2 ^ k) 0) }

/-- Where a channel's flit lies. -/
inductive PLoc where
  | inLocal (addr : Nat)
  | target (code off : Nat)
  deriving DecidableEq, Repr

/-- The number of bytes of a tile or an accumulator (R160); codes above 23 name none. [DEDUCED, log 50] -/
def codeSize (code : Nat) : Nat := if code < 16 then 2048 else if code < 24 then 4096 else 0

/-- The TARGET field. -/
def chanTarget (w : BitVec 128) : Nat := fld w 27 23

/-- Flit `n` of a channel; none beyond the end of the target or of Local (R245). -/
def chanLoc (w : BitVec 128) (n : Nat) : Option PLoc :=
  let b := chanBytes w
  let count := if fld w 63 48 = 0 then 65536 else fld w 63 48
  let m := n % count
  match chanSpace w with
  | 1 =>
    let a := fld w 19 0 + m * fld w 47 32
    if 0xC0000 < a + b then none else some (.inLocal a)
  | 2 => if codeSize (chanTarget w) < b * m + b then none else some (.target (chanTarget w) (b * m))
  | _ => none

/-- The bank that an access uses: 64 stands for Local (R160, R246). -/
def PLoc.bank : PLoc → Nat
  | .inLocal _ => 64
  | .target code off => if code < 16 then code else 2 * code - 16 + off / 128 % 2

/-- The owner of a channel: of its tile or accumulator, or a Local channel's THREAD (R251, R260). -/
def State.chanOwner (s : State) (c : CoreId) (w : BitVec 128) : Option (BitVec 2) :=
  match chanSpace w with
  | 1 => some (BitVec.ofNat 2 (fld w 29 28))
  | 2 => if chanTarget w < 24 then ((s.core c).tile.target (chanTarget w)).owner else none
  | _ => none

/-- The bytes at a location with their poison; an empty target reads as zero (R249). -/
def State.readLoc (s : State) (c : CoreId) (n : Nat) : PLoc → Flit
  | .inLocal a => Flit.ofBytes (readRuns (s.core c).mem [(a, n)])
  | .target code off => Flit.ofBytes (readRuns ((s.core c).tile.target code).view [(off, n)])

/-- Write the first `n` bytes of a flit at a location: the target is not empty then and its checksums are invalid
(R245, R248). -/
def State.writeLoc (s : State) (c : CoreId) (n : Nat) (f : Flit) (l : PLoc) : State :=
  let bs := f.bytes.take n
  let bad (a : Nat) := (bs.zipIdx.filter fun b => b.1.2).map fun b => a + b.2
  match l with
  | .inLocal a =>
    s.modCore c fun k => { k with mem := storeRuns k.mem [(a, bs.map (·.1))] (bad a) }
  | .target code off =>
    s.modCore c fun k =>
      let t := k.tile.target code
      let x : TileSt :=
        { t with empty := false, data := storeRuns t.data [(off, bs.map (·.1))] (bad off), chk := t.chk.invalidate }
      { k with tile := k.tile.setTarget code x }

/-- A void flit written to a tile or an accumulator marks it empty. -/
def State.emptyLoc (s : State) (c : CoreId) : PLoc → State
  | .inLocal _ => s
  | .target code _ =>
    s.modCore c fun k =>
      let x : TileSt := { k.tile.target code with empty := true }
      { k with tile := k.tile.setTarget code x }

/-- The router's record. -/
def State.router (s : State) (c : CoreId) : Router := (s.core c).router

/-- Change the router's record. -/
def State.modRouter (s : State) (c : CoreId) (f : Router → Router) : State :=
  s.modCore c fun k => { k with router := f k.router }

/-- The bank that a router does not run. -/
def Router.setBank (r : Router) (one : Bool) (b : SBank) : Router :=
  if one then { r with bank1 := b } else { r with bank0 := b }

/-- A bank by number. -/
def Router.bankAt (r : Router) (one : Bool) : SBank := if one then r.bank1 else r.bank0

/-- The pointer of a channel. -/
def Router.ptr (r : Router) (k : Nat) : Nat := Store.get 0 r.ptrs k

/-- The channel's pointer advances. [DEDUCED, log 50] -/
def Router.advance (r : Router) (k : Nat) : Router := { r with ptrs := Store.set 0 r.ptrs k (r.ptr k + 1) }

/-- Whether an unfilled capacity slot makes flit `n` of a channel void: the lowest expert routed to it governs (R341). -/
def State.unfilled (s : State) (c : CoreId) (k n : Nat) : Bool :=
  let rt := (s.core c).route
  let w := (s.router c).chan k
  let m := n % (if fld w 63 48 = 0 then 65536 else fld w 63 48)
  if ! bit rt.ctl 0 ∨ chanSpace w ≠ 1 then false
  else
    match (List.range 64).find? fun e =>
        let g : Word := Store.get 0 rt.cfg e
        bit g 15 && decide (fld g 14 12 = k) && decide (fld g 31 16 ≤ m) &&
          decide (m < fld g 31 16 + fld g 7 0 * (fld g 11 8 + 1)) with
    | none => false
    | some e =>
      let g : Word := Store.get 0 rt.cfg e
      decide (m - fld g 31 16 < (fld g 7 0 - fld (s.creg .rteFill c.toNat e) 7 0) * (fld g 11 8 + 1))

/-- Count an R240 case or an R246 conflict of a cycle. [DEDUCED, log 50] -/
def State.conflict (s : State) (c : CoreId) (b : Bool) : State := if b then s.bump .smrConflict c.toNat 0 1 else s

/-- The flit of a CORE slot, read one cycle before it; `busy` are the banks that this cycle's deliveries use (R246,
R247, R260, R293). [DEDUCED, log 50] -/
def State.coreRead (s : State) (c : CoreId) (k : Nat) (busy : List Nat) : Flit × State :=
  let r := s.router c
  let n := r.ptr k
  let s := s.modRouter c fun r => r.advance k
  let w := r.chan k
  if ! s.domCarries (spireOf c).toNat then (Flit.none, s.conflict c true)
  else
    match s.chanOwner c w with
    | none => (Flit.none, s)
    | some th =>
      let shut := (bit w 30 && ! r.pready.getLsbD k) ||
        ((s.thread { core := c, thread := th }).overran && ! r.freed.getLsbD k)
      if (chanSpace w = 2 ∧ ((s.core c).tile.target (chanTarget w)).empty) ∨ shut then (Flit.none, s)
      else
        match s.boundStream c k with
        | some e =>
          let q := s.takeSched e (chanBytes w)
          match q.1 with
          | some bs => (Flit.ofBytes bs, q.2)
          | none => (Flit.none, q.2)
        | none =>
          match chanLoc w n with
          | none => (Flit.none, s.conflict c true)
          | some l =>
            if s.unfilled c k n then (Flit.none, s)
            else if busy.contains l.bank then (Flit.none, s.conflict c true) else (s.readLoc c (chanBytes w) l, s)

/-! ### Running a schedule (R241, R257, R259) -/

/-- The signals of ended entries but those that still wait for a result of the reduce unit. -/
def Router.sigsKept (r : Router) : List (Nat × BitVec 16) :=
  r.sigs.filter fun g => ! r.reduced.any fun x => decide (x.run = g.1) && decide (eSrc x.entry .core = 7)

/-- Start an entry: its parity is read; an error silences the router for the rest of the tick, the results of its reduce
unit among what it does not drive (R259); DUR = 0 ends the schedule (R236). [DEDUCED, log 52] -/
def State.startEntry (s : State) (c : CoreId) (k : Nat) : State :=
  let r := s.router c
  let w := r.bank.entry k
  if eDur w = 0 then
    (s.modRouter c fun r => { r with live := false, left := 0 }).traceDone c k
  else if ! evenOnes w then
    let s := s.modRouter c fun r => { r with live := false, left := 0, perr := true, reduced := [], sigs := r.sigsKept }
    let s := s.reportCore c 0x05 1 (BitVec.ofNat 64 k) (s.core c).tenant
    { s with ct := { s.ct with parity := insNat s.ct.parity (spireOf c).toNat } }
  else s.modRouter c fun r => { r with live := true, index := k, left := eDur w, run := r.run + 1 }

/-- The entry that runs in the router's next cycle. -/
def Router.upcoming (r : Router) : Option DWord :=
  let w := r.bank.entry r.index
  if ! r.live then none
  else if 0 < r.left then some w
  else if eLast w ∨ 4095 ≤ r.index then none
  else
    let x := r.bank.entry (r.index + 1)
    if eDur x = 0 ∨ ! evenOnes x then none else some x

/-- Read the CORE flit of the next cycle. [DEDUCED, log 50] -/
def State.prefetch (s : State) (c : CoreId) (busy : List Nat) : State :=
  match (s.router c).upcoming with
  | some w =>
    if eUsesCore w then
      let q := s.coreRead c (ePin w) busy
      q.2.modRouter c fun r => { r with core := some q.1 }
    else s.modRouter c fun r => { r with core := none }
  | none => s.modRouter c fun r => { r with core := none }

/-- Signals of ended entries whose deliveries are all written leave for their counters (R250). -/
def State.sendSigs (s : State) (c : CoreId) : State :=
  let r := s.router c
  let waiting (run : Nat) := (r.deliveries.any fun d => decide (d.run = run)) ||
    (r.reduced.any fun x => decide (x.run = run) && decide (eSrc x.entry .core = 7))
  let out := r.sigs.filter fun g => ! waiting g.1
  let s := s.modRouter c fun r => { r with sigs := r.sigs.filter fun g => waiting g.1 }
  out.foldl (fun s g => s.send c (cupolaRouter (ctrSpire g.2)) false false (s.core c).tenant (.signal .agent g.2 1 false)) s

/-- A router at an edge: everything held is discarded, the banks exchange where decided, pointers and readiness clear,
entry 0 starts (R257); its CORE flit is read once the threads have passed the edge. -/
def State.routerEdge (s : State) (c : CoreId) : State :=
  let s := s.modRouter c fun r =>
    let r := if r.swap then { r with active := ! r.active } else r
    { r with live := false, index := 0, left := 0, cycle := 0, run := 0, ptrs := [], pready := 0, freed := 0, raised := 0,
             underSet := false, core := none, reduced := [], deliveries := [], sigs := [], swap := false }
  s.startEntry c 0

/-! ### One cycle of a router (R232, R240, R242) -/

/-- A delivery at the core port in cycle `t`: with CRED the target is read and combined now; in an odd cycle of its entry
a flit for a CRED delivery into Local, or of pairs, is discarded (R238, R242, R246, R249). [DEDUCED, log 50] -/
def State.deliverFlit (s : State) (c : CoreId) (t : Nat) (run index : Nat) (w : DWord) (f : Flit) (first : Nat) :
    List Nat × State :=
  let k := ePout w
  let r := s.router c
  let n := r.ptr k
  let chan := r.chan k
  let s := s.modRouter c fun r => r.advance k
  let put (s : State) (due : Nat) (cred : Bool) (f : Flit) : State :=
    s.modRouter c fun r =>
      { r with deliveries := r.deliveries ++
          [{ run := run, index := index, entry := w, chan := k, n := n, due := due, cred := cred, flit := f }] }
  if ! s.domCarries (spireOf c).toNat then ([], s.conflict c true)
  else
    let loc := chanLoc chan n
    let cred := eCred w && decide (eRed w ≠ 0)
    if (s.boundStream c k).isSome then
      if eCred w then ([], s.conflict c true) else ([], put s t false f)
    else
      match loc with
      | none => ([], (put s t false f).conflict c (decide (chanSpace chan = 1) || decide (chanSpace chan = 2)))
      | some l =>
        let odd := decide ((t - first) % 2 ≠ 0)
        if cred ∧ l.bank = 64 ∧ odd then ([], s.conflict c true)
        else if cred ∧ eRed w = 2 ∧ odd then ([], s)
        else if cred ∧ ! f.void then
          let x := combine (eRed w) (s.readLoc c (chanBytes chan) l) f
          ([l.bank], (put (s.countReduce c x.2) (t + 1 + redLat (eRed w)) true x.1))
        else ([l.bank], put s t false f)

/-- The outputs that select the reduce unit. [DEDUCED, log 50] -/
def redOuts (w : DWord) : List SOut := allOuts.filter fun o => eSrc w o = 7

/-- Drive an output: onto its link, or into the core port. -/
def State.driveOut (s : State) (c : CoreId) (t run index first : Nat) (w : DWord) (f : Flit) (o : SOut) : State :=
  if o = .core then (s.deliverFlit c t run index w f first).2 else s.drive c w o t f

/-- The flit of a source code in a cycle: void where none arrives. -/
def sourceFlit (w : DWord) (arr : SDir → Option Flit) (core : Option Flit) : Nat → Flit
  | 1 => (arr .n).getD Flit.none
  | 2 => (arr .e).getD Flit.none
  | 3 => (arr .s).getD Flit.none
  | 4 => (arr .w).getD Flit.none
  | 5 => core.getD Flit.none
  | 6 => ((arr (eEin w)).getD Flit.none).narrow
  | _ => Flit.none

/-- The input that a source code selects. -/
def sourceDir (w : DWord) : Nat → Option SDir
  | 1 => some .n
  | 2 => some .e
  | 3 => some .s
  | 4 => some .w
  | 6 => some (eEin w)
  | _ => none

/-- The source codes that an entry uses in a cycle. -/
def usedCodes (w : DWord) : List Nat :=
  allOuts.map (eSrc w) ++ (if eReduces w ∧ ! eRedVoid w then [eRa w, eRb w] else [])

/-- Whether every cycle of an entry meets a case of R240, whatever arrives. -/
def entryAlways (c : CoreId) (w : DWord) : Bool :=
  (allOuts.any fun o => decide (eSrc w o ≠ 0) && noLink c w o) ||
  (eReduces w && eRedVoid w) || (eCred w && (decide (eRed w = 0) || decide (eRa w ≠ 0) || decide (eRb w ≠ 0))) ||
  decide (eRa w = 6) || decide (eRb w = 6)

/-- Whether a cycle of an entry meets a case of R240; `odd` says that the cycle is an odd one of the entry, in which the
reduce unit samples no pairs (R242). [DEDUCED, log 50] -/
def entryConflict (c : CoreId) (w : DWord) (odd : Bool) (arr : SDir → Option Flit) : Bool :=
  let used := (usedCodes w).filterMap (sourceDir w)
  let sampled := if odd ∧ eRed w = 2 then (allOuts.map (eSrc w)).filterMap (sourceDir w) else used
  entryAlways c w || (sampled.any fun d => (arr d).isNone) || (allDirs.any fun d => (arr d).isSome && ! used.contains d)

/-- Whether a router may run its next cycle: its fabric runs, its entry is set, what is due at its core port has been
written, and every router that drives into it has passed the cycle that its links bring. -/
def State.cycleReady (s : State) (c : CoreId) : Bool :=
  let r := s.router c
  s.fabricRuns (quadOf (spireOf c)) && (! r.live || decide (0 < r.left)) &&
  (r.deliveries.all fun d => decide (r.cycle ≤ d.due)) &&
  (allDirs.all fun d =>
    match inputFrom c d with
    | none => true
    | some u =>
      let x := s.router u
      ! s.fabricRuns (quadOf (spireOf u)) || (! x.live && x.reduced.isEmpty) ||
        decide (r.cycle < x.cycle + linkLat u c (isExpress d)))

/-- The entry's part of a cycle: the reduce unit accepts its operands and every output that no reduce result takes is
driven. -/
def State.entryCycle (s : State) (c : CoreId) (t first : Nat) (taken : List SOut) (arr : SDir → Option Flit) : State :=
  let r := s.router c
  let w := r.bank.entry r.index
  let src := sourceFlit w arr r.core
  let accepts := eReduces w && ! eRedVoid w && (decide (eRed w ≠ 2) || decide ((t - first) % 2 = 0))
  let s := if accepts then
      let x := combine (eRed w) (src (eRa w)) (src (eRb w))
      (s.countReduce c x.2).modRouter c fun r =>
        { r with reduced := r.reduced ++
            [{ due := t + redLat (eRed w), run := r.run, index := r.index, entry := w, flit := x.1 }] }
    else s
  let s := s.conflict c (entryConflict c w (decide ((t - first) % 2 ≠ 0)) arr)
  (allOuts.filter fun o => ! taken.contains o).foldl (fun s o =>
    let k := eSrc w o
    if k = 0 ∨ (k = 7 ∧ ! eRedVoid w) then s
    else s.driveOut c t r.run r.index first w (if k = 7 then Flit.none else src k) o) s

/-- One cycle of a router (R241, R242): inputs are sampled, reduce results due leave, the entry drives the others, and
the CORE flit of the next cycle is read. `ins` are the sampled flits with wrong parity. -/
def State.routerCycle (s : State) (c : CoreId) (ins : List Sampled) : State :=
  let r := s.router c
  let t := r.cycle
  let hits := ins.filter fun x => (s.onLink c x.dir t).isSome
  let arr (d : SDir) : Option Flit :=
    (s.onLink c d t).map fun f => (hits.filter fun x => decide (x.dir = d)).foldl (fun f x => f.flawed x.err) f
  let flits := (hits.map (·.dir)).eraseDups
  let s := (s.bump .smrPerrcnt c.toNat 0 flits.length).bump .smrConflict c.toNat 0 (s.missed c t).length
  let count := s.creg .smrConflict c.toNat 0
  let s := flits.foldl (fun s d =>
    s.reportPoison c 0x04 0 (s.core c).tenant (((arr d).map fun f => decide (f.poison ≠ 0)).getD false)) s
  let s := s.clearLinks c t
  let w := r.bank.entry r.index
  let first := t - (eDur w - r.left)
  let due := r.reduced.filter fun x => decide (x.due = t)
  let s := s.modRouter c fun r => { r with reduced := r.reduced.filter fun x => decide (x.due ≠ t) }
  let step := due.foldl (fun (p : List SOut × State) x =>
    (redOuts x.entry).foldl (fun p o =>
      if p.1.contains o then p
      else (o :: p.1, p.2.driveOut c t x.run x.index t x.entry x.flit o)) p) ([], s)
  let s := if r.live then step.2.entryCycle c t first step.1 arr
    else step.2.conflict c (allDirs.any fun d => (arr d).isSome)
  let busy := ((s.router c).deliveries.filter fun d => decide (d.due = t)).filterMap fun d =>
    (chanLoc ((s.router c).chan d.chan) d.n).map (·.bank)
  let reads := ((s.router c).deliveries.filter fun d => d.cred && decide (d.due = t + 1 + redLat (eRed d.entry))).filterMap
    fun d => (chanLoc ((s.router c).chan d.chan) d.n).map (·.bank)
  let s := s.modRouter c fun r => { r with cycle := t + 1, left := r.left - 1 }
  let s := s.prefetch c (busy ++ reads)
  let s := if s.creg .smrConflict c.toNat 0 = count then s else s.setCreg .smrConflict c.toNat 0 (satAdd count 1)
  s.sendSigs c

/-! ### The core port (R248 to R251) -/

/-- A void flit in a MANDATORY slot (R251): counted; the first of a channel in a tick raises `SLOT_UNDERRUN` in the
owner, and the first of the tick is recorded. [DEDUCED, log 48] -/
def State.underrun (s : State) (c : CoreId) (d : Delivery) (owner : Option (BitVec 2)) : State :=
  let s := s.bump .smrUnderrun c.toNat 0 1
  let r := s.router c
  if r.raised.getLsbD d.chan then s
  else
    let s := if r.underSet then s
      else s.setCreg .smrUnderinfo c.toNat 0
        (BitVec.ofNat 32 (d.index + d.chan * 2 ^ 12 + d.n % 2 ^ 16 * 2 ^ 16))
    let s := s.modRouter c fun r => { r with raised := r.raised ||| (1#8 <<< d.chan), underSet := true }
    match owner with
    | none => s
    | some th =>
      let t : Tid := { core := c, thread := th }
      if (s.thread t).status = .lockedUp then s
      else s.modThread t fun x => x.modLtn fun l => { l with slotUnder := true }

/-- Write one delivered flit (R239, R248, R249, R293). [DEDUCED, log 52] -/
def State.writeDelivery (s : State) (c : CoreId) (d : Delivery) : State :=
  let chan := (s.router c).chan d.chan
  let owner := s.chanOwner c chan
  let s := s.bump (if d.flit.void then .smrVoids else .smrFlits) c.toNat 0 1
  let s := if d.flit.void ∧ eVpol d.entry = 1 then s.underrun c d owner else s
  if ! s.domCarries (spireOf c).toNat then s
  else
    match s.boundStream c d.chan with
    | some e =>
      if dInbound (s.stream e).desc then
        let bs := d.flit.bytes.take (chanBytes chan)
        s.putSched e (if d.flit.void then bs.map fun _ => none else bs.map some)
      else s
    | none =>
      match chanLoc chan d.n with
      | none => s
      | some l =>
        match owner with
        | none => s.reportCore c 0x07 1 (BitVec.ofNat 64 (chanTarget chan)) (s.core c).tenant
        | some _ =>
          if d.flit.void then
            if eCred d.entry ∧ eRed d.entry ≠ 0 then s
            else if eVpol d.entry = 2 then s.writeLoc c (chanBytes chan) { Flit.none with void := false } l
            else s.emptyLoc c l
          else s.writeLoc c (chanBytes chan) d.flit l

/-- The oldest delivery that is due: written at the end of its cycle. -/
def Router.nextDelivery (r : Router) : Option (Delivery × List Delivery) :=
  let ready := r.deliveries.filter fun d => decide (d.due < r.cycle)
  match ready with
  | [] => none
  | d :: _ => some (d, r.deliveries.erase d)

end Sys2Proof.Machine
end

