-- ==== Sys2Proof/Machine/Smesh.lean ====
section
/-! DEFINITION. The commands of the scheduled mesh (R230 to R269). -/

namespace Sys2Proof.Machine

open Sys2Proof

/-! ### Routers -/

/-- SMESH_FLIT_ARRIVAL (R232): one router cycle. [DESIGN CHOICE, log 29] -/
def execSmeshFlitArrival (core : CoreId) (ins : List Sampled) (s : State) : Host.Outcome State Fault Refusal :=
  .next (if s.cycleReady core then s.routerCycle core ins else s)

/-- The cycles that are left of an entry whose outputs are all idle pass at once: nothing is driven, and what arrives is
discarded. -/
def State.skipIdle (s : State) (c : CoreId) : State :=
  let r := s.router c
  let t := r.cycle + r.left
  let lost := if entryAlways c (r.bank.entry r.index) then r.left else (s.missed c t).length
  let s := (s.clearLinks c (t - 1)).bump .smrConflict c.toNat 0 lost
  (s.modRouter c fun r => { r with cycle := t, left := 0 }).prefetch c []

/-- The entry of a router ends: its signal is owed, and the next entry starts or the router is DONE (R241, R250). -/
def State.endEntry (s : State) (c : CoreId) : State :=
  let r := s.router c
  let w := r.bank.entry r.index
  let s := if eSig w then
      s.modRouter c fun r => { r with sigs := r.sigs ++ [(r.run, (r.chan (ePout w)).extractLsb' 64 16)] }
    else s
  let s := if eLast w ∨ 4095 ≤ r.index then (s.modRouter c fun r => { r with live := false }).traceDone c r.index
    else s.startEntry c (r.index + 1)
  s.sendSigs c

/-- SCHEDULE_ENTRY_EXPIRY (R241): after the entry's last cycle; an entry whose outputs are all idle may expire with its
cycles not gone through one by one, where nothing is left to drive or to write. -/
def execScheduleEntryExpiry (core : CoreId) (s : State) : Host.Outcome State Fault Refusal :=
  let r := s.router core
  .next (
    if ! s.fabricRuns (quadOf (spireOf core)) ∨ ! r.live then s
    else if r.left = 0 then s.endEntry core
    else if eIdle (r.bank.entry r.index) ∧ r.reduced.isEmpty ∧ r.deliveries.isEmpty then (s.skipIdle core).endEntry core
    else s)

/-- CORE_PORT_DELIVERY (R248): the oldest delivery that is due is written. -/
def execCorePortDelivery (core : CoreId) (s : State) : Host.Outcome State Fault Refusal :=
  .next (
    match (s.router core).nextDelivery with
    | none => s
    | some (d, rest) =>
      ((s.modRouter core fun r => { r with deliveries := rest }).writeDelivery core d).sendSigs core)

/-! ### Bank access (R253, R255, R268) -/

/-- The bank that `SMR_TIDX` selects. -/
def State.tidxSel (s : State) (c : CoreId) : Bool := bit (s.creg .smrTidx c.toNat 0) 12

/-- The INDEX field. -/
def State.tidxIndex (s : State) (c : CoreId) : Nat := fld (s.creg .smrTidx c.toNat 0) 11 0

/-- Whether `SMR_TIDX` names a descriptor word. -/
def State.tidxDesc (s : State) (c : CoreId) : Bool := bit (s.creg .smrTidx c.toNat 0) 13

/-- The location that `SMR_TIDX` selects, a descriptor word in the low half. -/
def State.tidxRead (s : State) (c : CoreId) : DWord :=
  let b := (s.router c).bankAt (s.tidxSel c)
  let k := s.tidxIndex c
  if s.tidxDesc c then
    ((Store.get (0 : BitVec 128) b.chans (k / 4 % 8)).extractLsb' (32 * (k % 4)) 32).setWidth 64
  else b.entry k

/-- Whether a write of the selected bank is refused: it is the active bank, or the router swaps at the next edge. -/
def State.bankRefused (s : State) (c : CoreId) : Bool :=
  let r := s.router c
  decide (s.tidxSel c = r.active) || r.swap

/-- A refused write: `WREF` is set and the record names the requester. [DEDUCED, log 53] -/
def State.refuseBank (s : State) (ag : Agent) (c : CoreId) (r : CReg) : State :=
  (s.modRouter c fun r => { r with wref := true }).logAccess ag (BitVec.ofNat 64 (r.addr c.toNat 0))

/-- A write of `SMR_TDHI` commits both halves as an entry and clears READY. [DEDUCED, log 53] -/
def State.writeTdhi (s : State) (ag : Agent) (c : CoreId) (v : Word) : State :=
  let s := s.setCreg .smrTdhi c.toNat 0 v
  if s.tidxDesc c then s
  else if s.bankRefused c then s.refuseBank ag c .smrTdhi
  else
    let w : DWord := v ++ s.creg .smrTdlo c.toNat 0
    let sel := s.tidxSel c
    let k := s.tidxIndex c
    s.modRouter c fun r =>
      let b := r.bankAt sel
      let b : SBank := { b with entries := Store.set 0 b.entries k w }
      { r.setBank sel b with ready := false }

/-- A write of `SMR_TDLO` holds the low half, or commits a descriptor word. -/
def State.writeTdlo (s : State) (ag : Agent) (c : CoreId) (v : Word) : State :=
  let s := s.setCreg .smrTdlo c.toNat 0 v
  if ! s.tidxDesc c then s
  else if s.bankRefused c then s.refuseBank ag c .smrTdlo
  else
    let sel := s.tidxSel c
    let k := s.tidxIndex c
    s.modRouter c fun r =>
      let b := r.bankAt sel
      let old : BitVec 128 := Store.get 0 b.chans (k / 4 % 8)
      let new := setFld old (32 * (k % 4) + 31) (32 * (k % 4)) v.toNat
      r.setBank sel { b with chans := Store.set 0 b.chans (k / 4 % 8) new }

/-- A read of `SMR_TDLO` latches the whole location for its reader. [DEDUCED, log 55] -/
def State.latchTdlo (s : State) (ag : Agent) (c : CoreId) : State :=
  let x := s.tidxRead c
  s.modRouter c fun r => { r with latch := (ag, x) :: r.latch.filter fun p => decide (p.1 ≠ ag) }

/-- The channels of a core that a writer owns as their thread (R260). -/
def State.ownChans (s : State) (ag : Agent) (c : CoreId) : BitVec 8 :=
  match ag with
  | .thread t =>
    BitVec.ofNat 8 ((List.range 8).foldl (fun n k =>
      n + b2n (decide (t.core = c) && decide (s.chanOwner c ((s.router c).chan k) = some t.thread)) * 2 ^ k) 0)
  | _ => 0

/-- A write of `SMR_PREADY` sets bits (R247, R260). -/
def State.writePready (s : State) (ag : Agent) (c : CoreId) (v : Word) : State :=
  let own := s.ownChans ag c
  s.modRouter c fun r => { r with pready := r.pready ||| v.setWidth 8, freed := r.freed ||| (v.setWidth 8 &&& own) }

/-- SMR_TDHI_WRITE. -/
def execSmrTdhiWrite (ag : Agent) (core : CoreId) (v : Word) (s : State) : Host.Outcome State Fault Refusal :=
  .next (s.gated ag .smrTdhi core.toNat fun s => s.writeTdhi ag core v)

/-- SMR_TDLO_WRITE. -/
def execSmrTdloWrite (ag : Agent) (core : CoreId) (v : Word) (s : State) : Host.Outcome State Fault Refusal :=
  .next (s.gated ag .smrTdlo core.toNat fun s => s.writeTdlo ag core v)

/-- SMR_TDLO_READ. -/
def execSmrTdloRead (ag : Agent) (core : CoreId) (s : State) : Host.Outcome State Fault Refusal :=
  .next (if s.blockOpen .smrTdlo core.toNat then s.latchTdlo ag core else s)

/-- SMR_PREADY_SET (R247). -/
def execSmrPreadySet (ag : Agent) (core : CoreId) (v : Word) (s : State) : Host.Outcome State Fault Refusal :=
  .next (s.gated ag .smrPready core.toNat fun s => s.writePready ag core v)

/-! ### The schedule loader (R254, R255) -/

/-- The router of the loader's block `i`. -/
def State.loadRouter (s : State) (q : Quad) (i : Nat) : Nat := fld (s.creg .smlDst q.toNat 0) 10 0 + i

/-- The number of blocks to load. -/
def State.loadNum (s : State) (q : Quad) : Nat := fld (s.creg .smlDst q.toNat 0) 25 16

/-- A block for a router starts: READY clears, unless the block will be refused (R253, R255). [DEDUCED, log 53] -/
def State.startBlock (s : State) (q : Quad) (i : Nat) : State :=
  let n := s.loadRouter q i
  if n < 2048 ∧ quadOf (spireOf (BitVec.ofNat 11 n)) = q then
    s.modRouter (BitVec.ofNat 11 n) fun r => if r.swap then r else { r with ready := false }
  else s

/-- The loader stops with a cause in ERR. -/
def State.endLoad (s : State) (q : Quad) (err : Nat) : State :=
  let s := s.modQuad q fun k => { k with load := none }
  s.setCreg .smlCtl q.toNat 0 (setFld (setFld (s.creg .smlCtl q.toNat 0) 7 4 err) 1 1 0)

/-- A write of `SML_CTL`: GO starts a load where none runs. [DEDUCED, log 53] -/
def State.writeSmlCtl (s : State) (q : Quad) (v : Word) : State :=
  let busy := bit (s.creg .smlCtl q.toNat 0) 1
  let w := setFld (s.creg .smlCtl q.toNat 0) 11 8 (fld v 11 8)
  if ! bit v 0 ∨ busy then s.setCreg .smlCtl q.toNat 0 w
  else
    let a := fld (s.creg .smlSrcHi q.toNat 0) 7 0 * 2 ^ 32 + (s.creg .smlSrcLo q.toNat 0).toNat / 64 * 64
    let w := setFld (setFld w 31 16 0) 7 4 0
    if s.loadNum q = 0 then s.setCreg .smlCtl q.toNat 0 w
    else
      ((s.setCreg .smlCtl q.toNat 0 (setFld w 1 1 1)).modQuad q fun k => { k with load := some (0, a) }).startBlock q 0

/-- Whether the loader may read `n` bytes of Far at `a`. -/
def State.loadReads (s : State) (a n : Nat) : Bool :=
  (cutRuns 4096 a n (n / 4096 + 2)).all (fun r => farPopulated r.1 && s.farCarries r.1 && ! s.farDead r.1) && ! s.far.poisoned a n

/-- The cause for which a block at `a` for router `n` is not written (R254). -/
def State.blockBad (s : State) (q : Quad) (a n : Nat) : Option Nat :=
  if ! s.loadReads a 192 then some 5
  else
    let num := s.far.readNat a 2
    if num = 0 ∨ 4096 < num then some 1
    else if s.far.readNat (a + 2) 2 ≠ n then some 2
    else if 2048 ≤ n ∨ quadOf (spireOf (BitVec.ofNat 11 n)) ≠ q then some 4
    else if ! s.loadReads (a + 192) (8 * num) then some 5
    else if (List.range num).any fun k => ! evenOnes (BitVec.ofNat 64 (s.far.readNat (a + 192 + 8 * k) 8)) then some 3
    else none

/-- A bank with a block's descriptors and entries; entries above the block's keep their contents. -/
def SBank.loaded (b : SBank) (m : Mem) (a : Nat) : SBank :=
  { entries := (List.range (m.readNat a 2)).foldl
      (fun st k => Store.set 0 st k (BitVec.ofNat 64 (m.readNat (a + 192 + 8 * k) 8))) b.entries,
    chans := (List.range 8).foldl
      (fun st k => Store.set 0 st k (BitVec.ofNat 128 (m.readNat (a + 64 + 16 * k) 16))) b.chans }

/-- A block is checked and written, and the next one starts; a router that is about to swap refuses it (R253). -/
def State.loadBlock (s : State) (q : Quad) (i a : Nat) : State :=
  let n := s.loadRouter q i
  match s.blockBad q a n with
  | some e => s.endLoad q e
  | none =>
    let c : CoreId := BitVec.ofNat 11 n
    let size := (192 + 8 * s.far.readNat a 2 + 63) / 64 * 64
    let ctl := s.creg .smlCtl q.toNat 0
    let s := if (s.router c).swap then
        (s.modRouter c fun r => { r with wref := true }).report q
          (s.mkReport 2 (q.setWidth 12) 0x08 0 (BitVec.ofNat 64 (CReg.smrStat.addr n 0)) 0)
      else
        (s.modRouter c fun r =>
          { r.setBank (! r.active) ((r.bankAt (! r.active)).loaded s.far a) with
            ready := true, tenant := ctl.extractLsb' 8 4 }).setCreg .smlCtl q.toNat 0 (setFld ctl 31 16 (fld ctl 31 16 + 1))
    if i + 1 = s.loadNum q then s.endLoad q 0
    else (s.modQuad q fun k => { k with load := some (i + 1, a + size) }).startBlock q (i + 1)

/-- SCHEDULE_LOAD_GO. -/
def execScheduleLoadGo (ag : Agent) (q : Quad) (v : Word) (s : State) : Host.Outcome State Fault Refusal :=
  .next (s.gated ag .smlCtl q.toNat fun s => s.writeSmlCtl q v)

/-- SCHEDULE_BLOCK_LOADED. -/
def execScheduleBlockLoaded (q : Quad) (s : State) : Host.Outcome State Fault Refusal :=
  .next (
    match (s.quad q).load with
    | none => s
    | some (i, a) => if s.domCarries (68 + q.toNat) then s.loadBlock q i a else s)

/-! ### The swap (R256) -/

/-- A write of `SMF_SWAPCTL` in Q0: the registers of the other quadrants are reserved. [DEDUCED, log 53] -/
def State.writeSwapctl (s : State) (v : Word) : State :=
  let w := CReg.smfSwapctl.row.write (s.creg .smfSwapctl 0 0) v &&& ~~~ 0x300#32
  let w := if bit v 8 then w ||| 0x10000#32 else w
  let w := if bit v 9 then w &&& ~~~ 0x10000#32 else w
  s.setCreg .smfSwapctl 0 0 w

/-- SWAP_ARM. -/
def execSwapArm (ag : Agent) (v : Word) (s : State) : Host.Outcome State Fault Refusal :=
  .next (s.gated ag .smfSwapctl 0 fun s => s.writeSwapctl (v ||| 0x100#32))

/-- SWAP_CANCEL. -/
def execSwapCancel (ag : Agent) (v : Word) (s : State) : Host.Outcome State Fault Refusal :=
  .next (s.gated ag .smfSwapctl 0 fun s => s.writeSwapctl (v ||| 0x200#32))

/-- The tick number of the armed swap. -/
def State.swapTick (s : State) : Nat :=
  (s.creg .smfSwapLo 0 0).toNat + fld (s.creg .smfSwapHi 0 0) 15 0 * 2 ^ 32

/-- Do something for every core that is listed. -/
def State.eachCore (s : State) (f : State → CoreId → State) : State :=
  s.cores.foldl (fun s p => f s (BitVec.ofNat 11 p.1)) s

/-- The decision at the notice of the edge that starts tick `n` (R256). [DEDUCED, log 54] -/
def State.decideSwap (s : State) (n : Nat) : State :=
  let ctl := s.creg .smfSwapctl 0 0
  if ! bit ctl 16 ∨ n < s.swapTick then s
  else
    let tenant : BitVec 4 := ctl.setWidth 4
    let busy := [0, 1, 2, 3].any fun q =>
      bit (s.creg .smlCtl q 0) 1 && decide ((s.creg .smlCtl q 0).extractLsb' 8 4 = tenant)
    if busy then s.setCreg .smfSwapctl 0 0 (ctl ||| 0x20000#32)
    else
      let s : State := { s with ct := { s.ct with swap := true } }
      s.eachCore fun s c => s.modRouter c fun r => if r.ready ∧ r.tenant = tenant then { r with swap := true } else r

/-- The edge performs a swap that was decided: the routers exchange their banks by themselves, ARMED clears and DONE is
set. -/
def State.swapEdge (s : State) : State :=
  if s.ct.swap then
    let s := s.setCreg .smfSwapctl 0 0 ((s.creg .smfSwapctl 0 0 &&& ~~~ 0x10000#32) ||| 0x40000#32)
    { s with ct := { s.ct with swap := false } }
  else s

end Sys2Proof.Machine
end

