-- ==== Sys2Proof/Machine/Streams.lean ====
section
/-! DEFINITION. Stream instructions, the steps of a stream, and the Turret (R283 to R297). -/

namespace Sys2Proof.Machine

open Sys2Proof

/-! ### Instructions (R284) -/

/-- `sissue gd, ga` (R284, R288). -/
def execSissue (i : Iss) (d a : Reg) (s : State) : Host.Outcome State Fault Refusal :=
  issue i { g := [a], wg := [d] } s fun t s =>
    let th := s.thread t
    let at_ := th.g a
    let m := (s.core t.core).mem
    match s.localGate t at_.toNat 64 64 true false with
    | .exc c => .exc c at_ .scalar
    | .wait => .stall (s.rtWait t)
    | .go =>
      let desc : BitVec 512 := BitVec.ofNat 512 (m.readNat at_.toNat 64)
      let r := s.validate (some t.core) (spireOf t.core) th.tenant (decide (th.priv = .machine)) desc
      match r.1.cause with
      | some c => .moved (r.2.syncExc t c at_ th.pc .stream)
      | none =>
        match (r.2.core t.core).freeSlot with
        | some n => .done (r.2.startStream t n desc d)
        | none =>
          let g := r.2.newId
          .block g.2 (.sissue d desc g.1)

/-- The status word of a slot: DONE counts a part of a 64-byte unit as one (R284). [DESIGN CHOICE, log 37] -/
def Stream.status (st : Stream) : Word :=
  BitVec.ofNat 32 (st.state.toNat + st.owner.thread.toNat * 2 ^ 2 + st.fault.toNat * 2 ^ 4 +
    min (2 ^ 24 - 1) (units64 st.done) * 2 ^ 8)

/-- `sstat gd, ga` (R284). -/
def execSstat (i : Iss) (d a : Reg) (s : State) : Host.Outcome State Fault Refusal :=
  issue i { g := [a], wg := [d] } s fun t s =>
    let n := fld ((s.thread t).g a) 3 0
    if 11 < n then .exc 0x01 0 .scalar
    else
      let st := Store.get Stream.reset (s.core t.core).slots n
      .done (s.modThread t fun th => th.setG d st.status)

/-- `scancel ga` (R284). -/
def execScancel (i : Iss) (a : Reg) (s : State) : Host.Outcome State Fault Refusal :=
  issue i { g := [a] } s fun t s =>
    let n := fld ((s.thread t).g a) 3 0
    let e : Engine := .core t.core (BitVec.ofNat 4 n)
    if 11 < n ∨ ! (s.stream e).running ∨ (s.stream e).owner ≠ t then .done s
    else .done ((s.faultStream e 5).settleStream e)

/-! ### Steps of a stream -/

/-- After a step of a stream the threads of its core judge what they wait for again. -/
def State.pollEngine (s : State) (e : Engine) : State :=
  match e with
  | .core c _ => s.pollCore c
  | .turret _ _ => s

/-- The data of a part of a row's read arrives (R216, R287, R293): a D-mesh packet of the row's read moves it on, else its
next read is performed or asked for. [DESIGN CHOICE, log 41] -/
def execStreamReadData (e : Engine) (p : RowPart) (s : State) : Host.Outcome State Fault Refusal :=
  .next (
    match s.readPacket e p.row with
    | some s => s.pollEngine e
    | none =>
      let d := (s.stream e).desc
      if dSched d then (if dInbound d then s else (s.readSched e p.row).pollEngine e)
      else (s.readRow e p).pollEngine e)

/-- Sixteen entries of a stream's index list are read (R329, R332). -/
def execGatherListRead (e : Engine) (s : State) : Host.Outcome State Fault Refusal :=
  .next ((s.readList e).pollEngine e)

/-- Words of a row's write are performed at their destination and acknowledged, or a D-mesh packet of the row's write moves
on (R289, R290, R292, R526); an inbound SCHED stream writes what waited for earlier operations. -/
def execStreamWriteAck (e : Engine) (p : RowPart) (s : State) : Host.Outcome State Fault Refusal :=
  .next (
    match s.writePacket e p.row with
    | some s => s.pollEngine e
    | none =>
      let st := s.stream e
      if dSched st.desc then (if dInbound st.desc ∧ st.running then (s.writeSched e).pollEngine e else s)
      else (s.ackRow e p).pollEngine e)

/-- What a stream waits for in vain is given up: requests and writes whose packets a router discarded (R275, R291). -/
def State.dropLost (s : State) (e : Engine) : State :=
  let alive (tag : Nat) : Bool :=
    (s.flight.any fun p => match p.body with
      | .strRead x _ g _ _ | .strData x _ g _ _ | .strAck x _ g _ => decide (x = e) && decide (g = tag)
      | .strWrite x _ g _ _ _ => decide (x = e) && decide (g = tag)
      | _ => false) ||
    s.skbWaits.any fun w => decide (w.tag.toNat = tag)
  s.modStream e fun st =>
    { st with
        got := st.got.map fun r =>
          { r with parts := r.parts.map fun p =>
              if p.data = none ∧ ! alive p.tag then { p with data := some (List.replicate p.n (0, true)) } else p }
        pending := (st.pending.map fun p => { p with tags := p.tags.filter fun t => alive t.1 }).filter fun p =>
          ! (p.runs.isEmpty && p.tags.isEmpty) }

/-- A stream's timeout expires (R291): a stream whose last acknowledgement comes in the same cycle has completed. -/
def execStreamTimeout (e : Engine) (s : State) : Host.Outcome State Fault Refusal :=
  .next (match (s.stream e).due with
    | some n =>
      if (s.stream e).live ∧ n < s.ns then (((s.faultStream e 4).dropLost e).settleStream e).pollEngine e else s
    | none => s)

/-- A window cache reads a table entry (R203, R206). -/
def execWindowTableRead (cache : WinCache) (tenant : BitVec 4) (granule : BitVec 27) (s : State) :
    Host.Outcome State Fault Refusal :=
  .next (s.walk cache tenant granule.toNat).2

/-! ### The Turret (R294 to R297, R301) -/

/-- The lowest free stream of a Turret. -/
def SpireSt.freeTurret (k : SpireSt) : Option Nat :=
  (List.range 128).find? fun n => ! (Store.get Stream.reset k.turret n).running

/-- The tenant of a Turret's lists and submissions. -/
def State.turretTenant (s : State) (sp : Spire) : BitVec 4 := (s.creg .trtCtl sp.toNat 0).extractLsb' 8 4

/-- Start a descriptor in stream `n`, or end it at once with its fault (R294). [DEDUCED, log 39] -/
def State.turretStart (s : State) (sp : Spire) (n : Nat) (d : SDesc) (mach : Bool) (entry : BitVec 16) (wback : Bool)
    (early : Option (BitVec 4)) : State :=
  let tenant := s.turretTenant sp
  let e : Engine := .turret sp (BitVec.ofNat 7 n)
  let r := s.validate none sp tenant mach d
  let s := r.2.setStream e (r.2.newStream d { core := coreOf sp 12, thread := 0 } tenant s.ct.tick.toNat entry wback)
  match early with
  | some f => (s.faultStream e f).completeStream e
  | none => if r.1 = .ok then s else (s.faultStream e r.1.fault).completeStream e

/-- A descriptor in Far at a physical address: its 64 bytes, or the fault with which a stream that needs them ends.
[DEDUCED, log 39] -/
def State.farDesc (s : State) (a : Nat) : SDesc × Option (BitVec 4) :=
  if ! farPopulated a then (0, some 8)
  else if ! s.farOpen a then (0, some 3)
  else if s.far.poisoned a 64 then (0, some 1)
  else (BitVec.ofNat 512 (s.far.readNat a 64), none)

/-- Add an offset to the Far addresses of a list entry, its list address included (R295). -/
def offsetDesc (d : SDesc) (shift : Int) : SDesc :=
  let move (d : SDesc) (lo : Nat) (sp : Nat) : SDesc :=
    if 2 ≤ sp then setFld d (lo + 47) lo ((fld d (lo + 47) lo + shift) % 2 ^ 48).toNat else d
  let x := move (move d 0 (aSpace (dSrc d))) 64 (aSpace (dDst d))
  if dGen d then move x 320 (dGspace d) else x

/-- Start entries of the staging list while streams are free (R295). [DEDUCED, log 39] -/
def State.startList (s : State) (sp : Spire) : Nat → State
  | 0 => s
  | n + 1 =>
    let k := s.spire sp
    match k.listTodo, k.freeTurret with
    | (i, wb) :: rest, some slot =>
      let r := s.farDesc (k.listBase + 64 * (i + 1))
      let s := s.modSpire sp fun k => { k with listTodo := rest }
      (s.turretStart sp slot (offsetDesc r.1 k.listShift) true (BitVec.ofNat 16 i) wb r.2).startList sp n
    | _, _ => s

/-- An entry of the old list that has not been started is given up: its counter is signalled with poison (R296).
[DEDUCED, log 39] -/
def State.dropEntry (s : State) (sp : Spire) (i : Nat) : State :=
  let r := s.farDesc ((s.spire sp).listBase + 64 * (i + 1))
  let s := (s.turretFault sp 0 7 (BitVec.ofNat 16 i)).faultRecord (.turret sp 0) 7 (BitVec.ofNat 16 i) (s.turretTenant sp)
  if r.2.isSome ∨ dInc r.1 = 0 then s
  else
    s.send (engineRouter (.turret sp 0)) (cupolaRouter (ctrSpire (dCtr r.1))) false false (s.turretTenant sp)
      (.signal (.stream (.turret sp 0) none) (dCtr r.1) (BitVec.ofNat 32 (dInc r.1)) true)

/-- End the unfinished entries of the old list (R296). [DEDUCED, log 39] -/
def State.endList (s : State) (sp : Spire) : State :=
  let k := s.spire sp
  let old := k.turret.filter fun p => p.2.running && decide (p.2.entry ≠ 0xFFFF)
  if old.isEmpty ∧ k.listTodo.isEmpty then s
  else
    let s := s.setCreg .trtStat sp.toNat 0 (s.creg .trtStat sp.toNat 0 ||| 4#32)
    let s := old.foldl (fun s p =>
      let e : Engine := .turret sp (BitVec.ofNat 7 p.1)
      let s := s.faultStream e 7
      if (s.stream e).finished then s.completeStream e else s) s
    let s := k.listTodo.foldl (fun s p => s.dropEntry sp p.1) s
    s.modSpire sp fun k => { k with listTodo := [] }

/-- A signed 48-bit number. -/
def signed48 (n : Nat) : Int := (BitVec.ofNat 48 n).toInt

/-- What a Turret does at the edge that starts the tick: it ends the old list and, with LIST set, starts the new one, in
the tick after a run only its write-back entries (R295, R296, R424). [DEDUCED, log 39] -/
def State.turretEdge (s : State) (sp : Spire) (wbOnly : Bool) : State :=
  let s := s.endList sp
  let ctl := s.creg .trtCtl sp.toNat 0
  let s := s.modSpire sp fun k => { k with staged := false, listLeft := 0 }
  if ! bit ctl 0 ∨ ! bit ctl 1 then s
  else
    let base := (s.creg .trtListLo sp.toNat 0).toNat + fld (s.creg .trtListHi sp.toNat 0) 7 0 * 2 ^ 32
    let r := s.farDesc base
    match r.2 with
    | some f =>
      (s.turretFault sp 0 f 0xFFFF).faultRecord (.turret sp 0) f 0xFFFF (s.turretTenant sp)
    | none =>
      let h := r.1
      let nwb := fld h 31 16
      let total := if wbOnly then nwb else nwb + fld h 15 0
      let steps : Int := s.ct.tick.toNat - fld h 175 128
      let s := s.modSpire sp fun k =>
        { k with listTodo := (List.range total).map (fun i => (i, decide (i < nwb))), listLeft := total,
                 listBase := base, listShift := signed48 (fld h 111 64) * steps, staged := decide (total = 0) }
      s.startList sp 128

/-- A write of `TRT_SUB_HI`: a submission; refused where no stream is free or the Turret is off (R294, R301).
[DEDUCED, log 39] -/
def State.writeTrtSub (s : State) (mach : Bool) (sp : Spire) (v : Word) : State :=
  let a := (s.creg .trtSubLo sp.toNat 0).toNat / 64 * 64 + fld v 7 0 * 2 ^ 32
  match (s.spire sp).freeTurret with
  | some n =>
    if bit (s.creg .trtCtl sp.toNat 0) 0 then
      let r := s.farDesc a
      s.turretStart sp n r.1 mach 0xFFFF false r.2
    else s.setCreg .trtSubstat sp.toNat 0 (s.creg .trtSubstat sp.toNat 0 ||| 0x100#32)
  | none => s.setCreg .trtSubstat sp.toNat 0 (s.creg .trtSubstat sp.toNat 0 ||| 0x100#32)

/-- A submission to the Turret (R294). -/
def execTurretSubmit (ag : Agent) (sp : Spire) (v : Word) (s : State) : Host.Outcome State Fault Refusal :=
  .next (s.gated ag .trtSubHi sp.toNat fun s => s.writeTrtSub (decide (s.agentPriv ag = .machine)) sp v)

/-- A Turret stream whose accesses are all acknowledged completes, and the list goes on (R294, R297). -/
def execTurretStreamComplete (sp : Spire) (n : BitVec 7) (s : State) : Host.Outcome State Fault Refusal :=
  .next (
    if (s.stream (.turret sp n)).finished then (s.completeStream (.turret sp n)).startList sp 128 else s)

end Sys2Proof.Machine
end

