-- ==== Sys2Proof/Machine/Crc.lean ====
section
/-! DEFINITION. The CRC-32 of R373: the IEEE 802.3 frame check sequence. -/

namespace Sys2Proof.Machine

open Sys2Proof

/-- One bit of the division, the register reflected: 0xEDB8_8320 is 0x04C1_1DB7 with its bits in reverse. -/
def crcBit (c : Word) : Word := if bit c 0 then (c >>> 1) ^^^ 0xEDB88320#32 else c >>> 1

/-- One byte. -/
def crcByte (c : Word) (b : Byte) : Word :=
  crcBit (crcBit (crcBit (crcBit (crcBit (crcBit (crcBit (crcBit (c ^^^ b.setWidth 32))))))))

/-- The check over bytes: initial value all ones, result complemented (R373). -/
def crc32 (bs : List Byte) : Word := ~~~ (bs.foldl crcByte (BitVec.allOnes 32))

end Sys2Proof.Machine
end

