-- ==== Sys2Proof/Machine/HostOps.lean ====
section
/-! DEFINITION. Rings, completions and the life of a command on its way through Duboette (R410 to R419). -/

namespace Sys2Proof.Machine

open Sys2Proof

/-! ### Fields of a command (R415) -/

/-- OPCODE. -/
def Cmd.op (c : Cmd) : Nat := fld c.header 7 0
/-- NOTIFY. -/
def Cmd.notify (c : Cmd) : Bool := bit c.header 8
/-- BARRIER. -/
def Cmd.barrier (c : Cmd) : Bool := bit c.header 9
/-- TENANT. -/
def Cmd.tenant (c : Cmd) : BitVec 4 := c.header.extractLsb' 16 4
/-- SEQ. -/
def Cmd.seq (c : Cmd) : Nat := fld c.header 47 32
/-- PLEN. -/
def Cmd.plen (c : Cmd) : Nat := fld c.header 63 48
/-- The parameter field of `n` bytes at an offset. -/
def Cmd.par (c : Cmd) (off n : Nat) : Nat := leNat ((c.params.drop off).take n)
/-- Bit `k` of the parameter byte at an offset. -/
def Cmd.flag (c : Cmd) (off k : Nat) : Bool := c.par off 1 / 2 ^ k % 2 = 1

/-! ### Rings (R410 to R414) -/

/-- The tenant that owns a ring. -/
def ringTenant (r : Ring) : BitVec 4 := r.extractLsb' 4 4

/-- The number of entries of a ring. -/
def State.ringN (s : State) (r : Ring) : Nat := 2 ^ fld (s.creg .ringCfg r.toNat 0) 8 4

/-- A ring's record. -/
def State.ring (s : State) (r : Ring) : RingSt := Store.get RingSt.reset s.rings r.toNat

/-- Change a ring's record. -/
def State.modRing (s : State) (r : Ring) (f : RingSt → RingSt) : State :=
  { s with rings := Store.set RingSt.reset s.rings r.toNat (f (s.ring r)) }

/-- Whether a ring is enabled, and its tenant active (R410, R433). -/
def State.ringOn (s : State) (r : Ring) : Bool :=
  bit (s.creg .ringCfg r.toNat 0) 0 && (bit (s.creg .partCfg (ringTenant r).toNat 0) 0)

/-- Whether a command came from a ring. -/
def Cmd.fromRing (c : Cmd) (r : Ring) : Bool := decide (c.origin = .ring r)

/-- The commands of a ring that have been fetched and not completed. -/
def State.inflight (s : State) (r : Ring) : Nat := (s.cmds.filter fun p => p.2.fromRing r).length

/-- The completion entries that the host has not consumed. -/
def State.unread (s : State) (r : Ring) : Nat :=
  ((s.creg .ringQtail r.toNat 0).toNat + s.ringN r - (s.creg .ringQhead r.toNat 0).toNat) % s.ringN r

/-- Whether R411 holds fetching. -/
def State.qfull (s : State) (r : Ring) : Bool := decide (s.ringN r - 1 ≤ s.inflight r + s.unread r)

/-- An access to host memory is translated through the device translation cache: the translation requests that it takes
are counted (R403, R434). [DESIGN CHOICE, log 104] -/
def State.hostAccess (s : State) : State :=
  ({ s with free := s.free + 1 } : State).bump .hifAtcmiss 0 0 (Config.atsRequests s.free)

/-- Something leaves for the host. -/
def State.hostOut (s : State) (o : HostOut) : State :=
  let s : State := { s with toHost := s.toHost ++ [o] }
  match o with
  | .write _ _ _ => s.hostAccess
  | _ => s

/-- The cache through which Duboette translates window addresses: that of Q0's cluster (R225, R437).
[DEDUCED, log 90] -/
def duboetteCache : WinCache := .belfry 0

/-- Write bytes in a ring's space: host memory, or the tenant's window (R410). A window write that does not translate is
dropped. [DEDUCED, log 57] -/
def State.ringWrite (s : State) (r : Ring) (a : Nat) (bs : List Byte) : State :=
  if bit (s.creg .ringCfg r.toNat 0) 1 then
    let x := s.translate duboetteCache (ringTenant r) (a % 2 ^ 48) .write
    match x.1 with
    | some p => if farPopulated p ∧ x.2.farOpen p then { x.2 with far := x.2.far.store p bs } else x.2
    | none => x.2
  else s.hostOut (.write (ringTenant r) (BitVec.ofNat 64 a) bs)

/-- The 64-bit base that two registers of a ring hold. -/
def State.ringBase (s : State) (lo hi : CReg) (r : Ring) : Nat :=
  (s.creg lo r.toNat 0).toNat / 4096 * 4096 + (s.creg hi r.toNat 0).toNat * 2 ^ 32

/-- Send the ring's vector. [DEDUCED, log 57] -/
def State.ringVector (s : State) (r : Ring) : State :=
  s.hostOut (.msix (ringTenant r) (BitVec.ofNat 7 (fld (s.creg .ringCfg r.toNat 0) 22 16)))

/-! ### Completions (R412, R413, R416) -/

/-- A status packet (R416). -/
def statusBytes (c : Cmd) (status : Nat) (phase : Bool) (r0 r1 r2 : DWord) : List Byte :=
  leBytes 8 (status + c.op * 2 ^ 16 + b2n phase * 2 ^ 24 + c.seq * 2 ^ 32) ++
    (leBytes 8 r0.toNat ++ (leBytes 8 r1.toNat ++ leBytes 8 r2.toNat))

/-- Write a completion entry at QTAIL, advance QTAIL, and send the vector where the entry asks for it.
[DEDUCED, log 57] -/
def State.postEntry (s : State) (r : Ring) (c : Cmd) (status : Nat) (r0 r1 r2 : DWord) : State :=
  if ! bit (s.creg .ringCfg r.toNat 0) 0 then s
  else
    let t := (s.creg .ringQtail r.toNat 0).toNat
    let k := s.ring r
    let s := s.ringWrite r (s.ringBase .ringQbaseLo .ringQbaseHi r + 32 * t) (statusBytes c status k.phase r0 r1 r2)
    let t' := (t + 1) % s.ringN r
    let s := s.setCreg .ringQtail r.toNat 0 (BitVec.ofNat 32 t')
    let s := s.modRing r fun k => { k with phase := if t' = 0 then ! k.phase else k.phase }
    if c.notify then
      let s := s.modRing r fun k => { k with notes := k.notes ++ [t], armed := false }
      if k.armed then s.ringVector r else s
    else s

/-- Answer a command that no fan-out child stands for: its ring, or the device that forwarded it (R395, R412). -/
def State.answerCmd (s : State) (c : Cmd) (status : Nat) (r0 r1 r2 : DWord) : State :=
  let s := s.bump .hifCmds 0 0 1
  match c.origin with
  | .ring r => s.postEntry r c status r0 r1 r2
  | .remote dev tag =>
    { s with
        toSkb := s.toSkb ++
          [{ dst := dev, src := s.devId, ptype := 10, tenant := c.tenant, epoch := 0, tag := tag, poison := false,
             addr := 0, arg := BitVec.ofNat 64 status, e2eOk := true,
             data := statusBytes c status false r0 r1 r2 }] }
  | .fan _ => s

/-- The command of an id. -/
def State.cmd (s : State) (id : Nat) : Option Cmd := Store.find? s.cmds id

/-- Replace a command. -/
def State.modCmd (s : State) (id : Nat) (f : Cmd → Cmd) : State :=
  match s.cmd id with
  | none => s
  | some c => { s with cmds := Store.put s.cmds id (f c) }

/-- Put a reply in device-ID order. -/
def insReply (x : Reply) : List Reply → List Reply
  | [] => [x]
  | y :: r => if x.dev < y.dev then x :: y :: r else y :: insReply x r

/-- Complete a forwarded command once nothing is waited for, or at its timeout: the first status other than OK in
device-ID order, and for a group command the counts (R395, R419). -/
def State.settleFan (s : State) (id : Nat) (c : Cmd) : State :=
  let missing := c.waitFor.map fun d => ({ dev := d, status := 0x11, r0 := 0, r1 := 0, r2 := 0 } : Reply)
  let all := missing.foldl (fun l x => insReply x l) c.replies
  let bad := all.filter fun x => x.status ≠ 0
  let status := (bad.head?.map (·.status)).getD 0
  let s := { s with cmds := Store.del s.cmds id }
  if bit c.header 11 then
    s.answerCmd c status (BitVec.ofNat 64 c.replies.length) (BitVec.ofNat 64 bad.length)
      ((bad.head?.map fun x => x.dev.setWidth 64).getD 0)
  else
    match c.replies with
    | x :: _ => s.answerCmd c status x.r0 x.r1 x.r2
    | [] => s.answerCmd c status 0 0 0

/-- A target of a forwarded command has answered. -/
def State.addReply (s : State) (parent : Nat) (x : Reply) : State :=
  match s.cmd parent with
  | none => s
  | some c =>
    if ! c.waitFor.contains x.dev then s
    else
      let c := { c with waitFor := c.waitFor.filter fun d => d ≠ x.dev, replies := insReply x c.replies }
      if c.waitFor.isEmpty then s.settleFan parent c else { s with cmds := Store.put s.cmds parent c }

/-- A command completes (R412, R416). -/
def State.completeCmd (s : State) (id status : Nat) (r0 r1 r2 : DWord) : State :=
  match s.cmd id with
  | none => s
  | some c =>
    let s := { s with cmds := Store.del s.cmds id }
    match c.origin with
    | .fan parent => s.addReply parent { dev := s.devId, status := status, r0 := r0, r1 := r1, r2 := r2 }
    | _ => s.answerCmd c status r0 r1 r2

/-- Complete a command with OK. -/
def State.completeOk (s : State) (id : Nat) (r0 r1 r2 : Nat) : State :=
  s.completeCmd id 0 (BitVec.ofNat 64 r0) (BitVec.ofNat 64 r1) (BitVec.ofNat 64 r2)

/-- Complete a command with a failure and r0. -/
def State.failCmd (s : State) (id status r0 : Nat) : State := s.completeCmd id status (BitVec.ofNat 64 r0) 0 0

/-! ### Starting a command (R412, R417) -/

/-- Whether a command may start: the earlier commands of its ring have started, and completed where it is a barrier. -/
def State.mayStart (s : State) (id : Nat) (c : Cmd) : Bool :=
  match c.origin with
  | .ring r =>
    s.cmds.all fun p => ! (decide (p.1 < id) && p.2.fromRing r) || (! c.barrier && decide (p.2.st = .started))
  | _ => true

/-- The devices of this manager's group, itself among them (R394). -/
def State.groupDevices (s : State) : List (BitVec 10) :=
  (List.range 1024).filterMap fun k =>
    let d : BitVec 10 := BitVec.ofNat 10 k
    if d = s.devId ∨ (Config.groupMembers s.devId).contains d then some d else none

/-- The devices that a command names in place of this one: the whole group, or DEV (R419). -/
def State.targets (s : State) (c : Cmd) : List (BitVec 10) :=
  if bit c.header 11 then s.groupDevices
  else if bit c.header 30 then [c.header.extractLsb' 20 10]
  else []

/-- A forwarded command is sent to one target: a COMMAND packet, or a command of its own where the target is this device
(R395, R419). -/
def State.sendCmd (s : State) (id : Nat) (c : Cmd) (dev : BitVec 10) : State :=
  let header := c.header &&& ~~~ 0x40000800#64
  if dev = s.devId then
    let g := s.newId
    let k : Cmd :=
      { c with
          origin := .fan id
          header := header
          st := .waiting
          waitFor := []
          replies := [] }
    { g.2 with cmds := Store.put g.2.cmds g.1 k }
  else
    { s with
        toSkb := s.toSkb ++
          [{ dst := dev, src := s.devId, ptype := 9, tenant := c.tenant, epoch := 0, tag := BitVec.ofNat 16 id, poison := false,
             addr := header, arg := 0, e2eOk := true, data := c.params }] }

/-- Forward a command to its targets. -/
def State.forwardCmd (s : State) (id : Nat) (c : Cmd) : State :=
  let ds := s.targets c
  let s := s.modCmd id fun c => { c with st := .started, since := s.ns, waitFor := ds }
  ds.foldl (fun s d => s.sendCmd id c d) s

/-- Run a command of opcode `op`: one that waits starts when it may, one for other devices is forwarded, and a device
fault leaves only two opcodes (R412, R417, R419). -/
def State.runCmd (s : State) (id op : Nat) (f : Cmd → State → State) : State :=
  match s.cmd id with
  | none => s
  | some c =>
    if c.op ≠ op ∨ ! s.keep.duboette ∨ ! c.waitFor.isEmpty then s
    else if c.st = .waiting ∧ ! s.mayStart id c then s
    else if c.st = .waiting ∧ ! (s.targets c).isEmpty then s.forwardCmd id c
    else
      let s := if c.st = .waiting then s.modCmd id fun c => { c with st := .started, since := s.ns } else s
      if s.devFault ∧ op ≠ 0x02 ∧ op ≠ 0x03 then s.failCmd id 0x14 0
      else f { c with st := .started, since := if c.st = .waiting then s.ns else c.since } s

/-- The offset of the first parameter that a check finds out of range. -/
def firstBad : List (Nat × Bool) → Option Nat
  | [] => none
  | (o, b) :: r => if b then some o else firstBad r

/-- Go on where no parameter is out of range; otherwise answer BAD_PARAM with the offset (R417). -/
def State.checked (s : State) (id : Nat) (ps : List (Nat × Bool)) (f : State) : State :=
  match firstBad ps with
  | some o => s.failCmd id 0x03 o
  | none => f

/-- Change a command's step. -/
def State.cmdStep (s : State) (id n : Nat) : State := s.modCmd id fun c => { c with step := n }

/-- The next choice that Duboette is free to make. [DEDUCED, log 88] -/
def State.choose (s : State) : Nat × State := (Config.choice s.free, { s with free := s.free + 1 })

/-- The elements of a list from a place that Duboette chooses, all round. -/
def State.shuffle {α : Type} (s : State) (l : List α) : List α × State :=
  let r := s.choose
  let k := r.1 % l.length
  (l.drop k ++ l.take k, r.2)

/-! ### Memory for Duboette and the DMA engine (R404, R410, R415, R420) -/

/-- Pieces of a space from an address on: their Far addresses as far as they are there, and the first address that is not.
Space 1 is the tenant's window, space 2 Far itself. [DEDUCED, log 90] -/
def State.dmaPieces (s : State) (t : BitVec 4) (space : Nat) (p : Perm) :
    List (Nat × Nat) → (List (Nat × Nat) × Option Nat) × State
  | [] => (([], none), s)
  | (a, n) :: r =>
    let x := if space = 1 then s.translate duboetteCache t a p else (some a, s)
    match x.1 with
    | none => (([], some a), x.2)
    | some f =>
      if farPopulated f ∧ x.2.farOpen f then
        let y := x.2.dmaPieces t space p r
        (((f, n) :: y.1.1, y.1.2), y.2)
      else (([], some a), x.2)

/-- The pieces of `n` bytes at an address. -/
def State.dmaRuns (s : State) (t : BitVec 4) (space : Nat) (p : Perm) (a n : Nat) :
    (List (Nat × Nat) × Option Nat) × State :=
  s.dmaPieces t space p (cutRuns (2 ^ 21) a n (n / 2 ^ 21 + 2))

/-- Read a window or Far: the bytes with their poison up to the first address that is not there, and that address. -/
def State.dmaRead (s : State) (t : BitVec 4) (space a n : Nat) : (List (Byte × Bool) × Option Nat) × State :=
  let r := s.dmaRuns t space .read a n
  ((readRuns r.2.far r.1.1, r.1.2), r.2)

/-- Write a window or Far up to the first address that is not there; answers that address. -/
def State.dmaWrite (s : State) (t : BitVec 4) (space a : Nat) (bs : List (Byte × Bool)) : Option Nat × State :=
  let r := s.dmaRuns t space .write a bs.length
  let parts := spread r.1.1 bs
  let bad := parts.flatMap fun p => (p.2.zipIdx.filter fun b => b.1.2).map fun b => p.1 + b.2
  (r.1.2, { r.2 with far := storeRuns r.2.far (parts.map fun p => (p.1, p.2.map (·.1))) bad })

/-- The function whose host memory a command names: its tenant's (R405). [DEDUCED, log 57] -/
def Cmd.fn (c : Cmd) : BitVec 4 := c.tenant

/-- Whether the addresses of a command lie in the window of its ring's tenant (R415). -/
def State.cmdWindow (s : State) (c : Cmd) : Bool :=
  match c.origin with
  | .ring r => bit (s.creg .ringCfg r.toNat 0) 1
  | _ => false

/-- Write a record to the address that a command gives: host memory, or the window of the ring where the ring's space is
the window; answers the address that is not there. [DEDUCED, log 57] -/
def State.cmdWrite (s : State) (c : Cmd) (a : Nat) (bs : List Byte) : Option Nat × State :=
  if s.cmdWindow c then s.dmaWrite c.tenant 1 (a % 2 ^ 48) (bs.map fun b => (b, false))
  else (none, s.hostOut (.write c.fn (BitVec.ofNat 64 a) bs))

/-- Read a block at an address that a command gives: from the window, or as host memory returned it; none where it failed. -/
def State.cmdRead (s : State) (window : Bool) (t : BitVec 4) (a n : Nat) (hd : HostData) : Option (List Byte) × State :=
  if window then
    let r := s.dmaRead t 1 (a % 2 ^ 48) n
    (if r.1.2.isSome ∨ r.1.1.any (·.2) then none else some (r.1.1.map (·.1)), r.2)
  else (hd.bind fun l => if n ≤ l.length then some (l.take n) else none, s.hostAccess)

end Sys2Proof.Machine
end

