-- ==== Sys2Proof/Machine/Memory.lean ====
section
/-! DEFINITION. The memory system's own events: the ping-pong region, the program cache, `WINV` and the background scrub
(R89, R199, R200, R206, R208, R228, R229). -/

namespace Sys2Proof.Machine

open Sys2Proof

/-! ### `DRUM_PP` (R199, R200) -/

/-- A write of `DRUM_PP`: pending until the next edge; ignored where the region would leave the Drum (R200). -/
def State.writeDrumPp (s : State) (sp : Spire) (v : Word) : State :=
  if 128 < fld v 6 0 + 2 * fld v 14 8 then s
  else s.modSpire sp fun k => { k with ppPend := some (v &&& 0x7F7F) }

/-- The ping-pong region is set (R200). -/
def execDrumPpWrite (ag : Agent) (sp : Spire) (v : Word) (s : State) : Host.Outcome State Fault Refusal :=
  .next (s.gated ag .drumPp sp.toNat fun s => s.writeDrumPp sp v)

/-- What an edge does to the region: a pending write takes effect with PHASE 0, otherwise PHASE toggles where HALF is not
0 (R199). -/
def State.drumEdge (s : State) (sp : Spire) : State :=
  match (s.spire sp).ppPend with
  | some v =>
    (s.setCreg .drumPp sp.toNat 0 v).modSpire sp fun k => { k with ppPend := none, phase := false }
  | none =>
    if fld (s.creg .drumPp sp.toNat 0) 14 8 = 0 then s else s.modSpire sp fun k => { k with phase := ! k.phase }

/-! ### The program cache (R89, R212) -/

/-- A write of `PC_INV`: 1 drops every line of the Spire's program cache. -/
def State.writePcInv (s : State) (sp : Spire) (v : Word) : State :=
  if bit v 0 then s.modSpire sp fun k => { k with pcLines := [], pcUsed := [] } else s

/-- The program cache is invalidated (R90, R212). -/
def execPcInvWrite (ag : Agent) (sp : Spire) (v : Word) (s : State) : Host.Outcome State Fault Refusal :=
  .next (s.gated ag .pcInv sp.toNat fun s => s.writePcInv sp v)

/-! ### `WINV` (R208) -/

/-- Whether a translation is one that a drop removes. -/
def WinvDrop.hits (d : WinvDrop) (e : WinEntry) : Bool :=
  decide (e.tenant = d.tenant) &&
  (decide (d.count = 0) ||
    (decide (d.first.toNat ≤ e.granule.toNat) && decide (e.granule.toNat < d.first.toNat + d.count.toNat)))

/-- Drop translations from one cache. -/
def State.dropFrom (s : State) (d : WinvDrop) (c : WinCache) : State :=
  s.setWinEntries c ((s.winEntries c).filter fun e => ! d.hits e)

/-- The window caches of a quadrant that hold anything. -/
def State.quadCaches (s : State) (q : Quad) : List WinCache :=
  ((s.cores.filter fun p => decide (p.1 / 512 = q.toNat)).map fun p => WinCache.core (BitVec.ofNat 11 p.1)) ++
  ((s.spires.filter fun p => decide (p.1 / 16 = q.toNat)).map fun p => WinCache.turret (BitVec.ofNat 6 p.1)) ++
  [.belfry q, .fxb q]

/-- Whether a running stream of the quadrant holds a dropped translation. -/
def State.winvHeld (s : State) (q : Quad) (d : WinvDrop) : Bool :=
  (s.cores.any fun p => decide (p.1 / 512 = q.toNat) && p.2.slots.any fun x => x.2.running && x.2.held.any d.hits) ||
  (s.spires.any fun p => decide (p.1 / 16 = q.toNat) && p.2.turret.any fun x => x.2.running && x.2.held.any d.hits)

/-- A write of `FXB_WINV_CTL`: GO starts the drop, ignored while one is in progress. -/
def State.writeWinvCtl (s : State) (q : Quad) (v : Word) : State :=
  let s := s.plainWrite .fxbWinvCtl q.toNat 0 (v &&& 0xF)
  if ! bit v 8 ∨ (s.quad q).winv.isSome then s
  else
    let d : WinvDrop := { tenant := v.setWidth 4, first := (s.creg .fxbWinvFirst q.toNat 0).setWidth 27,
                          count := (s.creg .fxbWinvCnt q.toNat 0).setWidth 21 }
    let s := (s.quadCaches q).foldl (fun s c => s.dropFrom d c) s
    s.modQuad q fun k => { k with winv := some d }

/-- A quadrant starts to drop a tenant's translations (R208). -/
def execWinvGo (ag : Agent) (q : Quad) (v : Word) (s : State) : Host.Outcome State Fault Refusal :=
  .next (s.gated ag .fxbWinvCtl q.toNat fun s => s.writeWinvCtl q (v ||| 0x100#32))

/-- Every transfer of the quadrant that held a dropped translation has completed: BUSY clears (R208). -/
def execWinvDrainComplete (q : Quad) (s : State) : Host.Outcome State Fault Refusal :=
  .next (match (s.quad q).winv with
    | some d => if s.winvHeld q d then s else s.modQuad q fun k => { k with winv := none }
    | none => s)

/-- Whether a tenant has a task running. -/
def State.tenantRuns (s : State) (t : BitVec 4) : Bool :=
  s.tasks.any fun p => decide (p.2.tenant = t) &&
    (match p.2.run with | some r => decide (r.st ≠ .waiting) && decide (r.st ≠ .armed) | none => false)

/-- A write of a tenant's `WIN_BASE_LO`, `WIN_BASE_HI` or `WIN_LEN`: it takes effect at the next edge while the tenant
has a task running (R212). -/
def State.writeWin (s : State) (r : CReg) (q : Quad) (t : BitVec 4) (v : Word) : State :=
  if s.tenantRuns t then
    s.modQuad q fun k => { k with winPend := k.winPend ++ [(r.addr q.toNat t.toNat, r.row.write 0 v)] }
  else s.plainWrite r q.toNat t.toNat v

/-- The window registers written during the tick take effect (R212). -/
def State.applyWins (s : State) : State :=
  s.quads.foldl (fun s p =>
    let q : Quad := BitVec.ofNat 2 p.1
    (p.2.winPend.foldl (fun s w => { s with regs := Store.set 0 s.regs w.1 w.2 }) s).modQuad q fun k => { k with winPend := [] }) s

/-- Every window cache of the device is flushed, after the window registers have taken effect (R206, R212). -/
def State.flushWindows (s : State) : State :=
  let s := s.applyWins
  let s := s.cores.foldl (fun s p => s.modCore (BitVec.ofNat 11 p.1) fun k => { k with wcache := [] }) s
  let s := s.spires.foldl (fun s p => s.modSpire (BitVec.ofNat 6 p.1) fun k => { k with wcache := [] }) s
  s.quads.foldl (fun s p => s.modQuad (BitVec.ofNat 2 p.1) fun k => { k with wcacheB := [], wcacheF := [] }) s

/-! ### Scrub and correction (R228, R229) -/

/-- The record of a memory error. -/
def State.eccRecord (s : State) (q : Quad) (kind : BitVec 4) (index : BitVec 12) (addr : Nat) (ue : Bool)
    (tenant : BitVec 4) : State :=
  let r := s.mkReport kind index (if ue then 0x02 else 0x01) (if ue then 1 else 0) (BitVec.ofNat 64 addr) tenant
  s.report q { r with poison := ue }

/-- The report of a cache or a register file: class and severity, with the address or entry. -/
def State.arrayRecord (s : State) (q : Quad) (kind : BitVec 4) (index : BitVec 12) (cls : Byte) (sev : BitVec 2) (at_ : Nat)
    (tenant : BitVec 4) : State :=
  s.report q { s.mkReport kind index cls sev (BitVec.ofNat 64 at_) tenant with poison := decide (cls = 0x02) }

/-- An error in the shared state of a core: a tile word, a queued channel word, a register or an instruction-cache line.
A register's is not corrected (R163, R228, R282). [DESIGN CHOICE, log 29] -/
def State.coreError (s : State) (loc : ScrubLoc) (ue : Bool) : State :=
  match loc with
  | .tile c code w =>
    if 24 ≤ code.toNat ∨ (code.toNat < 16 ∧ 256 ≤ w.toNat) then s
    else
      let s := s.eccRecord (quadOf (spireOf c)) 0 (c.setWidth 12) (2 ^ 12 * code.toNat + 8 * w.toNat) ue (s.core c).tenant
      if ! ue then s
      else
        s.modCore c fun k =>
          let x := k.tile.target code.toNat
          { k with tile := k.tile.setTarget code.toNat { x with data := x.data.poisonWord (8 * w.toNat) } }
  | .gReg t r =>
    if r = 31 ∨ ! ue then s
    else s.modThread t fun th => th.setBank { th.bank with bad := th.bank.bad ||| (1#32 <<< r.toNat) }
  | .vReg t r => if ue then s.modThread t fun th => { th with badV := th.badV ||| (1#32 <<< r.toNat) } else s
  | .queue t n k =>
    if ((s.thread t).ep n).queue.length ≤ k.toNat then s
    else
      let s := s.eccRecord (quadOf (spireOf t.core)) 0 (t.core.setWidth 12) ((epId t n).toNat) ue (s.thread t).tenant
      if ! ue then s
      else
        s.modThread t fun th =>
          let e := th.ep n
          th.setEp n { e with queue := e.queue.zipIdx.map fun p => if p.2 = k.toNat then { p.1 with poison := true } else p.1 }
  | .icache c line tag =>
    if ! (s.core c).icache.hits (64 * line) then s
    else
      let s := s.arrayRecord (quadOf (spireOf c)) 0 (c.setWidth 12) (if tag then 0x03 else 0x01) 0 (64 * line) (s.core c).tenant
      if ! tag ∧ ! ue then s
      else
        s.modCore c fun k =>
          { k with icache := { k.icache with lines := k.icache.lines.filter fun p => p.2 ≠ line + 1 } }
  | _ => s

/-- A lost line of a Belfry cluster's L2: a clean one is read again, the bytes of a dirty one are gone (R228). -/
def State.belfryTagError (s : State) (q : Quad) (n : Nat) : State :=
  match (s.quad q).line? n with
  | none => s
  | some l =>
    (s.arrayRecord q 6 (BitVec.ofNat 12 (4 * q.toNat)) 0x03 (if l.dirty = 0 then 0 else 2) (64 * n) 0).modQuad q fun k =>
      { k with l2 := Store.del k.l2 n }

/-- An error in the data of a line: corrected, or, where it cannot be, a word with dirty bytes is poisoned and a clean one
read again (R228). -/
def State.belfryDataError (s : State) (q : Quad) (n w : Nat) (ue : Bool) : State :=
  match (s.quad q).line? n with
  | none => s
  | some l =>
    let lost := ue && decide (l.dirty.extractLsb' (8 * w) 8 ≠ 0)
    let s := s.arrayRecord q 6 (BitVec.ofNat 12 (4 * q.toNat)) (if lost then 0x02 else 0x01) (if lost then 1 else 0)
      (64 * n + 8 * w) 0
    s.modQuad q fun k =>
      { k with l2 := Store.put k.l2 n (if lost then { l with bad := l.bad ||| (1#8 <<< w) } else l) }

/-- An entry of a window cache is dropped, and the lookup misses (R206, R228). -/
def State.windowError (s : State) (c : WinCache) (t : BitVec 4) (g : BitVec 27) : State :=
  let mine (e : WinEntry) : Bool := decide (e.tenant = t) && decide (e.granule = g)
  if ! (s.winEntries c).any mine then s
  else
    let s := s.setWinEntries c ((s.winEntries c).filter fun e => ! mine e)
    match c with
    | .core x => s.arrayRecord (quadOf (spireOf x)) 0 (x.setWidth 12) 0x03 0 g.toNat t
    | .turret sp => s.arrayRecord (quadOf sp) 1 (sp.setWidth 12) 0x03 0 g.toNat t
    | .belfry q => s.arrayRecord q 6 (BitVec.ofNat 12 (4 * q.toNat)) 0x03 0 g.toNat t
    | .fxb q => s.arrayRecord q 2 (q.setWidth 12) 0x03 0 g.toNat t

/-- An error is found: by the background scrub in Far or the Drum, elsewhere by a read. What the array's protection does is
done, and the record made that R228 asks for (R163, R206, R228, R229, R282). [DESIGN CHOICE, log 29] -/
def execMemoryScrub (loc : ScrubLoc) (uncorrectable : Bool) (s : State) : Host.Outcome State Fault Refusal :=
  .next (match loc with
    | .far w =>
      let a := 8 * w.toNat
      if ! farPopulated a ∨ ! s.domCarries (76 + farStack a) then s
      else
        let s := s.eccRecord (farQuad a) 3 (BitVec.ofNat 12 (farStack a)) a uncorrectable 0
        if uncorrectable then { s with far := s.far.poisonWord a } else s
    | .drum sp w =>
      let a := 8 * w.toNat
      if ! s.domCarries sp.toNat then s
      else
        let s := s.eccRecord (quadOf sp) 1 (sp.setWidth 12) a uncorrectable 0
        if uncorrectable then s.modSpire sp fun k => { k with drum := k.drum.poisonWord a }
        else s.bump .drumCe sp.toNat 0 1
    | .localMem c w =>
      let a := 8 * w.toNat
      if 0xC0000 ≤ a ∨ ! s.domCarries (spireOf c).toNat then s
      else
        let s := s.eccRecord (quadOf (spireOf c)) 0 (c.setWidth 12) a uncorrectable (s.core c).tenant
        if uncorrectable then s.modCore c fun k => { k with mem := k.mem.poisonWord a }
        else s.bump .memCe c.toNat 0 1
    | .tile c _ _ | .icache c _ _ => if s.domCarries (spireOf c).toNat then s.coreError loc uncorrectable else s
    | .gReg t _ | .vReg t _ | .queue t _ _ =>
      if s.domCarries (spireOf t.core).toNat then s.coreError loc uncorrectable else s
    | .pcache sp line tag =>
      if ! s.domCarries sp.toNat ∨ ((s.spire sp).pcWay line).isNone then s
      else
        let s := s.arrayRecord (quadOf sp) 1 (sp.setWidth 12) (if tag then 0x03 else 0x01) 0 (64 * line) 0
        if ! tag ∧ ! uncorrectable then s
        else s.modSpire sp fun k => { k with pcLines := k.pcLines.filter fun p => p.2 ≠ line + 1 }
    | .window c t g => s.windowError c t g
    | .belfryL1 b tag =>
      if ! s.domCarries (64 + (belQuad b).toNat) then s
      else s.arrayRecord (belQuad b) 6 (b.setWidth 12) (if tag then 0x03 else 0x01) 0 0 (s.bel b).tenant
    | .belfryL2 q line w tag =>
      if ! s.domCarries (64 + q.toNat) then s
      else if tag then s.belfryTagError q line
      else s.belfryDataError q line w.toNat uncorrectable)

end Sys2Proof.Machine
end

