-- ==== Sys2Proof/Machine/Routing.lean ====
section
/-! DEFINITION. Routing registers and Spire DOZE (R341 to R349). -/

namespace Sys2Proof.Machine

open Sys2Proof

/-- A write of `RTE_CFGe`: ignored where its range leaves 65,536 flits; it takes effect at the next edge (R344, R348). -/
def State.writeRteCfg (s : State) (c : CoreId) (e : BitVec 6) (v : Word) : State :=
  if 65536 < fld v 31 16 + fld v 7 0 * (fld v 11 8 + 1) then s else s.plainWrite .rteCfg c.toNat e.toNat v

/-- RTE_CFG_WRITE. -/
def execRteCfgWrite (ag : Agent) (core : CoreId) (e : BitVec 6) (v : Word) (s : State) :
    Host.Outcome State Fault Refusal :=
  .next (s.gated ag .rteCfg core.toNat fun s => s.writeRteCfg core e v)

/-- ROUTE_CTL_WRITE. -/
def execRouteCtlWrite (ag : Agent) (core : CoreId) (v : Word) (s : State) : Host.Outcome State Fault Refusal :=
  .next (s.gated ag .routeCtl core.toNat fun s => s.plainWrite .routeCtl core.toNat 0 v)

/-- A core at an edge: the written routing registers come into force, the counts of the tick clear (R344). -/
def State.routeEdge (s : State) (c : CoreId) : State :=
  let ctl := s.creg .routeCtl c.toNat 0
  let cfg := (List.range 64).foldl (fun st e => Store.set 0 st e (s.creg .rteCfg c.toNat e)) ([] : Store Word)
  let s := s.modCore c fun k => { k with route := { ctl := ctl, cfg := cfg } }
  (List.range 64).foldl (fun s e => s.setCreg .rteFill c.toNat e 0) (s.setCreg .routeTick c.toNat 0 0)

/-! ### DOZE (R345, R346) -/

/-- The cores of a Spire. -/
def spireCores (sp : Spire) : List CoreId := (List.range 32).map fun k => coreOf sp (BitVec.ofNat 5 k)

/-- The threads of a Spire that are listed. -/
def State.spireThreads (s : State) (sp : Spire) : List (Tid × Thread) :=
  (s.threads.filter fun p => decide (p.1 / 128 = sp.toNat)).map fun p =>
    ({ core := BitVec.ofNat 11 (p.1 / 4), thread := BitVec.ofNat 2 p.1 }, p.2)

/-- Whether a router is DONE: it has started a tick and its schedule has ended (R241, R268). [DEDUCED, log 49] -/
def State.routerDone (s : State) (c : CoreId) : Bool := (s.quad (quadOf (spireOf c))).edged && ! (s.router c).live

/-- Whether a Turret is idle (R301). -/
def State.turretIdle (s : State) (sp : Spire) : Bool := ! ((s.spire sp).turret.any fun p => p.2.running)

/-- Whether a Turret's list, where one runs, is staged. -/
def State.stagedOk (s : State) (sp : Spire) : Bool := ! bit (s.creg .trtCtl sp.toNat 0) 1 || (s.spire sp).staged

/-- Whether an enabled thread lets its Spire doze. -/
def State.threadRests (s : State) (th : Thread) : Bool :=
  match th.status with
  | .disabled | .tickSleep => true
  | .blocked (.wait _) => ! th.ctl.bound && decide (s.wakeSet th = 0)
  | .blocked (.swait ..) => ! th.ctl.bound && decide (s.wakeSet th = 0)
  | _ => false

/-- The conditions of R345. [DEDUCED, log 56] -/
def State.mayDoze (s : State) (sp : Spire) : Bool :=
  decide ((s.dom sp.toNat).st = .on) && bit (s.creg .spdCtl sp.toNat 0) 0 &&
  ((s.spireThreads sp).all fun p => s.threadRests p.2) &&
  ((spireCores sp).all fun c =>
    (s.core c).queued.isEmpty && ! ((s.core c).slots.any fun p => p.2.running) && s.routerDone c) &&
  s.turretIdle sp && s.stagedOk sp

/-- DOZE_ENTRY: the conditions have held for 16 cc, and hold. -/
def execDozeEntry (sp : Spire) (s : State) : Host.Outcome State Fault Refusal :=
  .next (
    if s.mayDoze sp ∧ ! (s.spire sp).doze.dozing then
      s.modSpire sp fun k => { k with doze := { dozing := true, since := s.now } }
    else s)

/-- Whether a packet is a Cupola's answer to a sleeping thread. -/
def Body.isAnswer : Body → Bool
  | .swaitAnswer .. => true
  | _ => false

/-- Whether the compare timer of a thread is due. -/
def State.timerDue (s : State) (t : Tid) : Bool :=
  let th := s.thread t
  th.ctl.cmpen && decide (th.ctl.cmp.toNat ≤ s.cyc t.core)

/-- Whether a wake cause of a dozing Spire holds (R346). -/
def State.wakes (s : State) (sp : Spire) : WakeCause → Bool
  | .edgeNotice => s.ct.notice.isSome
  | .packet =>
    s.flight.any fun p => decide (p.pos = p.dst) && decide (spireOf p.dst = sp) && p.body.forSpire && ! p.body.isAnswer
  | .source =>
    (s.spireThreads sp).any fun p =>
      match p.2.status with
      | .blocked (.wait _) => decide (s.wakeSet p.2 ≠ 0) || s.timerDue p.1
      | .blocked (.swait ..) => (s.bestSource p.2).isSome || s.timerDue p.1
      | _ => false
  | .answer => s.flight.any fun p => decide (p.pos = p.dst) && decide (spireOf p.dst = sp) && p.body.forSpire && p.body.isAnswer

/-- A Spire's clocks are restored; the cycles spent in DOZE are counted, and the wake where no edge notice caused it. -/
def State.undoze (s : State) (sp : Spire) (counted : Bool) : State :=
  if ! (s.spire sp).doze.dozing then s
  else
    let n := s.now - (s.spire sp).doze.since
    let s := s.modSpire sp fun k => { k with doze := { dozing := false, since := 0 } }
    let s := s.bump .spdDozecc sp.toNat 0 n
    if counted then s.bump .spdWakes sp.toNat 0 1 else s

/-- DOZE_EXIT: a wake cause holds. -/
def execDozeExit (sp : Spire) (cause : WakeCause) (s : State) : Host.Outcome State Fault Refusal :=
  .next (if s.wakes sp cause then s.undoze sp (decide (cause ≠ .edgeNotice)) else s)

end Sys2Proof.Machine
end

