-- ==== Sys2Proof/Machine/TaskOps.lean ====
section
/-! DEFINITION. Tick images, placements and the end of a task (R240, R316, R420 to R430, R465). -/

namespace Sys2Proof.Machine

open Sys2Proof

/-! ### The image (R422) -/

/-- The little-endian field of `n` bytes at an offset of an image. -/
def imgN (im : List Byte) (off n : Nat) : Nat := leNat ((im.drop off).take n)

/-- A field of placement descriptor `p`. -/
def plN (im : List Byte) (p off n : Nat) : Nat := imgN im (64 + 64 * p + off) n

/-- The number of placements. -/
def imgPlaces (im : List Byte) : Nat := imgN im 6 2

/-- A placement's Spires. -/
def plSpires (im : List Byte) (p : Nat) : List Spire :=
  ((List.range 64).filter fun k => plN im p 0 8 / 2 ^ k % 2 = 1).map fun k => BitVec.ofNat 6 k

/-- The cores of a placement's Spires. -/
def plCores (im : List Byte) (p : Nat) : List CoreId := (plSpires im p).flatMap spireCores

/-- An entry of a thread table: the thread, whether it is tick-bound, its entry point. -/
structure ThreadEntry where
  tid : Tid
  bound : Bool
  entry : Word
  deriving DecidableEq, Repr

/-- A placement's thread table. -/
def plThreads (im : List Byte) (p : Nat) : List ThreadEntry :=
  (List.range (plN im p 24 2)).map fun k =>
    let w : DWord := BitVec.ofNat 64 (imgN im (plN im p 20 4 + 8 * k) 8)
    { tid := { core := w.setWidth 11, thread := w.extractLsb' 11 2 }, bound := bit w 13, entry := w.extractLsb' 32 32 }

/-- An entry of an initial table: the counter or lock, its rank, its value and its limit. -/
structure InitEntry where
  lock : Bool
  id : BitVec 16
  rank : Nat
  value : Word
  limit : Word
  deriving DecidableEq, Repr

/-- A placement's initial table. -/
def plInit (im : List Byte) (p : Nat) : List InitEntry :=
  (List.range (plN im p 26 2)).map fun k =>
    let o := plN im p 28 4 + 16 * k
    { lock := decide (imgN im (o + 2) 1 = 1), id := BitVec.ofNat 16 (imgN im o 2), rank := imgN im (o + 3) 1,
      value := BitVec.ofNat 32 (imgN im (o + 4) 4), limit := BitVec.ofNat 32 (imgN im (o + 8) 4) }

/-- The initial tables of every placement. -/
def imgInit (im : List Byte) : List InitEntry := (List.range (imgPlaces im)).flatMap (plInit im)

/-- The offset of a Spire's staging list in a placement, 0 where it has none. -/
def plList (im : List Byte) (p : Nat) (sp : Spire) : Nat :=
  let t := plN im p 16 4
  if t = 0 then 0 else imgN im (t + 8 * sp.toNat) 8

/-- The bytes of a staging list: its header and its entries (R295). -/
def listBytes (im : List Byte) (off : Nat) : Nat := 64 + 64 * (imgN im off 2 + imgN im (off + 2) 2)

/-- The schedule blocks of a placement, from offset `o` up to `hi`: the router and the offset of each (R254). -/
def blocksFrom (im : List Byte) (o hi : Nat) : Nat → List (Nat × Nat)
  | 0 => []
  | n + 1 =>
    if hi ≤ o then []
    else (imgN im (o + 2) 2, o) :: blocksFrom im (o + (192 + 8 * imgN im o 2 + 63) / 64 * 64) hi n

/-- The schedule blocks of a placement. -/
def plBlocks (im : List Byte) (p : Nat) : List (Nat × Nat) :=
  blocksFrom im (plN im p 8 4) (plN im p 8 4 + plN im p 12 4) 2048

/-- The entries of a block. -/
def blockEntries (im : List Byte) (o : Nat) : List DWord :=
  (List.range (imgN im o 2)).map fun k => BitVec.ofNat 64 (imgN im (o + 192 + 8 * k) 8)

/-- The image as a data space, for the loader. -/
def imgMem (im : List Byte) : Mem := Mem.zeros.write 0 im

/-- The minimum clock of an image at a tick period, rounded up to 50 MHz (R266, R423). -/
def imgClock (im : List Byte) (period : Nat) : Nat :=
  (imgN im 16 4 * imgN im 20 4 + 50 * period - 1) / (50 * period) * 50

/-! ### The static check of a schedule (R240) -/

/-- The entry that a table runs in cycle `t`: its index, the entry, the cycle's number in it. -/
def entryInCycle : List DWord → Nat → Nat → Option (Nat × DWord × Nat)
  | [], _, _ => none
  | w :: r, k, t => if t < eDur w then some (k, w, t) else if eLast w then none else entryInCycle r (k + 1) (t - eDur w)

/-- The cycles that a table runs. -/
def tableCycles (ws : List DWord) : Nat :=
  match ws with
  | [] => 0
  | w :: r => eDur w + (if eLast w then 0 else tableCycles r)

/-- Whether a router's table drives a flit toward an input of another router in cycle `t`: an output whose source is
its own reduce result drives when the result leaves. -/
def drives (tab : Nat → List DWord) (c d : CoreId) (inp : SDir) (t : Nat) : Bool :=
  allOuts.any fun o =>
    let now := match entryInCycle (tab c.toNat) 0 t with
      | some (_, w, _) =>
        decide (eSrc w o ≠ 0) && (decide (eSrc w o ≠ 7) || eRedVoid w) && decide (outInput w o = some inp) &&
        decide ((outSide w o).bind (inputFrom c) = some d)
      | none => false
    let late (l : Nat) := decide (l ≤ t) && (match entryInCycle (tab c.toNat) 0 (t - l) with
      | some (_, w, i) =>
        (decide (eRed w ≠ 2) || decide (i % 2 = 0)) && decide (eSrc w o = 7) && ! eRedVoid w && decide (redLat (eRed w) = l) && decide (outInput w o = some inp) &&
        decide ((outSide w o).bind (inputFrom c) = some d)
      | none => false)
    now || late 1 || late 2

/-- Whether a flit arrives at an input of a router in its cycle `t`. -/
def arrives (tab : Nat → List DWord) (c : CoreId) (inp : SDir) (t : Nat) : Bool :=
  match inputFrom c inp with
  | none => false
  | some u =>
    let l := linkLat u c (isExpress inp)
    decide (l ≤ t) && drives tab u c inp (t - l)

/-- The first entry of a router's table of a kind that R240 lists; `dead` says that its core port lies in a disabled or
FAILED Spire. [DEDUCED, log 51, 58] -/
def badEntry (tab : Nat → List DWord) (dead : Bool) (c : CoreId) : Option Nat :=
  let ws := tab c.toNat
  (List.range (tableCycles ws)).findSome? fun t =>
    match entryInCycle ws 0 t with
    | none => none
    | some (k, w, i) =>
      let arr (d : SDir) : Option Flit := if arrives tab c d t then some Flit.none else none
      if entryConflict c w (decide (i % 2 ≠ 0)) arr || (dead && (decide (eSrc w .core ≠ 0) || eUsesCore w)) then some k else none

/-! ### Allocation (R315, R423, R431) -/

/-- The Cupola register of counter unit `u` (0 to 1023), or of lock unit `u`. -/
def State.unitWord (s : State) (lock : Bool) (u : Nat) : Word := s.creg (if lock then .cupLunit else .cupCunit) (u / 16) (u % 16)

/-- Whether a unit is allocated, and to whom. -/
def State.unitOwner (s : State) (lock : Bool) (u : Nat) : Option (BitVec 4) :=
  let w := s.unitWord lock u
  if bit w 4 then some (w.setWidth 4) else none

/-- Allocate a unit to a tenant, or free it. -/
def State.setUnit (s : State) (lock : Bool) (u : Nat) (t : Option (BitVec 4)) : State :=
  s.setCreg (if lock then .cupLunit else .cupCunit) (u / 16) (u % 16)
    (match t with | some t => t.setWidth 32 ||| 16#32 | none => 0)

/-- The units of a tenant. -/
def State.unitsOf (s : State) (lock : Bool) (t : BitVec 4) : List Nat :=
  (List.range 1024).filter fun u => s.unitOwner lock u = some t

/-- A tenant's quota of units (R434). -/
def State.quota (s : State) (lock : Bool) (t : BitVec 4) : Nat :=
  let w := s.creg .partCfg t.toNat 0
  if lock then fld w 31 24 else fld w 23 16

/-- The unit of an initial entry. -/
def InitEntry.unit (e : InitEntry) : Nat := if e.lock then fld e.id 13 0 / 16 else e.id.toNat / 64

/-- The units that an image names. -/
def imgUnits (im : List Byte) (lock : Bool) : List Nat :=
  ((imgInit im).filter fun e => e.lock = lock).foldl (fun l e => insNat l e.unit) []

/-- The map of a tenant's units that a core holds (R306). -/
def State.unitMap (s : State) (lock : Bool) (t : BitVec 4) : BitVec 1024 :=
  (s.unitsOf lock t).foldl (fun m u => m ||| (1#1024 <<< u)) 0

/-! ### Tasks -/

/-- A task. -/
def State.task (s : State) (h : Nat) : Option Task := Store.find? s.tasks h

/-- Change a task. -/
def State.modTask (s : State) (h : Nat) (f : Task → Task) : State :=
  match s.task h with
  | none => s
  | some t => { s with tasks := Store.put s.tasks h (f t) }

/-- The Spires of a task's active placement. -/
def Task.spires (t : Task) : List Spire := plSpires t.image t.place

/-- The tick that the next edge begins: `CT_NEXT` first, the number of an edge message, else one more (R352). -/
def State.nextTick (s : State) : Nat :=
  if s.ct.first then
    (s.creg .ctNextLo 0 0).toNat + fld (s.creg .ctNextHi 0 0) 15 0 * 2 ^ 32
  else
    match s.ct.target with
    | some (_, n) => if s.ct.src = 1 then n.toNat else (s.ct.tick.toNat + 1) % 2 ^ 48
    | none => (s.ct.tick.toNat + 1) % 2 ^ 48

/-- The tick period in force. -/
def State.periodNs (s : State) : Nat := (s.creg .tickPeriod 0 0).toNat

/-- FLOOR follows the loaded images (R457). -/
def State.setFloor (s : State) : State :=
  let f := s.tasks.foldl (fun m p => max m (imgClock p.2.image s.periodNs)) 700
  s.setCreg .pwrMinclk 0 0 (BitVec.ofNat 32 (min f 2047))

/-- The word of the idle schedule: IDLE, DUR 1, LAST (R426). -/
def idleEntry : DWord := BitVec.ofNat 64 (1 + 2 ^ 60)

/-- The bank of the idle schedule. -/
def idleBank : SBank := { entries := Store.set 0 [] 0 idleEntry, chans := [] }

/-- Put a bank into a router's shadow, complete and of a tenant (R253, R255). -/
def State.shadowBank (s : State) (c : CoreId) (t : BitVec 4) (f : SBank → SBank) : State :=
  s.modRouter c fun r =>
    if r.swap then r
    else { r.setBank (! r.active) (f (r.bankAt (! r.active))) with ready := true, tenant := t }

/-- Load the schedules of a placement into the shadow banks (R423). [DEDUCED, log 58] -/
def State.loadSchedules (s : State) (t : BitVec 4) (im : List Byte) (p : Nat) : State :=
  let m := imgMem im
  (plBlocks im p).foldl (fun s b => s.shadowBank (BitVec.ofNat 11 b.1) t fun k => k.loaded m b.2) s

/-- Put the idle schedule into the shadow banks of cores' routers. -/
def State.loadIdle (s : State) (t : BitVec 4) (cs : List CoreId) : State :=
  cs.foldl (fun s c => s.shadowBank c t fun _ => idleBank) s

/-- The routers of a placement's schedule blocks. -/
def plRouters (im : List Byte) (p : Nat) : List CoreId := (plBlocks im p).map fun b => BitVec.ofNat 11 b.1

/-- The routers exchange their banks at the next edge. -/
def State.swapAt (s : State) (cs : List CoreId) : State := cs.foldl (fun s c => s.modRouter c fun r => { r with swap := true }) s

/-- Set or clear `TRT_CTL.LIST` of a placement's Spires that have a list. -/
def State.setLists (s : State) (im : List Byte) (p : Nat) (on : Bool) : State :=
  (plSpires im p).foldl (fun s sp =>
    if plList im p sp = 0 then s
    else s.setCreg .trtCtl sp.toNat 0 (setFld (s.creg .trtCtl sp.toNat 0) 1 1 (b2n on))) s

/-- End the Turret lists of a placement (R296, R426). -/
def State.endLists (s : State) (im : List Byte) (p : Nat) : State :=
  (plSpires im p).foldl (fun s sp => s.endList sp) (s.setLists im p false)

/-- Disable every thread of a Spire; answers how many were enabled. -/
def State.stopThreads (s : State) (sps : List Spire) : Nat × State :=
  sps.foldl (fun p sp =>
    (p.2.spireThreads sp).foldl (fun p x =>
      if x.2.enabled then (p.1 + 1, p.2.disableThread x.1) else p) p) (0, s)

/-- Cancel every stream of a Spire's cores; answers how many ran. -/
def State.stopStreams (s : State) (sps : List Spire) : Nat × State :=
  (sps.flatMap spireCores).foldl (fun p c =>
    (p.2.core c).slots.foldl (fun p x =>
      let e : Engine := .core c (BitVec.ofNat 4 x.1)
      if x.2.running then (p.1 + 1, (p.2.faultStream e 5).settleStream e) else p) p) (0, s)

/-- Cancel every WAITING dispatch slot of Spires; answers how many there were (R326). -/
def State.stopSlots (s : State) (sps : List Spire) : Nat × State :=
  sps.foldl (fun p sp =>
    (List.range 64).foldl (fun p k =>
      if p.2.slotSt sp k = .waiting then (p.1 + 1, p.2.retireSlot sp k 0x0C) else p) p) (0, s)

/-- The Spires of a tenant's partition that are powered. -/
def State.tenantSpires (s : State) (t : BitVec 4) : List Spire :=
  ((List.range 64).map fun k => (BitVec.ofNat 6 k : Spire)).filter fun sp => s.inPartition t sp && s.domOpen sp.toNat

/-- Break the locks of a thread in every Cupola of its tenant (R320). -/
def State.breakThread (s : State) (t : BitVec 4) (x : Tid) : State :=
  (s.tenantSpires t).foldl (fun s sp => s.writeCupBreak sp ((x.thread ++ x.core).setWidth 32 ||| 0x2000#32)) s

/-- Break the locks of every thread of Spires. [DEDUCED, log 92] -/
def State.breakAll (s : State) (t : BitVec 4) (sps : List Spire) : State :=
  sps.foldl (fun s sp => (s.spireThreads sp).foldl (fun s x => s.breakThread t x.1) s) s

/-- What `CANCEL` counts. -/
structure Stopped where
  threads : Nat
  streams : Nat
  slots : Nat

/-- A run replies, with the results of R424; a FAILED one with the unit of its first record (R417). -/
def State.replyRun (s : State) (h : Nat) (status : Nat) (unit : Option Nat) : State :=
  match s.task h with
  | none => s
  | some t =>
    match t.run with
    | none => s
    | some r =>
      let s := s.modTask h fun t => { t with run := none }
      let damaged := r.damaged.filter fun k => decide (r.n0 ≤ k) && decide (k ≤ t.lastTick)
      s.completeCmd r.cmd status (BitVec.ofNat 64 (unit.getD t.lastTick)) (BitVec.ofNat 64 damaged.length)
        (BitVec.ofNat 64 r.overruns)

/-- A task ends at once, as `CANCEL` does (R426): its threads, streams, slots and lists stop, its locks break, its
routers swap to the idle schedule at the next edge, and what waits for it replies with `status`. [DEDUCED, log 59] -/
def State.endTask (s : State) (h status : Nat) (unit : Option Nat) : Stopped × State :=
  match s.task h with
  | none => ({ threads := 0, streams := 0, slots := 0 }, s)
  | some t =>
    let sps := t.spires
    let a := s.stopThreads sps
    let b := a.2.stopStreams sps
    let c := b.2.stopSlots sps
    let s := (c.2.endLists t.image t.place).breakAll t.tenant sps
    let rs := plRouters t.image t.place
    let s := (s.loadIdle t.tenant rs).swapAt rs
    let s := match t.mig with
      | none => s
      | some m =>
        let s := if m.switched.isNone then s.endLists t.image m.place else s
        let s := s.modTask h fun t => { t with mig := none, old := if m.switched.isSome then t.old else none }
        s.completeCmd m.cmd status (BitVec.ofNat 64 (unit.getD t.epoch.toNat)) 0 0
    let s := s.replyRun h status unit
    ({ threads := a.1, streams := b.1, slots := c.1 }, s.retireAll)

/-! ### The tasks that a unit's fault ends (R28, R29, R465) -/

/-- Whether a tenant's window table maps a granule homed in a quadrant. [DEDUCED, log 62] -/
def State.mapsQuad (s : State) (t : BitVec 4) (q : Quad) : Bool :=
  (List.range (s.creg .winLen 0 t.toNat).toNat).any fun g =>
    match s.entryAddr 0 t g with
    | some a =>
      let e : DWord := BitVec.ofNat 64 (s.far.readNat a 8)
      bit e 0 && decide (farQuad (fld e 26 8 * 2 ^ 21) = q)
    | none => false

/-- Whether a task has a core in a quadrant or a schedule that routes through it (R29). -/
def Task.inQuad (t : Task) (q : Quad) : Bool :=
  (t.spires.any fun sp => decide (quadOf sp = q)) ||
  (plRouters t.image t.place).any fun c => decide (quadOf (spireOf c) = q)

/-- Whether a task has a stream whose other side lies on another device. [DEDUCED, log 62] -/
def State.farStreams (s : State) (t : Task) : Bool :=
  (t.spires.flatMap spireCores).any fun c => (s.core c).slots.any fun x =>
    x.2.running && (decide (aSpace (dSrc x.2.desc) = 3) || decide (aSpace (dDst x.2.desc) = 3))

/-- Whether a task uses a power domain (R28, R29, R440). [DEDUCED, log 62] -/
def State.usesDom (s : State) (t : Task) (n : Nat) : Bool :=
  if n < 64 then t.spires.contains (BitVec.ofNat 6 n)
  else if n < 68 then t.belfry.any fun b => decide (b / 4 = n - 64)
  else if n < 76 then t.inQuad (BitVec.ofNat 2 n)
  else if n < 84 then s.mapsQuad t.tenant (BitVec.ofNat 2 ((n - 76) / 2))
  else if n < 92 then s.farStreams t
  else decide (n ≠ 94)

/-- Whether a task uses the unit that a record names (R461, R465). [DEDUCED, log 60, 62] -/
def State.usesUnit (s : State) (t : Task) (kind index : Nat) : Bool :=
  match kind with
  | 0 => t.spires.contains (spireOf (BitVec.ofNat 11 index))
  | 1 => t.spires.contains (BitVec.ofNat 6 index)
  | 2 => t.inQuad (BitVec.ofNat 2 index)
  | 3 => s.usesDom t (76 + index)
  | 4 => s.farStreams t
  | 6 => t.belfry.contains index
  | 8 => s.usesDom t index
  | 10 => false
  | _ => true

/-- End every task that a predicate picks. [DEDUCED, log 60] -/
def State.endTasks (s : State) (p : Task → Bool) (status : Nat) (unit : Option Nat) : State :=
  s.tasks.foldl (fun s x => if p x.2 then (s.endTask x.1 status unit).2 else s) s

end Sys2Proof.Machine
end

