-- ==== Sys2Proof/Machine/PowerOps.lean ====
section
/-! DEFINITION. What the power manager does to a domain: requests, ramps, failure, loss of contents, closing and drain
(R440 to R449, R28, R29). -/

namespace Sys2Proof.Machine

open Sys2Proof

/-! ### The tree of domains (R440) -/

/-- A domain's parents. -/
def domParents (n : Nat) : List Nat :=
  if n < 64 then [68 + n / 16, 72 + n / 16]
  else if n < 68 then [72 + (n - 64)]
  else if n < 76 then [95]
  else if n < 84 then [72 + (n - 76) / 2]
  else if n < 92 then [72 + (n - 84) / 2]
  else if n = 92 ∨ n = 95 then [93]
  else []

/-- The domains below a domain. -/
def domChildren (n : Nat) : List Nat := (List.range 96).filter fun k => (domParents k).contains n

/-- The severity of a domain's FAILED latch. -/
def domSeverity (n : Nat) : BitVec 2 := if n = 94 then 1 else if n = 64 ∨ 92 ≤ n then 3 else 2

/-- The nominal voltage of a domain's rail in mV (R444, R509). [DEDUCED, log 68] -/
def State.railMv (s : State) (n : Nat) : Nat :=
  if 76 ≤ n ∧ n < 84 then 1100
  else if 84 ≤ n ∧ n < 93 then 750
  else (s.creg .pwrVcore 0 0).toNat

/-- The quadrant whose collector takes the power manager's reports on a domain; one that lies in none reports to Q0's
(R440, R466). -/
def domQuad (n : Nat) : Quad :=
  BitVec.ofNat 2 (if n < 64 then n / 16 else if n < 76 then n else if n < 92 then (n - 76) / 2 else 0)

/-- Whether every parent of a domain is ON. -/
def State.parentsOn (s : State) (n : Nat) : Bool := (domParents n).all s.domOpen

/-- Whether every child of a domain is OFF or FAILED. -/
def State.childrenOff (s : State) (n : Nat) : Bool :=
  (domChildren n).all fun k => decide ((s.dom k).st = .off) || decide ((s.dom k).st = .failed)

/-! ### Streams with a side in a domain (R447 to R449) -/

/-- The granules of a Far side: all of the tenant's table where a list indexes it. [DEDUCED, log 70] -/
def State.sideGranules (s : State) (st : Stream) (indexed : Bool) (ext : Int × Int) : List Nat :=
  if indexed then List.range (s.creg .winLen 0 st.tenant.toNat).toNat
  else
    let lo := ext.1.toNat / 2 ^ 21
    (List.range (ext.2.toNat / 2 ^ 21 + 1 - lo)).map (· + lo)

/-- The physical granule behind a window granule. [DEDUCED, log 70] -/
def State.granulePhys (s : State) (st : Stream) (g : Nat) : Option Nat :=
  if dPhys st.desc then some g
  else
    match st.held.find? fun e => decide (e.granule.toNat = g) with
    | some e => some (fld e.entry 26 8)
    | none =>
      match s.entryAddr 0 st.tenant g with
      | some a =>
        let e : DWord := BitVec.ofNat 64 (s.far.readNat a 8)
        if bit e 0 then some (fld e 26 8) else none
      | none => none

/-- Whether a side lies in a domain: a core's Local or the Drum of its Spire, or Far homed behind a crossbar or in a
stack. -/
def State.sideIn (s : State) (e : Engine) (st : Stream) (a : DWord) (indexed : Bool) (ext : Int × Int) (n : Nat) : Bool :=
  match aSpace a with
  | 0 => decide (n < 64) && decide (aNode a / 32 = n)
  | 1 => decide ((engineSpire e).toNat = n)
  | 2 =>
    if n < 72 ∨ 84 ≤ n then false
    else
      (s.sideGranules st indexed ext).any fun g =>
        match s.granulePhys st g with
        | some p =>
          if n < 76 then decide ((farQuad (p * 2 ^ 21)).toNat = n - 72)
          else
            decide ((farQuad (p * 2 ^ 21)).toNat = (n - 76) / 2) &&
            (indexed || decide (4096 ≤ ext.2 - ext.1) ||
             decide (ext.1.toNat / 4096 % 2 = n % 2) || decide (ext.2.toNat / 4096 % 2 = n % 2))
        | none => false
  | _ => false

/-- Whether a stream has a side in a domain, or runs in an engine of it. -/
def State.streamIn (s : State) (e : Engine) (st : Stream) (n : Nat) : Bool :=
  let d := st.desc
  decide ((engineSpire e).toNat = n) ||
  s.sideIn e st (dSrc d) (dGen d && ! dGside d) (srcExtent d) n || s.sideIn e st (dDst d) (dGen d && dGside d) (dstExtent d) n

/-- Every engine with a running stream. -/
def State.runningEngines (s : State) : List Engine :=
  (s.cores.flatMap fun p => (p.2.slots.filter fun x => x.2.running).map fun x =>
    Engine.core (BitVec.ofNat 11 p.1) (BitVec.ofNat 4 x.1)) ++
  s.spires.flatMap fun p => (p.2.turret.filter fun x => x.2.running).map fun x =>
    Engine.turret (BitVec.ofNat 6 p.1) (BitVec.ofNat 7 x.1)

/-- The engines whose streams have a side in a domain. -/
def State.enginesIn (s : State) (n : Nat) : List Engine := s.runningEngines.filter fun e => s.streamIn e (s.stream e) n

/-- What a stream that is cut has read and not written yet goes to a destination outside the domain; into the domain it
is discarded (R290, R292, R449). -/
def State.landPending (s : State) (e : Engine) (n : Nat) : State :=
  let st := s.stream e
  let d := st.desc
  let stale := decide (aSpace (dDst d) = 0) && decide ((s.core (engineRouter e)).epoch ≠ dEpoch d)
  if stale ∨ s.sideIn e st (dDst d) (dGen d && dGside d) (dstExtent d) n then s
  else
    let runs := st.pending.flatMap (·.runs)
    let s := runs.foldl (fun s r => s.writeSide e (dDst d) r.addr r.bytes) s
    s.modStream e fun st => { st with done := runs.foldl (fun n r => n + r.bytes.length) st.done }

/-- Cut a stream: its remaining writes into the domain are discarded and it completes at once with fault DOMAIN_CLOSING and
poison (R449, R28). -/
def State.cutStream (s : State) (e : Engine) (n : Nat) : State :=
  (((s.landPending e n).faultStream e 3).modStream e fun st => { st with pending := [], got := [] }).completeStream e

/-- Cut every stream with a side in a domain. -/
def State.cutStreams (s : State) (n : Nat) : State := (s.enginesIn n).foldl (fun s e => s.cutStream e n) s

/-! ### What waits on a Spire that goes (R28, R448) -/

/-- Answer a waiter of a Cupola that goes: an `swait` POISONED, a watch with its event, a lock request with the refusal
of a closed domain. -/
def State.releaseWaiter (s : State) (sp : Spire) (w : Waiter) : State :=
  match w.want with
  | .swait r tag _ =>
    let c : BitVec 16 := BitVec.ofNat 16 (1024 * sp.toNat + w.obj)
    s.answerSwait sp r tag c.toNat (s.ctrVal c) 2 none
  | .watch who _ above =>
    if above then s else s.tellWatch sp (1024 * sp.toNat + w.obj) who true
  | .lock r tag =>
    let l : BitVec 14 := BitVec.ofNat 14 (256 * sp.toNat + w.obj)
    s.answerLock r tag l 0 (some (0x12, l.setWidth 32))

/-- Everything that waits at a Spire's Cupola is answered. -/
def State.releaseWaiters (s : State) (sp : Spire) : State :=
  let ws := (s.spire sp).waiters
  ws.foldl (fun s w => s.releaseWaiter sp w) (s.modSpire sp fun k => { k with waiters := [] })

/-- A `send` that waits for credit from an endpoint of the Spire is refused (R28, R33). -/
def State.refuseSends (s : State) (sp : Spire) : State :=
  s.threads.foldl (fun s p =>
    let t : Tid := { core := BitVec.ofNat 11 (p.1 / 4), thread := BitVec.ofNat 2 p.1 }
    match (s.thread t).status with
    | .blocked (.send h _ _) =>
      let x := (s.thread t).handle h
      if x.opened ∧ spireOf (epThread x.ep).core = sp then
        (s.modThread t fun th => th.setHandle h { x with status := 3 }).poll t
      else s
    | _ => s) s

/-! ### Loss of contents (R441) -/

/-- The domain of a stored register, an S-mesh router's being its quadrant's mesh fabric (R4). -/
def regDomain (a : Nat) : Option Nat :=
  match locate a with
  | some (r, u, _) =>
    match r.row.kind with
    | .core => if 0x36000 ≤ r.row.off ∧ r.row.off < 0x38000 then some (68 + u / 512) else r.domain u
    | _ => r.domain u
  | none => none

/-- The registers of a Spire that Duboette writes back when the Spire comes up: the allocation of its counter and lock
units and the ranks of its locks (R315, R317). -/
def isUnitReg (a : Nat) : Bool :=
  match locate a with
  | some (r, _, _) => decide (r = .cupCunit) || decide (r = .cupLunit) || decide (r = .cupLcfg)
  | none => false

/-- The registers of a domain are lost, but for those that Duboette writes back. -/
def State.loseRegs (s : State) (n : Nat) : State :=
  { s with regs := s.regs.filter fun p => regDomain p.1 ≠ some n ∨ isUnitReg p.1 }

/-- A core whose Spire goes: its router stays in the mesh fabric (R4). -/
def Core.lose (k : Core) : Core := { Core.reset with router := k.router }

/-- The contents of a domain whose switches are open. -/
def State.loseDom (s : State) (n : Nat) : State :=
  let s := s.loseRegs n
  if n < 64 then
    let sp : Spire := BitVec.ofNat 6 n
    let s : State :=
      { s with
          threads := s.threads.filter fun p => p.1 / 128 ≠ n
          spires := Store.del s.spires n }
    (spireCores sp).foldl (fun s c => s.modCore c Core.lose) s
  else if n < 68 then
    let q : Quad := BitVec.ofNat 2 n
    let s : State :=
      { s with
          belfry := s.belfry.filter fun p => p.1 / 4 ≠ n - 64
          keep := { s.keep with duboette := s.keep.duboette && decide (n ≠ 64) } }
    s.modQuad q fun k =>
      { k with
          bicEdge := []
          bicWatch := []
          watchRetry := []
          bicStacks := []
          bicSpurMarks := []
          watchTenant := []
          l2 := []
          wcacheB := [] }
  else if n < 72 then
    let q : Quad := BitVec.ofNat 2 n
    let s : State := { s with links := s.links.filter fun p => p.1 / 4096 ≠ q.toNat }
    let s := s.modQuad q fun k => { k with load := none, edged := false }
    s.cores.foldl (fun s p =>
      if p.1 / 512 = q.toNat then s.modCore (BitVec.ofNat 11 p.1) fun k => { k with router := Router.reset } else s) s
  else if n < 76 then
    s.modQuad (BitVec.ofNat 2 n) fun k => { k with wcacheF := [], winv := none, winPend := [] }
  else if n < 84 then
    let gone (a : Nat) : Bool := decide (farStack a = n - 76)
    { s with
        far := { s.far with bytes := s.far.bytes.filter fun c => ! gone c.1, poison := s.far.poison.filter fun w => ! gone (8 * w) } }
  else if n < 92 then { s with ports := Store.del s.ports (n - 84) }
  else if n = 92 then { s with rings := [], cmds := s.cmds.filter fun p => match p.2.origin with | .ring _ => false | _ => true }
  else if n = 94 then { s with ocu := Mem.zeros, ocuLast := none, ocuFull := false }
  else if n = 95 then { s with ct := Clocktower.reset }
  else s

/-- Whether the failure of a domain leaves the streams with a Far side behind it to run: they read poison there, and what
they write there is discarded (R29). -/
def State.removesFar (s : State) (n : Nat) : Bool :=
  (decide (68 ≤ n) && decide (n < 76)) ||
  (decide (76 ≤ n) && decide (n < 84) && decide ((s.dom (72 + (n - 76) / 2)).st = .failed))

/-- What a domain that stops leaves behind elsewhere, and its contents lost (R28, R448). -/
def State.dropDom (s : State) (n : Nat) (cut : Bool) : State :=
  let s := if cut then s.cutStreams n else s
  let s := if n < 64 then (s.releaseWaiters (BitVec.ofNat 6 n)).refuseSends (BitVec.ofNat 6 n) else s
  s.loseDom n

/-! ### Ramps (R443 to R446) -/

/-- How many domains close their switches. -/
def State.ramping (s : State) : Nat := ((List.range 96).filter fun n => (s.dom n).st = .ramp && decide ((s.dom n).stage < 4)).length

/-- The record of a FAILED latch (R440, R444). [DEDUCED, log 68] -/
def State.recordFail (s : State) (n cause stage mv : Nat) : State :=
  s.report (domQuad n) (s.mkReport 8 (BitVec.ofNat 12 n) 0x38 (domSeverity n)
    (BitVec.ofNat 64 (cause + stage % 4 * 2 ^ 8 + mv % 2 ^ 16 * 2 ^ 10)) 0)

/-- A domain opens its switches and latches FAILED. -/
def State.latchFailed (s : State) (n cause : Nat) : State :=
  let s := s.dropDom n (! s.removesFar n)
  let s := s.modDom n fun d =>
    { d with cause := BitVec.ofNat 3 cause, pend := false, stage := 0, offAtEdge := false, since := s.ns }
  s.enterDom n .failed

/-- The domains below one that failed are removed with it (R29, R440). -/
def State.failBelow (s : State) (n : Nat) : Nat → State
  | 0 => s
  | k + 1 =>
    (domChildren n).foldl (fun s c =>
      if (s.dom c).st = .off ∨ (s.dom c).st = .failed then s.modDom c fun d => { d with pend := false }
      else (s.latchFailed c 0).failBelow c k) s

/-- A domain fails: the record, the latch, and what lies below (R28, R29, R444). -/
def State.failDom (s : State) (n cause stage mv : Nat) : State :=
  ((s.recordFail n cause stage mv).latchFailed n cause).failBelow n 4

/-- A domain fails where no ramp measured a voltage: stage and voltage of its record are free values. -/
def State.failUnmeasured (s : State) (n : Nat) : State :=
  let f := s.fresh
  f.2.failDom n 0 (fld f.1 1 0) (fld f.1 17 2)

/-- Start a ramp; a domain whose ramp limits could not be read fails at once (R444, R487). -/
def State.startRamp (s : State) (n : Nat) : State :=
  if bit s.fuses.badRamp n then s.failUnmeasured n
  else (s.modDom n fun d => { d with pend := false, stage := 0, since := s.ns }).enterDom n .ramp

/-- Start held ramps in index order while fewer than twelve run (R446). -/
def State.startHeld (s : State) : State :=
  (List.range 96).foldl (fun s n =>
    if (s.dom n).pend ∧ (s.dom n).st = .off ∧ s.ramping < 12 ∧ s.parentsOn n then s.startRamp n else s) s

/-- A refused request (R442). -/
def State.refuseReq (s : State) : State := s.setCreg .pdmDreq 0 0 (s.creg .pdmDreq 0 0 ||| 0x10000#32)

/-- An ON request (R442, R443). -/
def State.requestOn (s : State) (n : Nat) : State :=
  if 96 ≤ n ∨ s.spireDisabled n ∧ n < 64 ∨ ! s.parentsOn n ∨ (s.dom n).st = .failed then s.refuseReq
  else
    match (s.dom n).st with
    | .off | .closing => (s.modDom n fun d => { d with pend := true }).startHeld
    | _ => s.modDom n fun d => { d with offAtEdge := false }

/-- Enter CLOSING: the notice to the domain's threads and cores (R447). -/
def State.closeDom (s : State) (n : Nat) : State :=
  let s := (s.modDom n fun d => { d with offAtEdge := false, since := s.ns }).enterDom n .closing
  if n < 64 then
    (s.spireThreads (BitVec.ofNat 6 n)).foldl (fun s p => if p.2.enabled then s.raiseMachine p.1 0x3B 0 else s) s
  else if n < 68 then
    (List.range 4).foldl (fun s k => s.belfryEnter (BitVec.ofNat 4 (4 * (n - 64) + k)) 0x3B 0 0) s
  else s

/-- An OFF request (R442, R443). -/
def State.requestOff (s : State) (n : Nat) : State :=
  if 96 ≤ n ∨ n = 92 ∨ n = 93 ∨ n = 95 ∨ ! s.childrenOff n ∨ (s.dom n).st = .failed then s.refuseReq
  else
    let s := s.modDom n fun d => { d with pend := false }
    match (s.dom n).st with
    | .ramp => s.modDom n fun d => { d with offAtEdge := true }
    | .on => if s.ct.running then s.modDom n fun d => { d with offAtEdge := true } else s.closeDom n
    | _ => s

/-- A CLEAR request (R445). -/
def State.requestClear (s : State) (n : Nat) : State :=
  if 96 ≤ n ∨ (s.dom n).st ≠ .failed ∨ (s.dom n).fails = 3 then s.refuseReq
  else (s.modDom n fun d => { d with fails := d.fails + 1, cause := 0, since := s.ns }).enterDom n .off

/-- A submission through `PDM_DREQ` (R459). -/
def State.writePdmDreq (s : State) (v : Word) : State :=
  let s := s.plainWrite .pdmDreq 0 0 v
  match fld v 9 8 with
  | 1 => s.requestOn (fld v 6 0)
  | 2 => s.requestOff (fld v 6 0)
  | 3 => s.requestClear (fld v 6 0)
  | _ => s

/-- At an edge the domains whose OFF was accepted close, unless a child has been powered since (R443). -/
def State.closeAtEdge (s : State) : State :=
  (List.range 96).foldl (fun s n =>
    let d := s.dom n
    if d.offAtEdge ∧ d.st = .on then
      if s.childrenOff n then s.closeDom n else s.modDom n fun d => { d with offAtEdge := false }
    else s) s

/-- A domain is OFF, and a held ON request starts (R443, R448). -/
def State.finishOff (s : State) (n : Nat) : State :=
  let s := s.dropDom n true
  ((s.modDom n fun d => { d with stage := 0, since := s.ns }).enterDom n .off).startHeld

/-! ### Drain (R448) -/

/-- Whether a thread waits for the answer to a request. -/
def Thread.awaits (th : Thread) : Bool :=
  decide (th.posted ≠ 0) ||
  (match th.status with
   | .blocked (.swait ..) | .blocked (.lock ..) | .blocked (.atomic ..) | .blocked (.ctlrx ..) | .blocked (.chopen ..) => true
   | _ => false)

/-- Whether a packet carries an atomic that a Far crossbar or a stack has to serve. -/
def Packet.atFar (p : Packet) (n : Nat) : Bool :=
  match p.body with
  | .atomic _ _ a phys =>
    decide (aSpace a.target = 2) &&
    (if n < 76 then decide ((farQuad phys.toNat).toNat + 72 = n) else decide (farStack phys.toNat + 76 = n))
  | _ => false

/-- Whether Far bytes [a, a + n) lie behind a crossbar or in a stack. -/
def farIn (dom a n : Nat) : Bool :=
  let z := a + n - 1
  let q := if dom < 76 then dom - 72 else (dom - 76) / 2
  decide (n ≠ 0) && decide (a / 2 ^ 37 ≤ q) && decide (q ≤ z / 2 ^ 37) &&
  (decide (dom < 76) || decide (a / 4096 ≠ z / 4096) || decide (a / 4096 % 2 = dom % 2))

/-- Whether a side of a transfer of the DMA engine lies behind a crossbar or in a stack: space 1 is the tenant's window,
space 2 Far itself. -/
def State.dmaSideIn (s : State) (t : BitVec 4) (space a n dom : Nat) : Bool :=
  match space with
  | 1 => (cutRuns (2 ^ 21) (a % 2 ^ 48) n (n / 2 ^ 21 + 2)).any fun p =>
      match (s.translate duboetteCache t p.1 .read).1 with
      | some f => farIn dom f p.2
      | none => false
  | 2 => farIn dom (a % 2 ^ 48) n
  | _ => false

/-- Whether a `COPY` or `FILL` that moves has a side in a domain. -/
def State.dmaIn (s : State) (c : Cmd) (dom : Nat) : Bool :=
  decide (72 ≤ dom) && decide (dom < 84) && decide (c.st = .started) && decide (c.step = 1) &&
  (match c.op with
   | 0x20 => s.dmaSideIn c.tenant (c.par 24 1) (c.par 0 8) (c.par 16 8) dom ||
       s.dmaSideIn c.tenant (c.par 25 1) (c.par 8 8) (c.par 16 8) dom
   | 0x21 => s.dmaSideIn c.tenant (c.par 24 1) (c.par 0 8) (c.par 8 8) dom
   | _ => false)

/-- The `COPY` and `FILL` commands that move with a side in a domain. -/
def State.dmasIn (s : State) (dom : Nat) : List Nat := (s.cmds.filter fun p => s.dmaIn p.2 dom).map (·.1)

/-- Whether a CLOSING domain is drained. [DEDUCED, log 70] -/
def State.drained (s : State) (n : Nat) : Bool :=
  (s.enginesIn n).isEmpty && (s.dmasIn n).isEmpty &&
  (if n < 64 then
     let sp : Spire := BitVec.ofNat 6 n
     (s.spireThreads sp).all (fun p => ! p.2.awaits) &&
     ! (s.flight.any fun p => ! p.resp && decide (spireOf p.src = sp)) && s.turretIdle sp
   else if n < 68 then
     (List.range 4).all (fun k => (s.bel (BitVec.ofNat 4 (4 * (n - 64) + k))).block.isNone) &&
     ! (s.flight.any fun p => ! p.resp && decide (p.src = servicePort (BitVec.ofNat 2 n)))
   else if 72 ≤ n ∧ n < 84 then ! s.flight.any fun p => p.atFar n
   else if 84 ≤ n ∧ n < 92 then
     let p := Store.get PortSt.reset s.ports (n - 84)
     p.replay.isEmpty && p.waiting.isEmpty && p.active.isEmpty
   else true)

end Sys2Proof.Machine
end

