-- ==== Sys2Proof/Machine/BootOps.lean ====
section
/-! DEFINITION. The Keep's boot, device reset and device OFF (R450, R455, R478 to R491). -/

namespace Sys2Proof.Machine

open Sys2Proof

/-! ### Resets (R450, R478) -/

/-- The domains after a reset: OFF, but for those that stay FAILED and the Keep where it stays powered; `FAILS` is kept
(R445, R478). -/
def State.domsAfter (s : State) (keepOn : Bool) : Store Dom :=
  (List.range 96).foldl (fun st n =>
    let d := s.dom n
    let st' : DomSt := if d.st = .failed then .failed else if n = 93 ∧ keepOn then .on else .off
    Store.set Dom.reset st n { Dom.reset with st := st', fails := d.fails, cause := d.cause }) []

/-- Registers that are always on, or that belong to the Keep (R440, R459, R500). -/
def keptReg (keepOn : Bool) (a : Nat) : Bool :=
  (decide (0x200000 ≤ a) && decide (a < 0x300000)) || (keepOn && decide (0x400000 ≤ a) && decide (a < 0x500000))

/-- Every switched domain passes through OFF, but for the Keep where `keepOn`; what goes out of the device stays out. -/
def State.clearDevice (s : State) (keepOn : Bool) : State :=
  { State.reset with
      pending := s.pending
      now := s.now
      ns := s.ns
      free := s.free
      nextId := s.nextId
      regs := s.regs.filter fun p => keptReg keepOn p.1
      doms := s.domsAfter keepOn
      faultSrc := s.faultSrc &&& 0x20#6
      power := s.power
      fuses := s.fuses
      keep := s.keep
      toHost := s.toHost
      smbus := s.smbus
      smbHeld := s.smbHeld
      tickOut := s.tickOut }

/-- The device goes OFF with a cause; only the always-on rail stays (R450). -/
def State.devOff (s : State) (cause : Nat) : State :=
  let s := s.clearDevice false
  let s := s.setCreg .pdmLastoff 0 0 (BitVec.ofNat 32 cause)
  let p : Power :=
    { Power.reset with
        phase := .off
        vrGood := s.power.vrGood
        thermtrip := s.power.thermtrip
        straps := s.power.straps
        lastOff := BitVec.ofNat 4 cause }
  let k : Keep := { Keep.reset with flash := s.keep.flash, lifecycle := s.keep.lifecycle }
  { s with power := p, keep := k }

/-! ### The slots (R480 to R483) -/

/-- A field of an image header. -/
def SlotHdr.n (im : SlotImage) (off n : Nat) : Nat := leNat ((im.header.drop off).take n)

/-- Bytes of an image header. -/
def SlotHdr.bytes (im : SlotImage) (off n : Nat) : List Byte := (im.header.drop off).take n

/-- The digest that header bytes hold, as the digest function gives it. -/
def SlotHdr.digest (im : SlotImage) (off : Nat) : BitVec 384 := BitVec.ofNat 384 (leNat (SlotHdr.bytes im off 48))

/-- The first check of R482 that a slot fails, 0 where it passes. -/
def State.slotCheck (s : State) (im : SlotImage) : Nat :=
  let len := SlotHdr.n im 12 4
  let key := SlotHdr.bytes im 24 96
  if SlotHdr.n im 0 4 ≠ 0x5045454B ∨ im.header.length ≠ 512 ∨ len < 4096 ∨ 67108352 < len ∨ im.body.length < len then 1
  else if ! ((List.range 4).any fun k =>
      ! bit s.fuses.revoked k && decide (s.fuses.keys[k]? = some (Config.sha384 key))) then 2
  else if SlotHdr.n im 8 4 % 64 < s.fuses.svn then 3
  else if ! Config.ecdsaOk key (im.header.take 120 ++ im.header.drop 216) (SlotHdr.bytes im 120 96) then 4
  else if SlotHdr.digest im 216 ≠ Config.sha384 (im.body.take len) then 5
  else 0

/-- What a slot of the flash holds; erased flash where nothing was programmed. -/
def State.slotImage (s : State) (b : Bool) : SlotImage := (s.keep.flash[b2n b]?).getD { header := [], body := [] }

/-- The booted image. -/
def State.bootImage (s : State) : SlotImage := s.slotImage s.keep.slot

/-! ### The boot (R479) -/

/-- Whether this device is a manager by its strap. -/
def State.mgrStrap (s : State) : Bool := bit s.power.straps 3

/-- Request several domains ON; they ramp in index order as their parents are ON (R446). -/
def State.rampAll (s : State) (ns : List Nat) : State :=
  (ns.foldl (fun s n => if (s.dom n).st = .off then s.modDom n fun d => { d with pend := true } else s) s).startHeld

/-- The host interface ramps on a manager (R479). -/
def State.rampHost (s : State) : State := if s.mgrStrap then s.rampAll [92] else s

/-- The Clocktower, the mesh fabrics, the Far crossbars and the HBM pairs. [DEDUCED, log 71] -/
def bootDomains : List Nat := 95 :: (List.range 16).map (· + 68)

/-- CCLK and VDD_CORE before the domains ramp (R455). -/
def State.bootClock (s : State) : State :=
  (s.setCreg .pwrCclk 0 0 0x5780578).setCreg .pwrVcore 0 0 ((Config.vf 1400).setWidth 32)

/-- The registers whose reset value a strap or the tenant's number gives: the PF's tenant is active, `LEGACY` and `ISMGR`
follow their straps (R400, R434, R508). -/
def State.strapRegs (s : State) : State :=
  let s := (List.range 16).foldl (fun s t =>
    s.setCreg .partCfg t 0 (BitVec.ofNat 32 (b2n (t = 0) + b2n (bit s.power.straps 4) * 4))) s
  s.setCreg .skbGroup 0 0 (BitVec.ofNat 32 (b2n s.mgrStrap * 2 ^ 16))

/-- The bytes that measurement 4 measures: the fuse map, trims excepted (R488). -/
def Fuses.measured (f : Fuses) : List Byte :=
  Config.fuseBytes ++ (leBytes 8 f.disable.toNat ++ (leBytes 1 f.part.toNat ++ (leBytes 6 f.serial.toNat ++
    (f.keys.flatMap (fun k => leBytes 48 k.toNat) ++ (leBytes 1 f.revoked.toNat ++ (leBytes 48 f.debugKey.toNat ++
      (leBytes 1 f.svn ++ (leBytes 1 f.lifecycle.toNat ++
        (f.slots.flatMap (fun p => leBytes 16 p.1.toNat ++ leBytes 48 p.2.toNat) ++
          f.repair.flatMap fun p => leBytes 2 p.1 ++ leBytes 1 p.2.toNat)))))))))

/-- Steps 3 to 7 of R479, with the fuses sensed: fuse errors stop the boot, END boots nothing, otherwise a slot is chosen
and the first domains ramp; with both slots rejected the device enters recovery. -/
def State.bootFromKeep (s : State) : State :=
  if s.fuses.stop then ({ s with keep := { s.keep with stopped := true } } : State).assertFault 5
  else
    let lc := s.fuses.lifecycle
    let s : State :=
      { s with
          keep :=
            { s.keep with
                lifecycle := lc
                booted := false
                duboette := false
                nonce := none
                rma := false
                upload := []
                fuseDigest := Config.sha384 s.fuses.measured } }
    let s := (s.setCreg .keepLc 0 0 (lc.setWidth 32)).setCreg .keepSvn 0 0 (BitVec.ofNat 32 s.fuses.svn)
    let s := (s.setCreg .keepSerialLo 0 0 (s.fuses.serial.setWidth 32)).setCreg .keepSerialHi 0 0
      ((s.fuses.serial.extractLsb' 32 16).setWidth 32)
    let dbg := setFld (s.creg .keepDbg 0 0) 1 0 (if lc = 0 ∧ ! s.fuses.badDebug then 2 else 0)
    let s := s.setCreg .keepDbg 0 0 (setFld dbg 19 16 s.fuses.slots.length)
    let s := s.strapRegs.rampHost
    if lc = 3 then { s with power := { s.power with phase := .on } }
    else
      let first := bit (s.creg .keepCtl 0 0) 0
      let c1 := s.slotCheck (s.slotImage first)
      let c2 := if c1 = 0 then 0 else s.slotCheck (s.slotImage (! first))
      let fa := if first then c2 else c1
      let fb := if first then c1 else c2
      let stat := s.creg .keepBootstat 0 0
      let stat := setFld (setFld stat 3 1 fa) 6 4 fb
      if c1 ≠ 0 ∧ c2 ≠ 0 then
        let s := (s.setCreg .keepBootstat 0 0 (setFld stat 7 7 1)).assertFault 4
        ({ s with power := { s.power with phase := .on } } : State).rampAll [92]
      else
        let slot := if c1 = 0 then first else ! first
        let s := s.setCreg .keepBootstat 0 0 (setFld (setFld stat 7 7 0) 0 0 (b2n slot))
        let s : State := { s with keep := { s.keep with booted := true, slot := slot } }
        s.bootClock.rampAll bootDomains

/-- Duboette's region of Far (R484). -/
def duboetteBase : Nat := 0x11C0000000

/-- A Belfry core starts in Machine at an address, its registers as a reset leaves them (R121, R478).
[DEDUCED, log 71] -/
def State.startBelfry (s : State) (b : BCore) (pc : DWord) : State :=
  s.modBel b fun _ => { Belfry.reset with held := false, pc := pc }

/-- `BFC_ENTRY` of a quadrant. -/
def State.bfcEntry (s : State) (q : Quad) : DWord :=
  (s.creg .bfcEntryHi q.toNat 0) ++ (s.creg .bfcEntryLo q.toNat 0)

/-- The cores of a cluster whose HOLD bit is clear start at `BFC_ENTRY`. [DEDUCED, log 71] -/
def State.releaseCluster (s : State) (q : Quad) : State :=
  (List.range 4).foldl (fun s k =>
    if bit (s.creg .bfcCtl q.toNat 0) k then s
    else s.startBelfry (q ++ BitVec.ofNat 2 k) (s.bfcEntry q)) s

/-- Whether a domain still has to come up. [DEDUCED, log 71] -/
def State.coming (s : State) (n : Nat) : Bool := (s.dom n).pend || decide ((s.dom n).st = .ramp)

/-- Duboette sets up its error hub: a worker forwards its records, and every device of the system has one window
(R474). [DESIGN CHOICE, log 114] -/
def State.bootErrors (s : State) : State :=
  (if s.mgrStrap then s else s.setCreg .ehCtl 0 0 (s.creg .ehCtl 0 0 ||| 1#32)).setCreg .ehWin 0 0 100

/-- What the boot does next after a domain has come up or failed (steps 2, 8 and 9 of R479). [DEDUCED, log 71] -/
def State.bootStep (s : State) : State :=
  if s.power.phase ≠ .boot ∨ ! s.domOpen 93 ∨ s.keep.stopped then s
  else if ! s.keep.booted then s.bootFromKeep
  else if bootDomains.any s.coming then s
  else if ! s.domOpen 64 then
    if s.coming 64 ∨ ! s.parentsOn 64 then s
    else
      let im := s.bootImage
      let body := im.body.take (SlotHdr.n im 12 4)
      let s : State := { s with far := s.far.store duboetteBase body }
      s.rampAll [64]
  else
    let im := s.bootImage
    let s := s.bootErrors.startBelfry 0 (BitVec.ofNat 64 (duboetteBase + SlotHdr.n im 16 4))
    let s : State := { s with keep := { s.keep with duboette := true }, power := { s.power with phase := .on, window := s.ns } }
    s.rampAll [65, 66, 67]

/-- A device reset: step 4 of R479 onwards with the fuses as sensed; `KEEP_BOOTSTAT.BOOTS` counts it (R478). -/
def State.resetDevice (s : State) : State :=
  let s := s.clearDevice true
  let st := s.creg .keepBootstat 0 0
  let s := s.setCreg .keepBootstat 0 0 (setFld st 23 16 (min 255 (fld st 23 16 + 1)))
  let k : Keep :=
    { Keep.reset with flash := s.keep.flash, lifecycle := s.keep.lifecycle, slot := s.keep.slot }
  let p : Power :=
    { s.power with
        phase := .boot
        verdict := .none
        windows := 0
        avs := none
        perstWake := false
        match_ := false
        l1Exit := false
        used := [] }
  ({ s with power := p, keep := k } : State).bootStep

end Sys2Proof.Machine
end

