-- ==== Sys2Proof/Machine/SkyLink.lean ====
section
/-! DEFINITION. The Skybridge link layer: ports, training, flits, replay, credits, routing and the arbiter
(R369 to R389, R398, R399). -/

namespace Sys2Proof.Machine

open Sys2Proof

/-! ### Packets as bytes (R375) -/

/-- The first 28 bytes of a packet's header. -/
def pktHead (p : SkbPacket) : List Byte :=
  leBytes 8 (p.dst.toNat + p.src.toNat * 2 ^ 10 + p.ptype.toNat * 2 ^ 20 + p.tenant.toNat * 2 ^ 24 +
    p.epoch.toNat * 2 ^ 28 + p.tag.toNat * 2 ^ 36 + p.data.length / 8 % 1024 * 2 ^ 52 + b2n p.poison * 2 ^ 62) ++
  (leBytes 8 p.addr.toNat ++ (leBytes 8 p.arg.toNat ++ leBytes 4 0))

/-- A packet's bytes, with the end-to-end check that holds where `e2eOk` says so. -/
def pktBytes (p : SkbPacket) : List Byte :=
  let h := pktHead p
  let c := crc32 (h ++ p.data)
  h ++ (leBytes 4 (if p.e2eOk then c else ~~~ c).toNat ++ p.data)

/-- The packet that bytes carry. -/
def parsePkt (bs : List Byte) : SkbPacket :=
  let w : DWord := BitVec.ofNat 64 (leNat (bs.take 8))
  let n (off k : Nat) : Nat := leNat ((bs.drop off).take k)
  let data := (bs.drop 32).take (8 * fld w 61 52)
  { dst := w.setWidth 10, src := w.extractLsb' 10 10, ptype := w.extractLsb' 20 4, tenant := w.extractLsb' 24 4,
    epoch := w.extractLsb' 28 8, tag := w.extractLsb' 36 16, poison := bit w 62, addr := BitVec.ofNat 64 (n 8 8),
    arg := BitVec.ofNat 64 (n 16 8), e2eOk := decide (n 28 4 = (crc32 (bs.take 28 ++ data)).toNat), data := data }

/-- The class code of a packet type on VC `vc` (R376). -/
def pktClass (ty : BitVec 4) (vc : Nat) : BitVec 3 :=
  let base := if ty = 14 ∨ ty = 15 then 0 else if ty = 0 ∨ ty = 1 ∨ ty = 8 then 3 else if ty = 2 ∨ ty = 3 then 5 else 1
  BitVec.ofNat 3 (if base = 0 then 0 else base + vc)

/-- The credits of a class at a port input, in flits (R377). -/
def clsCredits (c : Nat) : Nat := if c = 0 then 4 else if c ≤ 2 then 64 else 1024

/-- The flits of one credit unit (R373). -/
def creditUnit (c : Nat) : Nat := if c ≤ 2 then 1 else 16

/-! ### Ports (R371, R372, R400) -/

/-- A port's record. -/
def State.port (s : State) (p : Nat) : PortSt := Store.get PortSt.reset s.ports p

/-- Change a port's record. -/
def State.modPort (s : State) (p : Nat) (f : PortSt → PortSt) : State :=
  { s with ports := Store.set PortSt.reset s.ports p (f (s.port p)) }

/-- `SKB_STAT.STATE`. -/
def State.portState (s : State) (p : Nat) : Nat := fld (s.creg .skbStat p 0) 2 0

/-- Enter a state. -/
def State.setPort (s : State) (p st : Nat) : State := s.setCreg .skbStat p 0 (setFld (s.creg .skbStat p 0) 2 0 st)

/-- Whether a port carries flits. -/
def State.portUp (s : State) (p : Nat) : Bool := decide (s.portState p = 2) || decide (s.portState p = 3)

/-- Whether a port has latched FAILED. -/
def State.portFailed (s : State) (p : Nat) : Bool := decide (s.portState p = 4)

/-- The role of a port. -/
def State.portRole (s : State) (p : Nat) : Nat := fld (s.creg .skbCtl p 0) 7 4

/-- A report of a port, through the collector of its quadrant. -/
def State.reportPort (s : State) (p : Nat) (cls : Byte) (sev : BitVec 2) (detail : DWord) (tenant : BitVec 4) : State :=
  s.report (BitVec.ofNat 2 (p / 2)) (s.mkReport 4 (BitVec.ofNat 12 p) cls sev detail tenant)

/-- A training attempt starts; after the first UP it counts and raises RETRAIN (R371, R400, R402). -/
def State.startTraining (s : State) (p : Nat) : State :=
  let s := s.setPort p 1
  if (s.port p).wasUp then
    let n := (s.creg .skbRetrains p 0).toNat
    (s.setCreg .skbRetrains p 0 (BitVec.ofNat 32 (min 0xFFFF (n + 1)))).raiseBic (BitVec.ofNat 2 (p / 2)) (0x101 + 8 * p)
  else s

/-- The link layer demands a retrain, with its record (R374, R462). [DEDUCED, log 80] -/
def State.linkRetrain (s : State) (p : Nat) : State :=
  ((s.reportPort p 0x44 0 0 0).startTraining p).modPort p fun k => { k with resent := 0 }

/-! ### Routes (R381 to R386) -/

/-- The coordinate of a device ID along an axis: 0 X, 1 Y, 2 Z (R17). -/
def devCoord (d : BitVec 10) (axis : Nat) : Nat :=
  match axis with
  | 0 => d.toNat / 64
  | 1 => d.toNat / 8 % 8
  | _ => d.toNat % 8

/-- A device ID with another coordinate along an axis. -/
def withCoord (d : BitVec 10) (axis k : Nat) : BitVec 10 :=
  BitVec.ofNat 10 (match axis with
    | 0 => 64 * k + d.toNat % 64
    | 1 => d.toNat / 64 * 64 + 8 * k + d.toNat % 8
    | _ => d.toNat / 8 * 8 + k)

/-- The size of the torus along an axis. -/
def State.dimSize (s : State) (axis : Nat) : Nat :=
  let d := s.creg .skbDims 0 0
  1 + (match axis with
    | 0 => fld d 3 0
    | 1 => fld d 6 4
    | _ => fld d 10 8)

/-- A hop of a route: the axis, whether it goes in the + direction, the next device, the VC. -/
structure Hop where
  axis : Nat
  plus : Bool
  next : BitVec 10
  vc : Nat

/-- The next hop of a packet from this device: X, then Y, then Z, the short way round, on VC1 from a ring's dateline on
(R385, R386). -/
def State.hop (s : State) (src dst : BitVec 10) : Option Hop :=
  [0, 1, 2].findSome? fun axis =>
    let k := s.dimSize axis
    let cur := devCoord s.devId axis
    let d := (devCoord dst axis + k - cur) % k
    if d = 0 then none
    else
      let plus := decide (d ≤ k / 2)
      let n := if plus then (cur + 1) % k else (cur + k - 1) % k
      let from_ := devCoord src axis
      some { axis := axis, plus := plus, next := withCoord s.devId axis n,
             vc := b2n (if plus then decide (n < from_) else decide (from_ < n)) }

/-- The port of a role. -/
def State.rolePort (s : State) (role : Nat) : Option Nat := (List.range 8).find? fun p => s.portRole p = role

/-- The STANDBY port that backs a port. -/
def State.standbyOf (s : State) (p : Nat) : Option Nat :=
  (List.range 8).find? fun q => s.portRole q = 9 && decide (fld (s.creg .skbCtl q 0) 10 8 = p)

/-- The ports that lead along a hop, the one that a flow uses first: an X port and its X2 port share by bit 0 of the XOR of
the IDs, each stands in for the other, and so does a STANDBY (R382, R383). -/
def State.hopPorts (s : State) (h : Hop) (src dst : BitVec 10) : List Nat :=
  let r := 2 * h.axis + (if h.plus then 1 else 2)
  let main := s.rolePort r
  let second := if h.axis = 0 then s.rolePort (r + 6) else none
  let odd := bit (src ^^^ dst) 0
  let two := if odd then [second, main] else [main, second]
  let base := two.filterMap id
  base ++ base.filterMap s.standbyOf

/-- The port that a packet leaves by, none where its route is broken (R388). -/
def State.outPort (s : State) (h : Hop) (src dst : BitVec 10) : Option Nat :=
  (s.hopPorts h src dst).find? fun p => ! s.portFailed p

/-! ### Sending (R373, R374, R377, R379) -/

/-- Cut bytes into the payloads of flits. -/
def flitChunks (bs : List Byte) : Nat → List (List Byte)
  | 0 => []
  | n + 1 => if bs.length ≤ 246 then [bs] else bs.take 246 :: flitChunks (bs.drop 246) n

/-- The number of flits of a packet. -/
def pktFlits (p : SkbPacket) : Nat := (32 + p.data.length + 245) / 246

/-- The 48-bit header of a DATA flit. -/
def flitHeader (seq ack : BitVec 12) (cls : BitVec 3) (sop eop : Bool) (nb ccls ccnt : Nat) : Nat :=
  1 + seq.toNat * 2 ^ 2 + ack.toNat * 2 ^ 14 + cls.toNat * 2 ^ 26 + b2n sop * 2 ^ 29 + b2n eop * 2 ^ 30 + nb * 2 ^ 31 +
    ccls * 2 ^ 39 + ccnt * 2 ^ 42

/-- A flit's 256 bytes: header, payload, CRC. -/
def flitBytes (header : Nat) (payload : List Byte) : List Byte :=
  let b := leBytes 6 header ++ (payload ++ List.replicate (246 - payload.length) 0)
  b ++ leBytes 4 (crc32 b).toNat

/-- The class whose credits the next flit returns, and how many units. -/
def PortSt.give (k : PortSt) : Nat × Nat :=
  match (List.range 7).find? fun c => decide (creditUnit c ≤ Store.get 0 k.owed c) with
  | some c => (c, min 63 (Store.get 0 k.owed c / creditUnit c))
  | none => (7, 0)

/-- The fault injector acts on a transmitted DATA flit while debug access is open: an event in every RATE flits,
periodically or at random (R398, R399). -/
def State.faultEvent (s : State) (p : Nat) : Bool × State :=
  let ctl := s.creg .skbTfiCtl p 0
  if fld ctl 1 0 = 0 ∨ fld (s.creg .keepDbg 0 0) 1 0 = 0 then (false, s)
  else
    let rate := (s.creg .skbTfiRate p 0).toNat
    let f := s.fresh
    let hit := if bit ctl 2 then decide (f.1.toNat % rate = 0) else decide (rate ≤ (s.port p).tfi + 1)
    let s := if bit ctl 2 then f.2 else s
    let s := s.modPort p fun k => { k with tfi := if hit then 0 else k.tfi + 1 }
    (hit, if hit then s.bump .skbTfiCount p 0 1 else s)

/-- Send one flit: it takes the next SEQ, a credit and a place in the replay buffer. -/
def State.sendFlit (s : State) (p : Nat) (q : SkbQueued) (sop eop : Bool) (payload : List Byte) : State :=
  let s := (s.faultEvent p).2
  let k := s.port p
  let g := k.give
  let h := flitHeader k.seq (k.expect - 1) q.cls sop eop payload.length g.1 g.2
  let s := s.modPort p fun k =>
    { k with
        seq := k.seq + 1
        replay := k.replay ++ [{ seq := k.seq, sop := sop, queued := q, bytes := flitBytes h payload }]
        used := Store.set 0 k.used q.cls.toNat (Store.get 0 k.used q.cls.toNat + 1)
        owed := if g.1 = 7 then k.owed else Store.set 0 k.owed g.1 (Store.get 0 k.owed g.1 - g.2 * creditUnit g.1) }
  s.bump .skbTxdata p 0 1

/-- The packets on their way out after a flit of one of them. -/
def keepActive (q : SkbQueued) (rest : List (List Byte)) (l : List SkbActive) : List SkbActive :=
  l.filter (fun x => x.queued.cls ≠ q.cls) ++ (if rest.isEmpty then [] else [{ queued := q, rest := rest }])

/-- Send the next flit of a packet (R375). -/
def State.sendOn (s : State) (p : Nat) (q : SkbQueued) (first : Bool) : List (List Byte) → State
  | [] => s
  | c :: r => (s.sendFlit p q first r.isEmpty c).modPort p fun k => { k with active := keepActive q r k.active }

/-- Send the first flit of a packet. -/
def State.startPkt (s : State) (p : Nat) (q : SkbQueued) : State := s.sendOn p q true (flitChunks (pktBytes q.pkt) 20)

/-- Whether the credits of a class and VC and the replay buffer take one more flit (R374, R377). -/
def PortSt.fits (k : PortSt) (cls : Nat) : Bool :=
  decide (Store.get 0 k.used cls < clsCredits cls) && decide (k.replay.length < 2048)

/-- Whether a packet of a class and VC may start: none of it is on its way out (R375). -/
def PortSt.mayStart (k : PortSt) (q : SkbQueued) : Bool :=
  k.fits q.cls.toNat && ! k.active.any fun a => a.queued.cls = q.cls

/-- The oldest waiting packet of each input in a class and VC that may start. -/
def PortSt.heads (k : PortSt) (cls : Nat) : List SkbQueued :=
  (List.range 9).filterMap fun i =>
    (k.waiting.find? fun q => q.cls.toNat = cls && decide (q.inp = i)).filter k.mayStart

/-- The packet that the arbiter starts in a class and VC: one that has waited longer than `SKB_STARVE`, else the next input
in turn (R379). -/
def State.pickVc (s : State) (p cls : Nat) : Option SkbQueued :=
  let k := s.port p
  let hs := k.heads cls
  let last := Store.get 8 k.lastInp cls
  match hs.find? fun q => decide (q.since + (s.creg .skbStarve 0 0).toNat < s.ns) with
  | some q => some q
  | none => (hs.find? fun q => decide (last < q.inp)).or hs.head?

/-- The packet that the arbiter starts in a class: its VCs alternate. -/
def State.pickClass (s : State) (p base : Nat) : Option SkbQueued :=
  if base = 0 then s.pickVc p 0
  else
    let next := 1 - Store.get 1 (s.port p).lastVc base
    (s.pickVc p (base + next)).or (s.pickVc p (base + 1 - next))

/-- The packet that the arbiter starts: TICK, then RSP, CTRL and REQ, of which REQ has one start in four (R379). -/
def State.pick (s : State) (p : Nat) : Option SkbQueued :=
  let req := s.pickClass p 3
  (s.pickClass p 0).or (if 3 ≤ (s.port p).skips ∧ req.isSome then req else
    (s.pickClass p 5).or ((s.pickClass p 1).or req))

/-- Whether the device forwards: its Clocktower, Keep, PDM and host interface have not failed (R30). -/
def State.forwards (s : State) : Bool :=
  ! s.power.failed && ([92, 93, 95].all fun n => decide ((s.dom n).st ≠ .failed))

/-- Start the packet that the arbiter has chosen; an injected REORDER puts the next packet of its class and VC before it
where both fill one flit (R398). -/
def State.startServe (s : State) (p : Nat) (q : SkbQueued) : State :=
  let k := s.port p
  let rest := k.waiting.erase q
  let c := q.cls.toNat
  let base := if c = 0 then 0 else if c ≤ 2 then 1 else if c ≤ 4 then 3 else 5
  let swap := if fld (s.creg .skbTfiCtl p 0) 1 0 = 3 ∧ (s.faultEvent p).1 ∧ pktFlits q.pkt = 1 then
      rest.find? fun x => x.cls = q.cls && decide (pktFlits x.pkt = 1)
    else none
  let mark (rest : List SkbQueued) : State := s.modPort p fun k =>
    { k with
        waiting := rest
        lastInp := Store.set 8 k.lastInp c q.inp
        lastVc := if base = 0 then k.lastVc else Store.set 1 k.lastVc base (c - base)
        skips := if base = 3 then 0 else if (s.pickClass p 3).isSome then k.skips + 1 else k.skips }
  match swap with
  | some x => ((mark (rest.erase x)).startPkt p x).startPkt p q
  | none => (mark rest).startPkt p q

/-- The packet on its way out that goes on: one of the TICK class, or the oldest of another; it needs a credit. -/
def PortSt.goesOn (k : PortSt) (tick : Bool) : Option SkbActive :=
  k.active.find? fun a => decide (a.queued.cls = 0) == tick && k.fits a.queued.cls.toNat

/-- A port that is up sends one flit: a TICK flit that waits goes at the next flit boundary; otherwise a packet that has
started goes on, and where none can, the arbiter starts one (R377, R379). Through-traffic of a device that forwards no
more is lost (R30). [DESIGN CHOICE, log 80] -/
def State.serve (s : State) (p : Nat) : State :=
  let s := if s.forwards then s
    else s.modPort p fun k => { k with waiting := k.waiting.filter fun q => decide (q.inp = 8) }
  if ! s.portUp p then s
  else
    match (s.port p).goesOn true with
    | some a => s.sendOn p a.queued false a.rest
    | none =>
      match s.pickVc p 0 with
      | some q => s.startServe p q
      | none =>
        match (s.port p).goesOn false with
        | some a => s.sendOn p a.queued false a.rest
        | none =>
          match s.pick p with
          | some q => s.startServe p q
          | none => s

/-! ### Injection, broken routes and pairs (R383, R388) -/

/-- The response that answers a request (R375). -/
def responseType (ty : BitVec 4) : Option (BitVec 4) :=
  match ty.toNat with
  | 0 => some 3
  | 1 => some 2
  | 4 => some 5
  | 6 => some 7
  | 9 => some 10
  | _ => none

/-- A packet is in the list of those received whole, with the port at which it came (8 is the device itself). -/
def State.received (s : State) (p : SkbPacket) : State :=
  if s.skbIn.any fun x => x.1 = p then s else { s with skbIn := s.skbIn ++ [(p, 8)] }

/-- Send a response: through the torus, or to this device itself. -/
def State.sendPkt (s : State) (p : SkbPacket) : State :=
  if p.dst = s.devId then s.received p else { s with toSkb := s.toSkb ++ [p] }

/-- Answer a request with data, status and poison. -/
def State.respond (s : State) (p : SkbPacket) (poison : Bool) (addr arg : DWord) (data : List Byte) : State :=
  match responseType p.ptype with
  | none => s
  | some ty =>
    s.sendPkt { dst := p.src, src := s.devId, ptype := ty, tenant := p.tenant, epoch := p.epoch, tag := p.tag,
                poison := poison, addr := addr, arg := arg, e2eOk := true, data := data }

/-- The device that sent a segment of a collective hears that the device beyond it cannot be reached (R393). -/
def State.tellBroken (s : State) (next : BitVec 10) (p : SkbPacket) : State :=
  if p.ptype = 8 ∧ fld p.addr 42 40 < 4 then
    s.sendPkt { dst := p.src, src := s.devId, ptype := 8, tenant := p.tenant, epoch := p.epoch, tag := 0, poison := false,
                addr := setFld p.addr 42 40 5, arg := next.setWidth 64, e2eOk := true, data := [] }
  else s

/-- A packet whose route is broken is discarded: a record names the port, its suspect is the device beyond it, and a
request is answered with POISON; an operation on a counter of a device that cannot be reached is refused with
`DOMAIN_CLOSING`, as at a removed Spire (R31, R388); a collective with a device that cannot be reached fails (R393).
[DEDUCED, log 81] -/
def State.discardPkt (s : State) (h : Hop) (p : SkbPacket) : State :=
  let port := (s.hopPorts h p.src p.dst).headD 0
  let s := s.bump .skbDiscard 0 0 1
  let s := s.reportPort port 0x41 2 (BitVec.ofNat 64 (0xFFFF + h.next.toNat * 2 ^ 16)) p.tenant
  (s.respond p true 0 (if p.ptype = 6 then 0x1200000000 else 0) []).tellBroken h.next p

/-- The device at which a packet entered the torus: the manager that has sent an ATOMIC on, else its source (R397). -/
def pktEntered (p : SkbPacket) : BitVec 10 :=
  if p.ptype = 4 ∧ p.dst = BitVec.ofNat 10 (leNat (p.data.take 8) / 2 ^ 16) then Config.groupManager p.dst else p.src

/-- Put a packet at the output that its route takes. -/
def State.routePkt (s : State) (inp : Nat) (p : SkbPacket) : State :=
  match s.hop (pktEntered p) p.dst with
  | none => s.received p
  | some h =>
    match s.outPort h p.src p.dst with
    | none => s.discardPkt h p
    | some o =>
      let q : SkbQueued := { cls := pktClass p.ptype h.vc, inp := inp, since := s.ns, pkt := p }
      s.modPort o fun k => { k with waiting := k.waiting ++ [q] }

/-- With routing enabled what the device sends enters the torus, and every port serves one packet. -/
def State.driveSkybridge (s : State) : State :=
  let s := if bit (s.creg .skbRtctl 0 0) 0 then
      s.toSkb.foldl (fun s p => s.routePkt 8 p) { s with toSkb := [] }
    else s
  (List.range 8).foldl State.serve s

/-- The ports that carry a port's traffic for it. -/
def State.partners (s : State) (p : Nat) : List Nat :=
  let r := s.portRole p
  let own := if r = 1 ∨ r = 2 then (s.rolePort (r + 6)).toList
    else if r = 7 ∨ r = 8 then (s.rolePort (r - 6)).toList
    else if r = 9 then [fld (s.creg .skbCtl p 0) 10 8]
    else []
  (own ++ (s.standbyOf p).toList).filter fun q => ! s.portFailed q

/-- The packets that flits belong to, in order. -/
def packetsOf : List SentFlit → Option SkbQueued → List SkbQueued
  | [], _ => []
  | f :: r, last =>
    if ! f.sop ∧ last = some f.queued then packetsOf r last else f.queued :: packetsOf r (some f.queued)

/-- What a port still has to send: the packets of flits, then those on their way out of which no such flit is left, then
those that wait. -/
def PortSt.unsent (k : PortSt) (flits : List SentFlit) : List SkbQueued :=
  let l := packetsOf flits none
  l ++ ((k.active.map (·.queued)).filter fun q => ! l.contains q) ++ k.waiting

/-- A port has latched FAILED: its partner takes its traffic over from the last SEQ that the neighbour reports, which is a
free value; without one the packets are discarded (R383, R388). [DEDUCED, log 80] -/
def State.moveTraffic (s : State) (p : Nat) : State :=
  let k := s.port p
  match s.partners p with
  | q :: _ =>
    let f := s.fresh
    let last : BitVec 12 := f.1.setWidth 12
    let rest := match k.replay.findIdx? fun x => x.seq = last with
      | some i => k.replay.drop (i + 1)
      | none => k.replay
    let s := f.2.modPort p fun k => { k with replay := [], waiting := [], active := [] }
    s.modPort q fun x => { x with waiting := k.unsent rest ++ x.waiting }
  | [] =>
    let s := s.modPort p fun k => { k with replay := [], waiting := [], active := [] }
    (k.unsent k.replay).foldl (fun s q => s.routePkt q.inp q.pkt) s

/-! ### The replay (R374) -/

/-- An ACK covers the flits up to its SEQ. [DEDUCED, log 80] -/
def State.takeAck (s : State) (p : Nat) (a : BitVec 12) : State :=
  match (s.port p).replay.findIdx? fun f => f.seq = a with
  | none => s
  | some i => s.modPort p fun k => { k with replay := k.replay.drop (i + 1), resent := 0, ackNs := s.ns }

/-- A NAK: everything from the named SEQ is sent again; the eighth time for one SEQ the port retrains.
[DEDUCED, log 80] -/
def State.takeNak (s : State) (p : Nat) (e : BitVec 12) : State :=
  match (s.port p).replay.findIdx? fun f => f.seq = e with
  | none => s
  | some i =>
    let k := s.port p
    let n := if k.nakSeq = e ∧ k.resent ≠ 0 then k.resent + 1 else 1
    let s := (s.modPort p fun k => { k with nakSeq := e, resent := n }).bump .skbReplay p 0 (k.replay.length - i)
    if 8 ≤ n then s.linkRetrain p else s

/-- Credits come back. -/
def State.takeCredit (s : State) (p ccls ccnt : Nat) : State :=
  if ccls = 7 then s
  else s.modPort p fun k => { k with used := Store.set 0 k.used ccls (Store.get 0 k.used ccls - ccnt * creditUnit ccls) }

/-- A discarded flit: the port asks for the SEQ it expects. -/
def State.askAgain (s : State) (p : Nat) : State := s.modPort p fun k => { k with nak := true }

/-- A packet that has come in at a port: the latency of its link is added to the master's time in an edge message, which is
to subtract it from the message's arrival (R361). [DEDUCED, log 79] -/
def State.compensate (s : State) (p : Nat) (k : SkbPacket) : SkbPacket :=
  if k.ptype ≠ 14 then k
  else
    { k with data := leBytes 8 (leNat (k.data.take 8) + fld (s.creg .skbLatns p 0) 15 0) ++ k.data.drop 8 }

/-- An accepted DATA flit: its payload joins its packet, which is complete with EOP (R374, R375). -/
def State.acceptFlit (s : State) (p : Nat) (h : Nat) (payload : List Byte) : State :=
  let w : BitVec 48 := BitVec.ofNat 48 h
  let cls := fld w 28 26
  let k := s.port p
  let before := if bit w 29 then [] else Store.get [] k.partial_ cls
  let bs := before ++ payload.take (fld w 38 31)
  let done := bit w 30
  let s := s.modPort p fun k =>
    { k with
        expect := k.expect + 1
        nak := false
        owed := Store.set 0 k.owed cls (Store.get 0 k.owed cls + 1)
        partial_ := Store.set [] k.partial_ cls (if done then [] else bs) }
  let s := s.bump .skbRxdata p 0 1
  if done then { s with skbIn := s.skbIn ++ [(s.compensate p (parsePkt bs), p)] } else s

/-- Symbols that the FEC has corrected count; more of them in a millisecond than `SKB_BERTH` set BERHI (R400).
[DEDUCED, log 80] -/
def State.corrected (s : State) (p n : Nat) : State :=
  if n = 0 then s
  else
    let ms := s.ns / 1000000
    let sum := (if (s.port p).ber.1 = ms then (s.port p).ber.2 else 0) + n
    let s := (s.bump .skbFeccorr p 0 n).modPort p fun k => { k with ber := (ms, sum) }
    if (s.creg .skbBerth p 0).toNat < sum then s.setCreg .skbStat p 0 (s.creg .skbStat p 0 ||| 0x100#32) else s

/-- A port takes a flit that the FEC has let through (R373, R374). [DEDUCED, log 80] -/
def State.takeWhole (s : State) (p : Nat) (flit : List Byte) : State :=
  if flit.length ≠ 256 ∨ leNat (flit.drop 252) ≠ (crc32 (flit.take 252)).toNat then (s.bump .skbCrcerr p 0 1).askAgain p
  else
    let h := leNat (flit.take 6)
    let w : BitVec 48 := BitVec.ofNat 48 h
    let credit (s : State) : State := s.takeCredit p (fld w 41 39) (fld w 47 42)
    match fld w 1 0 with
    | 0 => credit s
    | 1 =>
      if w.extractLsb' 2 12 ≠ (s.port p).expect then s.askAgain p
      else ((credit s).takeAck p (w.extractLsb' 14 12)).acceptFlit p h ((flit.drop 6).take 246)
    | 2 => (credit s).takeNak p (w.extractLsb' 14 12)
    | _ => s

/-- A port receives a flit: `fec` is how many symbols the FEC has corrected in its codewords, none where it cannot correct
one (R373, R374). -/
def State.takeFlit (s : State) (p : Nat) (flit : List Byte) (fec : Option (BitVec 8)) : State :=
  if ! s.portUp p then s
  else
    match fec with
    | none => (s.bump .skbFecunc p 0 1).askAgain p
    | some n => (s.corrected p n.toNat).takeWhole p flit

end Sys2Proof.Machine
end

