-- ==== Sys2Proof/Machine/Power.lean ====
section
/-! DEFINITION. The commands of the power manager: domains, RETAIN and wake, the rails, the clock and the cap
(R440 to R459, R509 to R520). -/

namespace Sys2Proof.Machine

open Sys2Proof

/-! ### Requests (R442 to R445) -/

/-- A word written to `PDM_DREQ`. -/
def dreqWord (n : BitVec 7) (act : Nat) : Word := BitVec.ofNat 32 (n.toNat + act * 2 ^ 8)

/-- DOMAIN_ON_REQUEST (R443). -/
def execDomainOnRequest (ag : Agent) (n : BitVec 7) (s : State) : Host.Outcome State Fault Refusal :=
  .next (s.gated ag .pdmDreq 0 fun s => s.writePdmDreq (dreqWord n 1))

/-- DOMAIN_OFF_REQUEST (R443). -/
def execDomainOffRequest (ag : Agent) (n : BitVec 7) (s : State) : Host.Outcome State Fault Refusal :=
  .next (s.gated ag .pdmDreq 0 fun s => s.writePdmDreq (dreqWord n 2))

/-- DOMAIN_CLEAR (R445). -/
def execDomainClear (ag : Agent) (n : BitVec 7) (s : State) : Host.Outcome State Fault Refusal :=
  .next (s.gated ag .pdmDreq 0 fun s => s.writePdmDreq (dreqWord n 3))

/-! ### Ramps (R444, R446, R452) -/

/-- Whether a domain's switches are closing: in RAMP, or RETAINED while the device wakes (R452). -/
def State.switching (s : State) (n : Nat) : Bool :=
  (decide ((s.dom n).st = .ramp) || (decide ((s.dom n).st = .retained) && decide (s.power.phase = .waking))) &&
  decide ((s.dom n).stage < 4)

/-- The ramp of a domain ended in failure; held ramps and the boot go on. -/
def State.abortRamp (s : State) (n cause mv : Nat) : State :=
  (s.failDom n cause (s.dom n).stage mv).startHeld.bootStep

/-- The length of a ramp stage in ns: `PDM_RAMP` ÷ 4 µs (R444). -/
def State.stageNs (s : State) : Nat := 250 * (s.creg .pdmRamp 0 0).toNat

/-- RAMP_STAGE_END: at the end of a stage a voltage below 90 % of the rail aborts the ramp; after the last stage the next
held ramp starts. -/
def execRampStageEnd (n : BitVec 7) (mv : BitVec 16) (s : State) : Host.Outcome State Fault Refusal :=
  .next (
    let k := n.toNat
    if ! s.switching k ∨ s.ns < (s.dom k).since + s.stageNs then s
    else if mv.toNat * 10 < s.railMv k * 9 then s.abortRamp k 2 mv.toNat
    else (s.modDom k fun d => { d with stage := d.stage + 1, since := s.ns }).startHeld)

/-- RAMP_ABORT: overcurrent while a stage runs. -/
def execRampAbort (n : BitVec 7) (mv : BitVec 16) (s : State) : Host.Outcome State Fault Refusal :=
  .next (if s.switching n.toNat then s.abortRamp n.toNat 1 mv.toNat else s)

/-- `SMF_BCAL` of an edge (R233, R269). -/
def bcalWord (c : BridgeCal) : Word :=
  BitVec.ofNat 32 (c.spares.toNat + b2n c.ok * 2 ^ 8 + b2n (! c.ok) * 2 ^ 9)

/-- `SMF_REPAIR0` to `SMF_REPAIR7` of a quadrant (R269). -/
def State.writeRepair (s : State) (q : Nat) : State :=
  (List.range 8).foldl (fun s k =>
    s.setCreg .smfRepair q k (BitVec.ofNat 32 ((List.range 8).foldl (fun a i =>
      let row := 8 * k + i
      a + s.bypass (16 * q + row / 4) (row % 4) * 2 ^ (4 * i)) 0))) s

/-- What a domain finds when it becomes ON: the Clocktower's time starts, a Spire's `CYC` counts from its release, a Keep or
a cluster goes on with the boot (R43, R350, R446, R479). -/
def State.domainUp (s : State) (n : Nat) : State :=
  let s := (s.modDom n fun d => { d with stage := 0, since := s.ns }).enterDom n .on
  let s :=
    if n = 95 then
      let t := s.ns
      let p : Power := { s.power with window := 0, used := s.power.used.map fun p => (p.1, 0) }
      { s with ns := 0, doms := s.doms.map fun p => (p.1, { p.2 with since := p.2.since - t }), power := p }
    else if n < 64 then
      let p : Power := { s.power with used := Store.put s.power.used n s.ns }
      ({ s with power := p } : State).modSpire (BitVec.ofNat 6 n) fun k => { k with cycBase := s.now, cycHeld := none }
    else if 65 ≤ n ∧ n < 68 then s.releaseCluster (BitVec.ofNat 2 n)
    else if 68 ≤ n ∧ n < 72 then s.writeRepair (n - 68)
    else s
  let s := if (s.dom n).offAtEdge then (s.modDom n fun d => { d with offAtEdge := false }).requestOff n else s
  s.startHeld.bootStep

/-- DOMAIN_INIT_COMPLETE: what has to happen after the last stage has happened. A fabric's edges are calibrated: the
first result is the horizontal edge's, the second the vertical one's; a PHY whose trims cannot be read fails (R446,
R233, R487). -/
def execDomainInitComplete (n : BitVec 7) (cal : BridgeCal × BridgeCal) (s : State) : Host.Outcome State Fault Refusal :=
  let k := n.toNat
  .next (
    if (s.dom k).st ≠ .ramp ∨ (s.dom k).stage < 4 then s
    else if bit s.fuses.badTrim k then (s.failUnmeasured k).startHeld.bootStep
    else if 68 ≤ k ∧ k < 72 then
      let h := cal.1
      let v := cal.2
      if h.ok ∧ v.ok then
        (((s.setCreg .smfBcalH (k - 68) 0 (bcalWord h)).setCreg .smfBcalV (k - 68) 0 (bcalWord v)).domainUp k)
      else
        let s := s.failUnmeasured k
        let s := (s.setCreg .smfBcalH (k - 68) 0 (bcalWord h)).setCreg .smfBcalV (k - 68) 0 (bcalWord v)
        s.startHeld.bootStep
    else s.domainUp k)

/-! ### Closing (R448, R449, R443) -/

/-- DOMAIN_DRAINED: a drained domain goes OFF and source DRAIN_DONE is raised. -/
def execDomainDrained (n : BitVec 7) (s : State) : Host.Outcome State Fault Refusal :=
  .next (
    if (s.dom n.toNat).st = .closing ∧ s.drained n.toNat then (s.finishOff n.toNat).raiseBicAll 0x072 else s)

/-- DRAIN_TIMEOUT: what has not drained `PDM_DRAIN` µs after the domain closed is cut and logged. -/
def execDrainTimeout (n : BitVec 7) (s : State) : Host.Outcome State Fault Refusal :=
  .next (
    let k := n.toNat
    if (s.dom k).st ≠ .closing ∨ s.ns < (s.dom k).since + 1000 * (s.creg .pdmDrain 0 0).toNat then s
    else
      let cut := (s.enginesIn k).length + (s.dmasIn k).length
      let s := s.cutStreams k
      let s := s.report (domQuad k) { s.mkReport 8 (BitVec.ofNat 12 k) 0x21 1 0 0 with count := cut }
      s.finishOff k)

/-- Whether a Spire lies in an active placement of a loaded image, or a command still needs it (R443). -/
def State.spireUsed (s : State) (sp : Spire) : Bool :=
  s.tasks.any fun p =>
    p.2.spires.contains sp ||
    (match p.2.mig with | some m => (plSpires p.2.image m.place).contains sp | none => false) ||
    (match p.2.old with | some o => (plSpires p.2.image o).contains sp | none => false)

/-- SPIRE_IDLE_TIMEOUT: Duboette requests OFF for a Spire that no active placement has used for `PWR_IDLE` ms. -/
def execSpireIdleTimeout (sp : Spire) (s : State) : Host.Outcome State Fault Refusal :=
  .next (
    let n := sp.toNat
    if s.keep.duboette ∧ (s.dom n).st = .on ∧ ! s.spireUsed sp ∧
        Store.get 0 s.power.used n + 1000000 * (s.creg .pwrIdle 0 0).toNat ≤ s.ns then
      s.requestOff n
    else s)

/-! ### RETAIN (R451 to R453) -/

/-- Start the wake: the regulators are asked for (R452). -/
def State.startWake (s : State) (perst : Bool) : State :=
  let p : Power := { s.power with phase := .wakeWait, pwrReq := true, match_ := false, perstWake := perst }
  { s with power := p }

/-- Whether everything is quiet: no edge to come, Turrets, stream engines and the D-mesh empty (R451). -/
def State.quiet (s : State) : Bool :=
  ! s.ct.running && decide (s.ct.notice = none) && s.flight.isEmpty && s.runningEngines.isEmpty

/-- A Spire's `CYC` holds its value while the Spire is RETAINED (R43, R452). -/
def State.holdCyc (s : State) (n : Nat) : State :=
  if n < 64 then s.modSpire (BitVec.ofNat 6 n) fun k => { k with cycHeld := some (s.now - k.cycBase) } else s

/-- A Spire's `CYC` counts on from the value it has held (R43, R452). -/
def State.resumeCyc (s : State) (n : Nat) : State :=
  if n < 64 then
    s.modSpire (BitVec.ofNat 6 n) fun k =>
      match k.cycHeld with
      | some v => { k with cycBase := s.now - v, cycHeld := none }
      | none => k
  else s

/-- RETAIN_ENTRY: the ports stop, every powered domain is RETAINED and the switched rails fall; a match that was latched
meanwhile starts the wake at once. -/
def execRetainEntry (s : State) : Host.Outcome State Fault Refusal :=
  .next (
    if s.power.phase ≠ .entering ∨ ! s.quiet then s
    else
      let s := (List.range 8).foldl (fun s p =>
        s.setCreg .skbStat p 0 (setFld (s.creg .skbStat p 0) 2 0 0)) s
      let s : State := { s with ports := [] }
      let s := (List.range 96).foldl (fun s n =>
        let st := (s.dom n).st
        if st = .on ∨ st = .closing then ((s.holdCyc n).modDom n fun d => { d with stage := 0, since := s.ns }).enterDom n .retained
        else if st = .ramp then s.finishOff n
        else s) s
      let p : Power := { s.power with phase := .retain, pwrReq := false, sramMv := 600 }
      let s : State := { s with power := p }
      if s.power.match_ then s.startWake s.power.perstWake else s)

/-- WAKE_ADDRESS_MATCH: in RETAIN it starts the wake; during the entry it is latched. -/
def execWakeAddressMatch (s : State) : Host.Outcome State Fault Refusal :=
  .next (
    match s.power.phase with
    | .retain => s.startWake false
    | .entering =>
      let p : Power := { s.power with match_ := true }
      { s with power := p }
    | _ => s)

/-- After a wake every enabled port that has not failed begins to train (R371, R452). -/
def State.trainPorts (s : State) : State :=
  (List.range 8).foldl (fun s p =>
    if bit (s.creg .skbCtl p 0) 0 ∧ ! s.portFailed p ∧ s.domOpen (84 + p) then s.startTraining p else s) s

/-- WAKE_COMPLETE: the domains are restored and Duboette resumes, or the device resets. -/
def execWakeComplete (s : State) : Host.Outcome State Fault Refusal :=
  .next (
    if s.power.phase ≠ .waking then s
    else
      let s := (List.range 96).foldl (fun s n =>
        if (s.dom n).st = .retained then ((s.resumeCyc n).modDom n fun d => { d with stage := 0, since := s.ns }).enterDom n .on
        else s) s
      let perst := s.power.perstWake
      let s := if s.power.l1Exit then s.hostOut .linkUp else s
      let p : Power :=
        { s.power with
            phase := .on
            sramMv := 800
            perstWake := false
            l1Exit := false
            window := s.ns
            verdict := .none }
      let s : State := { s with power := p, ct := { s.ct with synced := false } }
      let w := fld (s.creg .pdmWakes 0 0) 15 0
      let s := s.setCreg .pdmWakes 0 0 (BitVec.ofNat 32 (min 65535 (w + 1)))
      if perst then s.resetDevice
      else
        let s := (s.setCreg .tickCtl 0 0 s.power.savedCtl).trainPorts
        { s with ct := { s.ct with running := bit s.power.savedCtl 0, first := true } })

/-- VR_GOOD_RISE: the board has brought up what `PWR_REQ` asked for; the boot or the wake goes on.
[DESIGN CHOICE, log 102] -/
def execVrGoodRise (s : State) : Host.Outcome State Fault Refusal :=
  .next (
    if s.power.phase = .dark ∨ ! s.power.pwrReq then s
    else
      let p : Power := { s.power with vrGood := true }
      let s : State := { s with power := p }
      match s.power.phase with
      | .bootWait =>
        let p : Power := { s.power with phase := .boot }
        ({ s with power := p } : State).rampAll [93]
      | .wakeWait =>
        let p : Power := { s.power with phase := .waking }
        { s with power := p }
      | _ => s)

/-- VR_GOOD_FALL: a fall that nothing requested takes the device OFF (R450). [DESIGN CHOICE, log 102] -/
def execVrGoodFall (s : State) : Host.Outcome State Fault Refusal :=
  .next (
    if ! s.power.vrGood then s
    else
      let p : Power := { s.power with vrGood := false }
      let s : State := { s with power := p }
      if s.power.phase = .off ∨ s.power.phase = .dark then s else s.devOff 1)

/-- THERMTRIP: the pin asserts and the device goes OFF (R520). [DESIGN CHOICE, log 102] -/
def execThermtrip (s : State) : Host.Outcome State Fault Refusal :=
  .next (
    if s.power.phase = .dark then s
    else
      let p : Power := { s.power with thermtrip := true, pwrReq := false }
      ({ s with power := p } : State).devOff 2)

/-! ### Clock, voltage and the cap (R454 to R458) -/

/-- CCLK now. -/
def State.cclk (s : State) : Nat := fld (s.creg .pwrCclk 0 0) 10 0

/-- CCLK from the next edge. -/
def State.cclkNext (s : State) : Nat := fld (s.creg .pwrCclk 0 0) 26 16

/-- The lowest CCLK: the first step of 700 to 1,600 MHz that is not below `PWR_MINCLK.FLOOR` (R7, R457).
[DEDUCED, log 74] -/
def State.floorClk (s : State) : Nat := min 1600 (max 700 ((fld (s.creg .pwrMinclk 0 0) 10 0 + 49) / 50 * 50))

/-- The highest CCLK: the last step of 700 to 1,600 MHz that is not above CCLKMAX, 1,600 MHz where that is 0 (R7, R456).
[DEDUCED, log 74] -/
def State.maxClk (s : State) : Nat :=
  let m := fld (s.creg .pwrCtl 0 0) 26 16
  if m = 0 then 1600 else min 1600 (max 700 (m / 50 * 50))

/-- Set a status bit of the loop. -/
def State.setPwr (s : State) (k : Nat) (b : Bool) : State :=
  s.setCreg .pwrStatus 0 0 (setFld (s.creg .pwrStatus 0 0) k k (b2n b))

/-- The PDM writes the voltage of a clock step over AVSBus (R454). -/
def State.writeVcore (s : State) (f : Nat) : State :=
  let v := Config.vf f
  let p : Power := { s.power with avs := some v.toNat }
  ({ s with power := p } : State).setCreg .pwrVcore 0 0 (v.setWidth 32)

/-- Raise: the voltage now, the clock at the first edge after the regulator reports (R454). [DESIGN CHOICE, log 75] -/
def State.startRaise (s : State) (f : Nat) : State :=
  (s.setCreg .pwrCclk 0 0 (BitVec.ofNat 32 (s.cclk + f * 2 ^ 16))).writeVcore f

/-- The clock changes at an edge: a new window starts (R456). [DESIGN CHOICE, log 75] -/
def State.applyClk (s : State) (f : Nat) : State :=
  let p : Power := { s.power with window := s.ns, verdict := .none }
  (({ s with power := p } : State).setCreg .pwrCclk 0 0 (BitVec.ofNat 32 (f + f * 2 ^ 16))).setPwr 4 false

/-- Lower: the clock at the edge, then the voltage (R454). -/
def State.lowerClk (s : State) (f : Nat) : State := (s.applyClk f).writeVcore f

/-- What the power loop does at an edge (R454 to R457): a raised clock whose voltage is reported applies; a clock below
FLOOR rises by a step; one above its limit comes down; otherwise the verdict of the last window applies. -/
def State.clkEdge (s : State) : State :=
  let cur := s.cclk
  let top := max s.floorClk s.maxClk
  if s.cclkNext ≠ cur then (if s.power.avs = none then s.applyClk s.cclkNext else s)
  else if cur < s.floorClk then s.startRaise (cur + 50)
  else if top < cur then s.lowerClk top
  else
    match s.power.verdict with
    | .lower => if s.floorClk + 50 ≤ cur then s.lowerClk (cur - 50) else s
    | .raise => if cur + 50 ≤ top then s.startRaise (cur + 50) else s
    | .hold =>
      let p : Power := { s.power with verdict := .none }
      ({ s with power := p } : State).setPwr 4 true
    | .none => s

/-- A write of `PWR_CTL`: a cap outside 900 to 1,800 W leaves the cap unchanged; the window restarts, no step is taken at
the next edge (R456, R459). -/
def State.writePwrCtl (s : State) (v : Word) : State :=
  let old := s.creg .pwrCtl 0 0
  let cap := if 900 ≤ fld v 10 0 ∧ fld v 10 0 ≤ 1800 then fld v 10 0 else fld old 10 0
  let s := s.setCreg .pwrCtl 0 0 (BitVec.ofNat 32 (cap + fld v 26 16 * 2 ^ 16))
  let s := s.setCreg .pwrCclk 0 0 (BitVec.ofNat 32 (s.cclk + s.cclk * 2 ^ 16))
  let p : Power := { s.power with window := s.ns, verdict := .none, windows := 0 }
  ({ s with power := p } : State).setPwr 4 false

/-- PWR_CTL_WRITE. -/
def execPwrCtlWrite (ag : Agent) (v : Word) (s : State) : Host.Outcome State Fault Refusal :=
  .next (s.gated ag .pwrCtl 0 fun s => s.writePwrCtl v)

/-- The verdict on a window (R456); where the clock cannot rise it is held. -/
def State.judgeWindow (s : State) (w tj : Nat) : Verdict :=
  let cap := fld (s.creg .pwrCtl 0 0) 10 0
  let lim := fld (s.creg .pwrTemp 0 0) 23 16
  if cap < w ∨ lim < tj then .lower
  else if w * 100 < cap * 95 ∧ tj + 5 < lim ∧ s.cclk + 50 ≤ max s.floorClk s.maxClk then .raise
  else .hold

/-- POWER_WINDOW_END: the average and the hottest junction are shown; a window over the cap or the limit at FLOOR is
flagged at once, a raise writes its voltage at once while edges are fired (R454, R456, R457). -/
def execPowerWindowEnd (watts : BitVec 11) (tj : BitVec 8) (s : State) : Host.Outcome State Fault Refusal :=
  .next (
    if s.power.phase ≠ .on ∨ s.ns < s.power.window + 1000000 * (s.creg .pwrWin 0 0).toNat then s
    else
      let w := watts.toNat
      let s := s.setCreg .pwrMeas 0 0 (watts.setWidth 32)
      let s := s.setCreg .pwrTemp 0 0 (setFld (s.creg .pwrTemp 0 0) 7 0 tj.toNat)
      let cap := fld (s.creg .pwrCtl 0 0) 10 0
      let lim := fld (s.creg .pwrTemp 0 0) 23 16
      let atFloor := decide (s.cclk ≤ s.floorClk)
      let v := s.judgeWindow w tj.toNat
      let exceeds := decide (cap < w)
      let hot := decide (lim < tj.toNat)
      let s := s.setPwr 2 (if exceeds then bit (s.creg .pwrStatus 0 0) 2 || atFloor else false)
      let s := s.setPwr 3 (if hot then bit (s.creg .pwrStatus 0 0) 3 || atFloor else false)
      let s := if atFloor ∧ exceeds then s.reportDevice 8 0x0FF 0x39 1 (watts.setWidth 64) 0 else s
      let flagged := atFloor && decide (v = .lower)
      let s := if flagged then s.setPwr 4 true else s
      let p : Power :=
        { s.power with
            window := s.ns
            windows := s.power.windows + 1
            verdict := if flagged then .none else v }
      let s : State := { s with power := p }
      if v = .raise ∧ s.ct.running ∧ s.cclkNext = s.cclk then s.startRaise (s.cclk + 50) else s)

/-- AVS_COMPLETE: the regulator has reached the voltage. -/
def execAvsComplete (s : State) : Host.Outcome State Fault Refusal :=
  .next (
    let p : Power := { s.power with avs := none }
    { s with power := p })

end Sys2Proof.Machine
end

