-- ==== Sys2Proof/Machine/ClockOps.lean ====
section
/-! DEFINITION. The tick edge: readiness, notice, judgement, the change-over of every edge-bound resource, runs and
migrations, and edges across devices (R32, R350 to R366, R424, R429, R522). -/

namespace Sys2Proof.Machine

open Sys2Proof

/-! ### Time -/

/-- Whether the moment 64 cc before Clocktower time `t` has come: the edge cycle is then the first at or after `t`. -/
def State.noticeTime (s : State) (t : Nat) : Bool := decide (t * s.cclk ≤ s.ns * s.cclk + s.ct.nsFrac + 64000)

/-- Whether the mode in force is ELASTIC; `TICK_IN` makes it STRICT (R363). -/
def State.elastic (s : State) : Bool := s.ct.mode && decide (s.ct.src ≠ 2)

/-- Whether this device distributes the edges (R361). -/
def State.distributes (s : State) : Bool := bit (s.creg .tickCtl 0 0) 4 && decide (s.ct.src ≠ 1)

/-! ### Readiness (R355) -/

/-- Whether a thread has to report for the tick: enabled, tick-bound and past its first edge. [DEDUCED, log 78] -/
def Thread.owesReport (th : Thread) : Bool := th.enabled && th.ctl.bound && decide (th.status ≠ .armed)

/-- Whether a Spire is ready. -/
def State.spireReady (s : State) (sp : Spire) : Bool :=
  (s.spire sp).doze.dozing ||
  (((s.spireThreads sp).all fun p => ! p.2.owesReport || p.2.doneTick) && s.stagedOk sp &&
   (spireCores sp).all s.routerDone)

/-- Whether a Spire takes part: its bit of `CT_PART`, and neither disabled nor FAILED. -/
def State.participates (s : State) (n : Nat) : Bool :=
  (if n < 32 then bit (s.creg .ctPartLo 0 0) n else bit (s.creg .ctPartHi 0 0) (n - 32)) && ! s.spireDisabled n &&
  decide ((s.dom n).st ≠ .failed)

/-- Whether every participating Spire is ready. -/
def State.allReady (s : State) : Bool :=
  (List.range 64).all fun n => ! s.participates n || s.spireReady (BitVec.ofNat 6 n)

/-! ### The notice (R353 to R356) -/

/-- Duboette disables the threads of runs whose last tick is ending, and the threads of nothing else (R424).
[DEDUCED, log 65] -/
def State.stopLastTick (s : State) : State :=
  s.tasks.foldl (fun s p =>
    match p.2.run with
    | some r =>
      if r.st = .running ∧ r.last = some s.ct.tick.toNat then
        (plThreads p.2.image p.2.place).foldl (fun s e => s.disableThread e.tid) s
      else s
    | none => s) s

/-- The notice of the edge in cycle `c`: the swap is decided (R256). -/
def State.giveNotice (s : State) (c : Nat) : State :=
  let ct : Clocktower := { s.ct with notice := some c }
  (({ s with ct := ct } : State).decideSwap s.nextTick).stopLastTick

/-- Whether the notice is due by the source and mode in force (R354, R355, R361). -/
def State.noticeDue (s : State) : Bool :=
  s.ct.running && decide (s.ct.notice = none) && decide (s.ct.src ≠ 2) &&
  (s.ct.first ||
   (if s.ct.src = 1 ∨ (s.elastic ∧ s.distributes) then
      match s.ct.target with
      | some (t, _) => s.noticeTime t
      | none => false
    else if s.elastic then s.allReady && s.noticeTime (s.ct.edgeNs + (s.creg .tickMin 0 0).toNat)
    else s.noticeTime (s.ct.edgeNs + s.ct.period)))

/-! ### Judgement (R357, R359, R360) -/

/-- What the Clocktower finds at an edge. -/
structure Judged where
  threads : List Tid
  stage : List Nat
  router : List Nat
  parity : List Nat
  tmax : Bool

/-- Whether a Turret's list is unfinished. -/
def State.listOpen (s : State) (sp : Spire) : Bool :=
  bit (s.creg .trtCtl sp.toNat 0) 1 &&
  (! (s.spire sp).listTodo.isEmpty ||
   (s.spire sp).turret.any fun p => p.2.running && decide (p.2.entry ≠ 0xFFFF))

/-- The routers that have not ended their schedules. -/
def State.lateRouters (s : State) : List CoreId :=
  (s.cores.filter fun p => p.2.router.live).map fun p => BitVec.ofNat 11 p.1

/-- Judge the tick that is ending. -/
def State.judge (s : State) : Judged :=
  let late := (s.threads.filter fun p => p.2.owesReport && ! p.2.doneTick).map fun p =>
    ({ core := BitVec.ofNat 11 (p.1 / 4), thread := BitVec.ofNat 2 p.1 } : Tid)
  let stage := (List.range 64).filter fun n => s.listOpen (BitVec.ofNat 6 n)
  let router := s.lateRouters.foldl (fun l c => insNat l (spireOf c).toNat) []
  let any := ! late.isEmpty || ! stage.isEmpty || ! router.isEmpty || ! s.ct.parity.isEmpty
  let atMax := s.ct.atMax ||
    (decide (s.ct.src = 1) && s.elastic && decide (s.ct.edgeNs + (s.creg .tickMax 0 0).toNat ≤ s.ns))
  { threads := late, stage := stage, router := router, parity := s.ct.parity, tmax := any && atMax && s.elastic }

/-- Whether an entry is written. -/
def Judged.any (j : Judged) : Bool := ! j.threads.isEmpty || ! j.stage.isEmpty || ! j.router.isEmpty || ! j.parity.isEmpty

/-- Whether tick n is damaged. -/
def Judged.dmgN (j : Judged) : Bool := ! j.threads.isEmpty || ! j.router.isEmpty || ! j.parity.isEmpty

/-- Whether tick n + 1 is damaged. -/
def Judged.dmgN1 (j : Judged) : Bool := ! j.threads.isEmpty || ! j.stage.isEmpty

/-- The Spires that some cause names. -/
def Judged.spires (j : Judged) : List Nat :=
  (j.threads.map fun t => (spireOf t.core).toNat).foldl insNat ((j.stage ++ j.router ++ j.parity).foldl insNat [])

/-- The four words of the log entry. -/
def Judged.words (j : Judged) (tick ns : Nat) : List Word :=
  let f (l : List Nat) (k : Nat) := b2n (! l.isEmpty) * 2 ^ k
  [ BitVec.ofNat 32 tick,
    BitVec.ofNat 32 (tick / 2 ^ 32 + b2n (! j.threads.isEmpty) * 2 ^ 16 + f j.stage 17 + f j.router 18 + f j.parity 19 +
      b2n j.tmax * 2 ^ 20 + b2n j.dmgN * 2 ^ 24 + b2n j.dmgN1 * 2 ^ 25 + 2 ^ 31),
    BitVec.ofNat 32 (min 0xFFFF j.threads.length + j.spires.headD 0 * 2 ^ 16 + j.spires.length * 2 ^ 24),
    BitVec.ofNat 32 ns ]

/-- Record the damaged ticks in every run. -/
def State.damageRuns (s : State) (j : Judged) : State :=
  let n := s.ct.tick.toNat
  let add (l : List Nat) : List Nat :=
    let l := if j.dmgN then insNat l n else l
    if j.dmgN1 then insNat l ((n + 1) % 2 ^ 48) else l
  { s with tasks := s.tasks.map fun p =>
      (p.1, { p.2 with run := p.2.run.map fun r => { r with damaged := add r.damaged } }) }

/-- Write the log entry, its record and the router overruns (R258, R359, R360). -/
def State.logDamage (s : State) (j : Judged) : State :=
  let n := s.ct.tick.toNat
  let ws := j.words n s.ns
  let w (k : Nat) : Word := ws.getD k 0
  let ptr := s.creg .ctLogptr 0 0
  let at_ := fld ptr 5 0
  let s := (List.range 4).foldl (fun s k => s.setCreg .ctLog 0 (4 * at_ + k) (w k)) s
  let full := decide (64 ≤ s.ct.logN)
  let s := s.setCreg .ctLogptr 0 0 (setFld (if full then ptr ||| 0x100#32 else ptr) 5 0 ((at_ + 1) % 64))
  let ct : Clocktower := { s.ct with logN := min 64 (s.ct.logN + 1) }
  let s : State := { s with ct := ct }
  let s := s.reportDevice 7 0 0x30 1 (w 1 ++ w 0) 0
  let s := s.setCreg .tickStat 0 0 (s.creg .tickStat 0 0 ||| 4#32)
  let s := (s.bump .ctDmgcnt 0 0 1).trace 2 none (w 1).toNat
  let s := s.lateRouters.foldl (fun s c =>
    (s.modRouter c fun r => { r with ovr := true }).reportCore c 0x06 1 (BitVec.ofNat 64 n) (s.core c).tenant) s
  s.damageRuns j

/-! ### Threads at the edge (R68, R69, R115, R358, R522) -/

/-- A `TICK_OVERRUN` is counted for the device and for the tasks that own the thread's Spire. -/
def State.countOverrun (s : State) (t : Tid) : State :=
  let s := s.bump .ctOvr 0 0 1
  { s with tasks := s.tasks.map fun p =>
      if p.2.spires.contains (spireOf t.core) then
        (p.1, { p.2 with
                  overruns := p.2.overruns + 1
                  run := p.2.run.map fun r => { r with overruns := r.overruns + 1 } })
      else p }

/-- Deliver `TICK_OVERRUN`, or keep it until the instruction that holds the thread has its result; in ZN2 compatibility
mode nothing is delivered (R123, R358). -/
def State.overrunThread (s : State) (t : Tid) : State :=
  let s := s.modThread t fun th => { th with overran := true }
  let th := s.thread t
  if th.ltn.legacy ∨ th.status = .lockedUp ∨ th.status = .disabled then s
  else if th.status = .tickSleep then (s.countOverrun t).takeOverrun t
  else
    match s.stop t 0 with
    | .ready s => (s.countOverrun t).takeOverrun t
    | .wait | .taken _ =>
      if th.ltn.machPend.any fun p => p.1 = 0x38 then s
      else
        (s.countOverrun t).modThread t fun th => th.modLtn fun l => { l with machPend := l.machPend ++ [(0x38, 0)] }

/-- An enabled thread first issues: at `TENTRY` in User, outside its shadow window, with no loop, no `PROGRESS` and an
empty priority stack (R522). -/
def Thread.firstIssue (th : Thread) : Thread :=
  { th with
      status := .running
      pc := th.ctl.tentry
      priv := .user
      inShadow := false
      main := { th.main with depth := 0 }
      ctl := { th.ctl with progress := 0 }
      ltn := { th.ltn with stack := [], spurMarks := [], fresh := [] } }

/-- A tick-bound thread starts its tick (R68). -/
def Thread.tickStart (th : Thread) : Thread :=
  ({ th with status := .running, pc := th.ctl.tentry }.setBank { th.bank with depth := 0 })

/-- One thread at the edge: `late` says that THREAD names it, `staged` that STAGE names its Spire. -/
def State.threadEdge (s : State) (t : Tid) (late staged : Bool) : State :=
  let th := s.thread t
  let was := th.enabled && th.ctl.bound
  let s := s.modThread t fun th =>
    { th with
        doneTick := false
        overran := false
        ctl := { th.ctl with bound := th.ctl.boundNext } }
  let s := if th.status = .armed then s.modThread t Thread.firstIssue else s
  let s := if late ∨ (staged ∧ was) then s.overrunThread t else s
  let th := s.thread t
  if ! th.enabled then s
  else if th.ctl.bound then (if th.status = .tickSleep then s.modThread t Thread.tickStart else s)
  else
    let s := s.latch t 0
    let s := if th.status = .tickSleep then s.modThread t fun th => { th with status := .running } else s
    s.poll t

/-- Every thread at the edge. -/
def State.threadsEdge (s : State) (j : Judged) : State :=
  s.threads.foldl (fun s p =>
    let t : Tid := { core := BitVec.ofNat 11 (p.1 / 4), thread := BitVec.ofNat 2 p.1 }
    s.threadEdge t (j.threads.contains t) (j.stage.contains (p.1 / 128))) s

/-! ### Runs and migrations at the edge (R424, R425, R429) -/

/-- The `DRUM_PP` value of a placement, pending in each of its Spires. [DEDUCED, log 64] -/
def State.setDrums (s : State) (im : List Byte) (p : Nat) : State :=
  (plSpires im p).foldl (fun s sp => s.writeDrumPp sp (BitVec.ofNat 32 (plN im p 54 2))) s

/-- What a run needs before the edge that starts tick `n` is taken. [DEDUCED, log 64] -/
def State.beforeRun (s : State) (n : Nat) (h : Nat) (t : Task) : State :=
  let s := match t.run with
    | some r =>
      if r.st = .armed ∧ (n + 1) % 2 ^ 48 = r.n0 then (s.setLists t.image t.place true).setDrums t.image t.place
      else if r.st = .running ∧ r.last.map (fun l => (l + 1) % 2 ^ 48) = some n then
        s.modTask h fun t =>
          { t with
              lastTick := r.last.getD 0
              run := some { r with st := .ending } }
      else s
    | none => s
  match t.mig, t.run with
  | some m, some _ =>
    if m.switched.isNone ∧ (n + 1) % 2 ^ 48 = m.edge then (s.setLists t.image m.place true).setDrums t.image m.place else s
  | _, _ => s

/-- Whether a Spire's list runs only its write-back entries: in the tick after a run's last (R424). -/
def State.writeBackOnly (s : State) (sp : Spire) : Bool :=
  s.tasks.any fun p =>
    match p.2.run with
    | some r => decide (r.st = .ending) && p.2.spires.contains sp
    | none => false

/-- Arm the swap of a tenant's routers for a tick (R256). -/
def State.armSwap (s : State) (t : BitVec 4) (n : Nat) : State :=
  let s := s.setCreg .smfSwapLo 0 0 (BitVec.ofNat 32 n)
  let s := s.setCreg .smfSwapHi 0 0 (BitVec.ofNat 32 (n / 2 ^ 32))
  s.writeSwapctl (BitVec.ofNat 32 (t.toNat + 0x100))

/-- Whether a task's run has its threads enabled. -/
def Task.live (t : Task) : Bool :=
  match t.run with
  | some r => decide (r.st = .running) || decide (r.st = .prepared)
  | none => false

/-- Fill the shadow banks of all tasks of a tenant, because the swap exchanges them all: task `h` and every task that
runs get their schedules, the others the idle one. -/
def State.shadowTenant (s : State) (h : Nat) (t : BitVec 4) : State :=
  s.tasks.foldl (fun s p =>
    if p.2.tenant ≠ t then s
    else if p.1 = h ∨ p.2.live then
      s.loadSchedules t p.2.image p.2.place
    else s.loadIdle t (plRouters p.2.image p.2.place)) s

/-- Start the Belfry cores of a task at their entries, in User, but for one that is halted (R120, R424, R438). -/
def State.startEntries (s : State) (t : Task) : State :=
  (t.belfry.zipIdx.filter fun p => ! (s.bel (BitVec.ofNat 4 p.1)).halted).foldl (fun s p =>
    let e := Config.belfryEntry (BitVec.ofNat 64 (imgN t.image (plN t.image t.place 48 4 + 8 * p.2) 8))
    s.modBel (BitVec.ofNat 4 p.1) fun _ =>
      { Belfry.reset with
          held := false
          status := 0
          pc := e.1
          g := Store.set 0 [] 29 e.2
          tenant := t.tenant }) s

/-- Reserve a placement's cores for another epoch and tenant, and write its thread registers (R423, R429). -/
def State.placeThreads (s : State) (t : Task) (p : Nat) (epoch : Byte) : State :=
  let s := (plCores t.image p).foldl (fun s c => s.modCore c fun k => { k with epoch := epoch, tenant := t.tenant }) s
  (plThreads t.image p).foldl (fun s e =>
    s.modThread e.tid fun th =>
      { th with
          epoch := epoch
          tenant := t.tenant
          ctl := { th.ctl with tentry := e.entry &&& 0xFFFFFFFC, boundNext := e.bound,
                               codeBase := BitVec.ofNat 27 (plN t.image p 40 8) } }) s

/-- Close the channels that others hold into the endpoints of a placement (R86, R429). -/
def State.closeChannels (s : State) (es : List ThreadEntry) : State :=
  es.foldl (fun s e => (List.range 4).foldl (fun s n => s.closeOpeners e.tid (BitVec.ofNat 2 n) 4) s) s

/-- The edge of a migration (R429): the old threads stop, the new ones start, the routers change over, the epoch
rises. -/
def State.migrateEdge (s : State) (h : Nat) (t : Task) (m : Mig) : State :=
  let e := t.epoch + 1
  let olds := plThreads t.image t.place
  let s := olds.foldl (fun s x => (s.disableThread x.tid).modThread x.tid fun th => { th with epoch := e }) s
  let s := s.closeChannels olds
  let s := (plCores t.image t.place).foldl (fun s c => s.modCore c fun k => { k with retired := some (0, 0) }) s
  let s := s.setLists t.image t.place false
  let s := s.placeThreads t m.place e
  let s := if t.live then (plThreads t.image m.place).foldl (fun s x => s.enableThread x.tid) s else s
  s.modTask h fun t =>
    { t with
        epoch := e
        place := m.place
        old := some t.place
        mig := some { m with switched := some s.ns } }

/-- The banks of a migration change over at its edge: the old routers to the idle schedule, the new ones to theirs. -/
def State.migrateBanks (s : State) (t : Task) (m : Mig) : State :=
  let olds := plRouters t.image t.place
  let news := plRouters t.image m.place
  let s := (s.loadIdle t.tenant olds).swapAt olds
  let s := if t.live then s.loadSchedules t.tenant t.image m.place else s.loadIdle t.tenant news
  s.swapAt news

/-- The migrations whose edge starts tick `n`. -/
def State.migrating (s : State) (n : Nat) : List (Nat × Task × Mig) :=
  s.tasks.filterMap fun p =>
    match p.2.mig with
    | some m => if m.switched.isNone ∧ m.edge = n then some (p.1, p.2, m) else none
    | none => none

/-- What a run does once the edge that started tick `n` is taken. -/
def State.afterRun (s : State) (n : Nat) (h : Nat) : State :=
  match s.task h with
  | none => s
  | some t =>
    match t.run with
    | none => s
    | some r =>
      if r.st = .armed ∧ (n + 1) % 2 ^ 48 = r.n0 then
        let s := (s.shadowTenant h t.tenant).armSwap t.tenant r.n0
        let s := (plThreads t.image t.place).foldl (fun s e => s.enableThread e.tid) s
        s.modTask h fun t => { t with run := some { r with st := .prepared } }
      else if r.st = .prepared ∧ n = r.n0 then
        let s := if t.begun then s else s.startEntries t
        s.modTask h fun t =>
          { t with
              begun := true
              run := some { r with st := .running } }
      else if r.st = .ending then s.setLists t.image t.place false
      else s

/-! ### The edge (R353) -/

/-- Tick `n` begins: its number, its time and the registers that take effect (R352, R353). -/
def State.beginTick (s : State) (n : Nat) : State :=
  let ctl := s.creg .tickCtl 0 0
  let want := match s.ct.target with
    | some (t, _) => t
    | none => if s.ct.first ∨ s.elastic ∨ s.ct.src ≠ 0 then s.ns else s.ct.edgeNs + s.ct.period
  let late := decide (s.ct.src = 1) && decide (want + 20 < s.ns)
  let ct : Clocktower :=
    { s.ct with
        tick := BitVec.ofNat 48 n
        edgeNs := s.ns
        running := bit ctl 0
        notice := none
        first := false
        mode := bit ctl 1
        src := ctl.extractLsb' 2 2
        period := (s.creg .tickPeriod 0 0).toNat
        atMax := false
        target := none
        lastTarget := want
        locked := ! late && ! s.ct.apart && decide (s.ct.ahead ≤ 20)
        lost := false
        parity := []
        readySent := false
        readyFrom := []
        sent := false }
  let s : State := { s with ct := ct }
  let s := (s.setCreg .ctTickLo 0 0 (BitVec.ofNat 32 n)).setCreg .ctTickHi 0 0 (BitVec.ofNat 32 (n / 2 ^ 32))
  let s := (s.setCreg .ctEdgeLo 0 0 (BitVec.ofNat 32 s.ns)).setCreg .ctEdgeHi 0 0 (BitVec.ofNat 32 (s.ns / 2 ^ 32))
  s.setCreg .ctSkew 0 0 (((BitVec.ofInt 16 ((s.ns : Int) - want)).setWidth 32))

/-- Every router restarts, in the fabrics that run; what is still on a link will reach no cycle of the new tick (R257). -/
def State.routersEdge (s : State) : State :=
  let s : State := { s with links := [] }
  let s := [0, 1, 2, 3].foldl (fun s q =>
    if s.domCarries (68 + q) then s.modQuad (BitVec.ofNat 2 q) fun k => { k with edged := true } else s) s
  s.eachCore fun s c => if s.fabricRuns (quadOf (spireOf c)) then s.routerEdge c else s

/-- The CORE flits of the tick's first cycle are read. [DEDUCED, log 50] -/
def State.firstFlits (s : State) : State :=
  s.eachCore fun s c => if s.fabricRuns (quadOf (spireOf c)) then s.prefetch c [] else s

/-- SCHED streams that are not complete end with fault EDGE (R293). -/
def State.schedEdge (s : State) : State :=
  s.runningEngines.foldl (fun s e =>
    if dSched (s.stream e).desc then (s.faultStream e 7).settleStream e else s) s

/-- The routing registers and the numeric mode of every core that runs come into force (R157, R344). -/
def State.coresEdge (s : State) : State :=
  (List.range 64).foldl (fun s n =>
    if s.domCarries n then
      (spireCores (BitVec.ofNat 6 n)).foldl (fun s c =>
        let audit := bit (s.creg .partCfg (s.core c).tenant.toNat 0) 1
        (s.routeEdge c).modCore c fun k => { k with service := ! audit }) s
    else s) s

/-- The pulse of `TICK_OUT` in ns (R364). -/
def State.pulse (s : State) (logged : Bool) : State :=
  let w := fld (s.creg .ctOut 0 0) 7 0 * 10
  if w = 0 then s
  else { s with tickOut := s.tickOut ++ [if logged ∧ bit (s.creg .ctOut 0 0) 8 then 2 * w else w] }

/-- The edge cycle (R353). -/
def State.takeEdge (s : State) : State :=
  let j := s.judge
  let logged := j.any
  let s := if logged then s.logDamage j else s
  let n := s.nextTick
  let migs := s.migrating n
  let s := s.tasks.foldl (fun s p => s.beforeRun n p.1 p.2) s
  let s := migs.foldl (fun s m => s.migrateBanks m.2.1 m.2.2) s
  let s := s.beginTick n
  let s := (List.range 64).foldl (fun s k => s.undoze (BitVec.ofNat 6 k) false) s
  let s := (List.range 64).foldl (fun s k => s.drumEdge (BitVec.ofNat 6 k)) s
  let s := s.schedEdge.flushWindows
  let s := (List.range 64).foldl (fun s k =>
    let sp : Spire := BitVec.ofNat 6 k
    s.turretEdge sp (s.writeBackOnly sp)) s
  let s := s.swapEdge.routersEdge.coresEdge
  let s := migs.foldl (fun s m => s.migrateEdge m.1 m.2.1 m.2.2) s
  let s := (s.threadsEdge j).firstFlits
  let s := s.tasks.foldl (fun s p => s.afterRun n p.1) s
  let s := s.retireAll.closeAtEdge.clkEdge
  (((s.raiseBicAll 0x078).trace 1 none n).pulse logged)

/-! ### Edges across devices (R351, R361, R362) -/

/-- The devices of the system but this one (R381). -/
def State.otherDevices (s : State) : List (BitVec 10) :=
  let d := s.creg .skbDims 0 0
  ((List.range 1024).filter fun k =>
    decide (k / 64 ≤ fld d 3 0) && decide (k / 8 % 8 ≤ fld d 6 4) && decide (k % 8 ≤ fld d 10 8) &&
    decide (k ≠ s.devId.toNat)).map (BitVec.ofNat 10)

/-- A packet without an answer to another device. -/
def State.tell (s : State) (dst : BitVec 10) (ptype : BitVec 4) (addr arg : DWord) (data : List Byte) : State :=
  { s with
      toSkb := s.toSkb ++
        [{ dst := dst, src := s.devId, ptype := ptype, tenant := 0, epoch := 0, tag := 0, poison := false, addr := addr,
           arg := arg, e2eOk := true, data := data }] }

/-- The target time of the master's next edge, as far as it is known. -/
def State.masterTarget (s : State) : Option Nat :=
  if s.ct.first ∨ s.ct.src = 2 then
    s.ct.notice.map fun c => s.ns + ((c - s.now) * 1000 + s.cclk - 1) / s.cclk
  else if s.elastic then s.ct.target.map (·.1)
  else some (s.ct.edgeNs + s.ct.period)

/-- The master sets an ELASTIC target: the lead after now, at least `TICK_MIN` after the previous target (R362). -/
def State.setTarget (s : State) (atMax : Bool) : State :=
  let lead := (s.creg .tickLead 0 0).toNat
  let t := max (s.ns + lead) (s.ct.lastTarget + (s.creg .tickMin 0 0).toNat)
  let ct : Clocktower :=
    { s.ct with
        target := some (t, BitVec.ofNat 48 s.nextTick)
        atMax := atMax }
  { s with ct := ct }

/-- A device reports ready to the master (R362). -/
def State.takeReady (s : State) (dev : BitVec 10) : State :=
  if ! s.distributes ∨ ! s.elastic ∨ s.ct.target.isSome then s
  else
    let l := if s.ct.readyFrom.contains dev then s.ct.readyFrom else dev :: s.ct.readyFrom
    let ct : Clocktower := { s.ct with readyFrom := l }
    let s : State := { s with ct := ct }
    if Config.tickDevices.all l.contains then s.setTarget false else s

/-- Clocktower time follows the master's: at the first message it steps forward or runs at half rate, later it slews by at
most 1 ns per µs since the last edge (R351). -/
def State.follow (s : State) (master : Nat) : State :=
  let step := if s.ct.synced then (s.ns - s.ct.edgeNs) / 1000 else max master s.ns
  let off := if master < s.ns then s.ns - master else master - s.ns
  let ct : Clocktower :=
    { s.ct with
        synced := true
        ahead := if master < s.ns then min off step else s.ct.ahead
        apart := decide (step + 20 < off) }
  { s with
      ns := if s.ns < master then s.ns + min (master - s.ns) step else s.ns
      ct := ct }

/-- An edge message: tick `n` is to begin at time `t`; one that comes after its target fires the edge at once (R361). -/
def State.takeEdgeMessage (s : State) (n : BitVec 48) (t master : Nat) : State :=
  let s := s.follow master
  if ! s.ct.running ∨ s.ct.src ≠ 1 then s
  else
    let ct : Clocktower := { s.ct with target := some (t, n) }
    let s : State := { s with ct := ct }
    if t < s.ns ∧ s.ct.notice.isNone then
      let ct : Clocktower := { s.ct with locked := false }
      let s : State := { s with ct := ct }
      (s.reportDevice 7 0 0x32 0 (BitVec.ofNat 64 ((s.ns - t) % 2 ^ 16)) 0).giveNotice s.now
    else s

/-! ### Registers (R356, R368) -/

/-- A write of `TICK_CTL`: SRC 0b11 leaves the source; setting EN starts the edges at once, clearing it ends them after an
edge whose notice was given (R356). [DEDUCED, log 77] -/
def State.writeTickCtl (s : State) (v : Word) : State :=
  let old := s.creg .tickCtl 0 0
  let v := if fld v 3 2 = 3 then setFld v 3 2 (fld old 3 2) else v
  let s := s.setCreg .tickCtl 0 0 (v &&& 0x1F#32)
  if bit v 0 ∧ ! s.ct.running then
    let ct : Clocktower :=
      { s.ct with
          running := true
          first := true
          target := none
          atMax := false
          lost := false
          sent := false
          readySent := false
          readyFrom := [] }
    ({ s with ct := ct } : State).giveNotice (s.now + 64)
  else if ! bit v 0 ∧ s.ct.notice.isNone then
    let ct : Clocktower := { s.ct with running := false }
    { s with ct := ct }
  else s

/-- A tick interval that `TICK_PERIOD`, `TICK_MIN` and `TICK_MAX` accept. -/
def tickRange (v : Word) : Bool := decide (10000 ≤ v.toNat) && decide (v.toNat ≤ 1000000000)

/-- A write of `TICK_PERIOD`. -/
def State.writeTickPeriod (s : State) (v : Word) : State :=
  if tickRange v then s.setCreg .tickPeriod 0 0 v else s

/-- A write of `TICK_MIN`. -/
def State.writeTickMin (s : State) (v : Word) : State :=
  if tickRange v ∧ v ≤ s.creg .tickMax 0 0 then s.setCreg .tickMin 0 0 v else s

/-- A write of `TICK_MAX`. -/
def State.writeTickMax (s : State) (v : Word) : State :=
  if tickRange v ∧ s.creg .tickMin 0 0 ≤ v then s.setCreg .tickMax 0 0 v else s

/-- A write of `CT_WDT`: PERIOD 1 to 60, and KICK restarts the period (R366, R368). -/
def State.writeWdt (s : State) (v : Word) : State :=
  let s := if 1 ≤ fld v 5 0 ∧ fld v 5 0 ≤ 60 then s.setCreg .ctWdt 0 0 (BitVec.ofNat 32 (fld v 5 0)) else s
  if bit v 8 then
    let ct : Clocktower := { s.ct with wdtStart := s.ns }
    { s with ct := ct }
  else s

/-- `TICK_STAT` (R368). -/
def State.tickStat (s : State) : Word :=
  (s.creg .tickStat 0 0 &&& 0x1E#32) |||
    BitVec.ofNat 32 (b2n s.ct.running + b2n s.ct.locked * 2 ^ 5 + s.ct.logN * 2 ^ 8)

/-- A read of `CT_TIME_LO` latches the high word for the reader (R350). [DEDUCED, log 55] -/
def State.latchTime (s : State) (ag : Agent) : State :=
  let ct : Clocktower :=
    { s.ct with latch := (ag, BitVec.ofNat 32 (s.ns / 2 ^ 32)) :: s.ct.latch.filter fun p => p.1 ≠ ag }
  { s with ct := ct }

/-! ### Activity (R366) -/

/-- Whether a thread's state alone keeps its activity bit set: Disabled, locked up, in tick sleep or in a wait that has a
bound. -/
def Thread.bounded (th : Thread) : Bool :=
  match th.status with
  | .disabled | .armed | .lockedUp | .tickSleep => true
  | .blocked (.swait _ _ _ timeout ..) => decide (timeout ≠ 0)
  | .blocked (.lock _ _ timeout ..) => decide (timeout ≠ 0)
  | .blocked (.send ..) | .blocked (.inject ..) => decide (th.ctl.sendTimeout ≠ 0)
  | .blocked (.wait _) => th.ctl.cmpen || bit th.ctl.wakeMask 0
  | _ => false

/-- The activity bit of a thread. -/
def Thread.active (th : Thread) : Bool := th.act || th.bounded

/-- The thread of bit `k` of `CT_ACTn`. -/
def actThread (n k : Nat) : Tid := { core := BitVec.ofNat 11 ((32 * n + k) / 4), thread := BitVec.ofNat 2 k }

/-- A read of `CT_ACTn` clears it. -/
def State.readAct (s : State) (n : Nat) : Word × State :=
  (BitVec.ofNat 32 ((List.range 32).foldl (fun a k => a + b2n (s.thread (actThread n k)).active * 2 ^ k) 0),
   (List.range 32).foldl (fun s k => s.modThread (actThread n k) fun th => { th with act := false }) s)

end Sys2Proof.Machine
end

