-- ==== Sys2Proof/Machine/Cycle.lean ====
section
/-! DEFINITION. What passes while no command is handed over: one cycle of CCLK with what the device does by itself in it
(R43, R351, R377, R497), a DESIGN CHOICE of the model's interface. -/

namespace Sys2Proof.Machine

open Sys2Proof

/-- Whether CCLK runs: in RETAIN, OFF and without rails it stands (R450). [DESIGN CHOICE, log 2] -/
def State.clocked (s : State) : Bool :=
  match s.power.phase with
  | .on | .entering | .boot | .waking => decide (s.cclk ≠ 0)
  | _ => false

/-- Clocktower time advances by one cycle of CCLK, 1000/MHz ns, at half rate while it is ahead of the master's (R351).
[DESIGN CHOICE, log 2] -/
def State.passTime (s : State) : State :=
  let n := s.ct.nsFrac + (if s.ct.ahead = 0 then 1000 else 500)
  let ct : Clocktower := { s.ct with nsFrac := n % s.cclk, ahead := s.ct.ahead - n / s.cclk }
  { s with
      now := s.now + 1
      ns := s.ns + n / s.cclk
      ct := ct }

/-- Whether a thread is stalled; `wait` and `swait` put it to sleep (R37). -/
def Thread.stalledNow (th : Thread) : Bool :=
  match th.status with
  | .blocked (.wait _) => false
  | .blocked (.swait ..) => false
  | .blocked _ => true
  | _ => false

/-- The thread that a key of the thread store names. -/
def keyTid (k : Nat) : Tid := { core := BitVec.ofNat 11 (k / 4), thread := BitVec.ofNat 2 k }

/-- Count a cycle in the `STALLED` of every stalled thread of a Spire that does not sleep (R42). -/
def State.countStalls (s : State) : State :=
  s.threads.foldl (fun s p =>
    if p.2.stalledNow ∧ s.spireRuns (spireOf (keyTid p.1).core) then
      s.modThread (keyTid p.1) fun th => th.modCtl fun c => { c with stalled := satAdd c.stalled 1 }
    else s) s

/-- In every cycle the activity bit of a thread whose state keeps it set is set (R366). -/
def State.markActive (s : State) : State :=
  s.threads.foldl (fun s p =>
    if p.2.bounded ∧ ! p.2.act then s.modThread (keyTid p.1) fun th => { th with act := true } else s) s

/-- PC samples of the selected threads that are not Disabled, every 2^`OCU_PCINT` cycles (R497). -/
def State.samplePcs (s : State) : State :=
  if s.now % 2 ^ fld (s.creg .ocuPcint 0 0) 4 0 ≠ 0 ∨ ! s.traces 3 then s
  else
    s.threads.foldl (fun s p =>
      let t := keyTid p.1
      if p.2.status ≠ .disabled ∧ Config.ocuSelects t.core.toNat t.thread.toNat then
        s.trace 3 (some t.core) (t.core.toNat + t.thread.toNat * 2 ^ 11 + p.2.pc.toNat * 2 ^ 13)
      else s) s

/-- A thread whose message is entering the mesh puts one more word into it; after the last its `send` completes (R84). -/
def State.injectWord (s : State) (t : Tid) : State :=
  match (s.thread t).status with
  | .blocked (.inject h words done) =>
    if done + 1 < words.length then s.modThread t fun th => { th with status := .blocked (.inject h words (done + 1)) }
    else (s.inject t h words).resume t
  | _ => s

/-- Every thread of a running Spire that has a message to put into the mesh puts in a word (R84). -/
def State.injectWords (s : State) : State :=
  s.threads.foldl (fun s p =>
    if s.spireRuns (spireOf (keyTid p.1).core) then s.injectWord (keyTid p.1) else s) s

/-- Count a cycle for every flit that waits for credit, in its quadrant's `DMF_CSTALL` (R273, R302).
[DESIGN CHOICE, log 41] -/
def State.countCredit (s : State) : State :=
  (s.flight.filter fun p => s.bufferHead p && ! s.hasCredit p).foldl (fun s p =>
    s.bump .dmfCstall (quadOf (spireOf p.pos)).toNat 0 p.held) s

/-- One cycle of CCLK; where CCLK stands, 1 ns of time. [DESIGN CHOICE, log 2] -/
def State.cyclePass (s : State) : State :=
  if s.clocked then s.passTime.countStalls.markActive.countCredit.injectWords.samplePcs.driveSkybridge else { s with ns := s.ns + 1 }

end Sys2Proof.Machine
end

