-- ==== Sys2Proof/Machine/Atomics.lean ====
section
/-! DEFINITION. Scoped atomics (R77 to R79, R222, R223, R397). -/

namespace Sys2Proof.Machine

open Sys2Proof

/-- The 64-bit address space of an atomic's target: its space in [49:48] (R78). -/
def Atomic.space (a : Atomic) : Nat := fld a.target 49 48

/-- The address in [47:0]. -/
def Atomic.addr (a : Atomic) : Nat := fld a.target 47 0

/-- Operand bytes. -/
def Atomic.bytes (a : Atomic) : Nat := if a.wide then 8 else 4

/-- Whether the target's unassigned bits are 0 (R78). -/
def Atomic.bitsOk (a : Atomic) : Bool :=
  match a.space with
  | 0 => decide (a.addr < 2 ^ 20) && decide (fld a.target 63 50 = 0)
  | 1 => decide (a.addr < 2 ^ 23) && decide (fld a.target 63 50 = 0)
  | 2 => decide (fld a.target 63 50 = 0)
  | _ => decide (fld a.target 63 60 = 0)

/-- The scopes that each space accepts (R78). -/
def Atomic.scopeOk (a : Atomic) : Bool :=
  match a.space with
  | 0 | 1 => decide (a.scope.toNat ≤ 4)
  | 2 => decide (a.scope.toNat ≤ 6)
  | _ => decide (a.scope.toNat = 5) || decide (a.scope.toNat = 6)

/-- The new value of a word of `w` bits: the operation on the old value (R77, R79). -/
def AOp.apply (op : AOp) (w : Nat) (old cmp val : Nat) : Nat :=
  match op with
  | .swap => val
  | .cas => if old = cmp then val else old
  | .add => (old + val) % 2 ^ w
  | .and => old &&& val
  | .or => old ||| val
  | .xor => old ^^^ val
  | .min => if signedOf w val < signedOf w old then val else old
  | .max => if signedOf w old < signedOf w val then val else old
  | .minu => Nat.min old val
  | .maxu => Nat.max old val
  | .load => old
  | .store => val
  | .fadd =>
    let f := if w = 64 then fp64 else fp32
    (f.out 0 (exactAdd 0 (f.decode old) (f.decode val))).bits

/-- Perform an atomic on the bytes at `addr`: the old value and the new contents. -/
def Mem.atomic (m : Mem) (a : Atomic) (addr : Nat) : Nat × Mem :=
  let n := a.bytes
  let old := m.readNat addr n
  let w := 8 * n
  let new := a.op.apply w old (a.cmp.toNat % 2 ^ w) (a.val.toNat % 2 ^ w)
  (old, if a.op = .load then m else m.storeNat addr n new)

/-- Write the old value to d (R79). -/
def Thread.atomicResult (th : Thread) (a : Atomic) (d : Reg) (old : DWord) : Thread :=
  if a.wide then th.setPair d old else th.setG d (old.setWidth 32)

/-- The data bytes of an ATOMIC packet: operation, width, scope and target device, then the comparison value. -/
def Atomic.payload (a : Atomic) (dev : BitVec 10) : List Byte :=
  leBytes 8 ((match a.op with
    | .swap => 0 | .cas => 1 | .add => 2 | .and => 3 | .or => 4 | .xor => 5 | .min => 6 | .max => 7 | .minu => 8
    | .maxu => 9 | .load => 10 | .store => 11 | .fadd => 12) + b2n a.wide * 2 ^ 4 + a.scope.toNat * 2 ^ 5 +
    dev.toNat * 2 ^ 16) ++ leBytes 8 a.cmp.toNat

/-- The device that sequences a GROUP or SYSTEM atomic on device `dev`: the manager of that device's group (R397). -/
def State.sequencer (s : State) (dev : BitVec 10) : BitVec 10 :=
  if dev = s.devId then (if s.isManager then s.devId else (s.creg .skbGroup 0 0).extractLsb' 4 10)
  else Config.groupManager dev

/-- Send an atomic to its home: the Cupola of the Spire, the home quadrant's Far crossbar through its service port, or
the device that sequences it (R223, R397). The tag under which the answer comes. -/
def State.sendAtomic (s : State) (who : Hart) (a : Atomic) (phys : Nat) : Nat × State :=
  let g := s.newId
  let s := g.2
  let x := s.hartTenant who
  let dev : BitVec 10 := if a.space = 3 then a.target.extractLsb' 50 10 else s.devId
  let far := decide (2 ≤ a.space)
  let wide := far && decide (5 ≤ a.scope.toNat)
  if wide ∧ ! (dev = s.devId ∧ s.sequencer dev = s.devId) then
    (g.1, (s.skbAsk (s.sequencer dev) 4 x.1 x.2 false (BitVec.ofNat 64 a.addr) a.val (a.payload dev)
      (.atomic who g.1)).2)
  else
    let dst := if far then servicePort (farQuad phys) else cupolaRouter (spireOf (hartRouter who))
    (g.1, s.send (hartRouter who) dst false false x.1 (.atomic who g.1 a (BitVec.ofNat 64 phys)))

/-- Whether the target is a word of this device's Far, translated here: the space 0b10, or 0b11 with the own device ID
(R78). [DEDUCED, log 25] -/
def State.ownFar (s : State) (a : Atomic) : Bool :=
  decide (a.space = 2) || (decide (a.space = 3) && decide (a.target.extractLsb' 50 10 = s.devId))

/-- The access that an atomic makes of its granule (R204). -/
def Atomic.perm (a : Atomic) : Perm := if a.op = .load then .read else .write

/-- A scoped atomic of a compute thread at issue (R77 to R79, R205, R214). -/
def threadAtomic (i : Iss) (op : AOp) (wide : Bool) (scope : BitVec 3) (d a b : Reg) (s : State) :
    Host.Outcome State Fault Refusal :=
  issue i { g := [a, a + 1, b, d] ++ (if wide then [b + 1, d + 1] else []) } s fun t s =>
    let th := s.thread t
    let x : Atomic :=
      { op := op, wide := wide, scope := scope, target := th.pair a,
        cmp := if wide then th.pair d else (th.g d).setWidth 64,
        val := if wide then th.pair b else (th.g b).setWidth 64 }
    let go (s : State) (phys : Nat) : Eff :=
      let r := s.sendAtomic (.thread t) x phys
      .block r.2 (.atomic d x r.1)
    if ! evenReg a ∨ (wide ∧ ! (evenReg d && evenReg b)) ∨ ! x.bitsOk ∨ ! x.scopeOk then .exc 0x01 0 .scalar
    else if x.addr % x.bytes ≠ 0 then .exc 0x03 (BitVec.ofNat 32 x.addr) .scalar
    else if x.space = 0 then
      match s.localGate t x.addr x.bytes x.bytes true (decide (op ≠ .load)) with
      | .exc c => .exc c (BitVec.ofNat 32 x.addr) .scalar
      | .wait => .stall (s.rtWait t)
      | .go =>
        let r := (s.core t.core).mem.atomic x x.addr
        let s := s.modCore t.core fun k => { k with mem := r.2 }
        .done (s.modThread t fun th => th.atomicResult x d (BitVec.ofNat 64 r.1))
    else if x.space = 1 then go s (s.drumAddr (spireOf t.core) x.addr)
    else if s.ownFar x then
      let r := s.translate (.core t.core) th.tenant x.addr x.perm
      match r.1 with
      | none => .moved (r.2.syncExc t 0x11 (BitVec.ofNat 32 x.addr) th.pc .scalar)
      | some p =>
        if farPopulated p then go r.2 p
        else .moved (r.2.syncExc t 0x10 (BitVec.ofNat 32 x.addr) th.pc .scalar)
    else go s 0

/-- A scoped atomic of a Belfry core: its registers hold a doubleword each, a scope below QUAD behaves as QUAD, and the
word's line leaves the quadrant's caches before the atomic goes to its home (R20, R224, R225).
[DESIGN CHOICE, log 112] -/
def belfryAtomic (bf : BCore) (op : AOp) (wide : Bool) (scope : BitVec 3) (d a b : Reg) (s : State) :
    Host.Outcome State Fault Refusal :=
  s.belfryIssue bf fun s =>
    let k := s.bel bf
    let x : Atomic :=
      { op := op, wide := wide, scope := if scope.toNat < 3 then 3 else scope, target := k.gr a.toNat,
        cmp := k.gr d.toNat, val := k.gr b.toNat }
    let detail : DWord := BitVec.ofNat 64 x.addr
    let go (s : State) (phys : Nat) : State :=
      let r := s.sendAtomic (.belfry bf) x phys
      r.2.modBel bf fun k => { k with block := some (.atomic d x r.1) }
    if ! x.bitsOk ∨ x.space < 2 ∨ ! x.scopeOk then s.belfryEnter bf 0x01 0 0
    else if x.addr % x.bytes ≠ 0 then s.belfryEnter bf 0x03 detail 0
    else if s.ownFar x then
      let r := s.belfryPhys bf x.addr x.perm
      match r.1 with
      | none => r.2.belfryEnter bf 0x11 detail 0
      | some p =>
        if farPopulated p then go (r.2.evictLine (belQuad bf) (p / 64) fun _ => true) p
        else r.2.belfryEnter bf 0x10 detail 0
    else go s 0

/-- A scoped atomic at issue (R20, R77 to R79). -/
def atomicOp (who : By) (op : AOp) (wide : Bool) (scope : BitVec 3) (d a b : Reg) (s : State) :
    Host.Outcome State Fault Refusal :=
  match who with
  | .compute i => threadAtomic i op wide scope d a b s
  | .belfry bf => belfryAtomic bf op wide scope d a b s

/-- `aswap` (R77). -/
def execAswap (who : By) (wide : Bool) (scope : BitVec 3) (d a b : Reg) (s : State) : Host.Outcome State Fault Refusal :=
  atomicOp who .swap wide scope d a b s

/-- `acas` (R77). -/
def execAcas (who : By) (wide : Bool) (scope : BitVec 3) (d a b : Reg) (s : State) : Host.Outcome State Fault Refusal :=
  atomicOp who .cas wide scope d a b s

/-- `aadd` (R77). -/
def execAadd (who : By) (wide : Bool) (scope : BitVec 3) (d a b : Reg) (s : State) : Host.Outcome State Fault Refusal :=
  atomicOp who .add wide scope d a b s

/-- `aand` (R77). -/
def execAand (who : By) (wide : Bool) (scope : BitVec 3) (d a b : Reg) (s : State) : Host.Outcome State Fault Refusal :=
  atomicOp who .and wide scope d a b s

/-- `aor` (R77). -/
def execAor (who : By) (wide : Bool) (scope : BitVec 3) (d a b : Reg) (s : State) : Host.Outcome State Fault Refusal :=
  atomicOp who .or wide scope d a b s

/-- `axor` (R77). -/
def execAxor (who : By) (wide : Bool) (scope : BitVec 3) (d a b : Reg) (s : State) : Host.Outcome State Fault Refusal :=
  atomicOp who .xor wide scope d a b s

/-- `amin` (R77). -/
def execAmin (who : By) (wide : Bool) (scope : BitVec 3) (d a b : Reg) (s : State) : Host.Outcome State Fault Refusal :=
  atomicOp who .min wide scope d a b s

/-- `amax` (R77). -/
def execAmax (who : By) (wide : Bool) (scope : BitVec 3) (d a b : Reg) (s : State) : Host.Outcome State Fault Refusal :=
  atomicOp who .max wide scope d a b s

/-- `aminu` (R77). -/
def execAminu (who : By) (wide : Bool) (scope : BitVec 3) (d a b : Reg) (s : State) : Host.Outcome State Fault Refusal :=
  atomicOp who .minu wide scope d a b s

/-- `amaxu` (R77). -/
def execAmaxu (who : By) (wide : Bool) (scope : BitVec 3) (d a b : Reg) (s : State) : Host.Outcome State Fault Refusal :=
  atomicOp who .maxu wide scope d a b s

/-- `aload` (R77). -/
def execAload (who : By) (wide : Bool) (scope : BitVec 3) (d a b : Reg) (s : State) : Host.Outcome State Fault Refusal :=
  atomicOp who .load wide scope d a b s

/-- `astore` (R77). -/
def execAstore (who : By) (wide : Bool) (scope : BitVec 3) (d a b : Reg) (s : State) : Host.Outcome State Fault Refusal :=
  atomicOp who .store wide scope d a b s

/-- `afadd` (R77, R79). -/
def execAfadd (who : By) (wide : Bool) (scope : BitVec 3) (d a b : Reg) (s : State) : Host.Outcome State Fault Refusal :=
  atomicOp who .fadd wide scope d a b s

/-- What an atomic finds at its home: a domain that takes no new work refuses it, a poisoned word is left unchanged, else
it is performed (R79, R223). -/
def State.atomicAtHome (s : State) (a : Atomic) (sp : Spire) (phys : Nat) : (Nat × Option (BitVec 8)) × State :=
  let n := a.bytes
  if a.space = 1 then
    if ! s.domOpen sp.toNat then ((0, some 0x12), s)
    else if (s.spire sp).drum.poisoned phys n then ((0, some 0x05), s)
    else
      let r := (s.spire sp).drum.atomic a phys
      ((r.1, none), s.modSpire sp fun k => { k with drum := r.2 })
  else if ! s.farOpen phys then ((0, some 0x12), s)
  else if s.far.poisoned phys n then ((0, some 0x05), s)
  else
    let r := s.far.atomic a phys
    ((r.1, none), { s with far := r.2 })

/-- An atomic is performed at the home of its word, and the old value goes back (R202, R216, R222, R223); one whose operand
is poisoned leaves the word and is refused (R275). [DESIGN CHOICE, log 29] -/
def execAtomicAtHome (id : Nat) (s : State) : Host.Outcome State Fault Refusal :=
  .next (match s.arrived? id with
    | some p =>
      match p.body with
      | .atomic who tag a phys =>
        let s := s.consume id
        let r := if p.bad then ((0, some 0x05), s) else s.atomicAtHome a (spireOf (hartRouter who)) phys.toNat
        r.2.send p.dst p.src true true p.tenant (.atomicAnswer who tag (BitVec.ofNat 64 r.1.1) r.1.2)
      | _ => s
    | none => s)

/-- A requester takes the answer of its atomic: the old value, or the cause (R79). -/
def State.atomicAnswered (s : State) (who : Hart) (tag : Nat) (old : DWord) (fault : Option (BitVec 8)) : State :=
  match who with
  | .thread t =>
    match (s.thread t).status with
    | .blocked (.atomic d a k) =>
      if k ≠ tag then s
      else
        match fault with
        | none => (s.modThread t fun th => th.atomicResult a d old).resume t
        | some c => s.syncExc t c 0 (s.thread t).pc .scalar
    | _ => s
  | .belfry b =>
    match (s.bel b).block with
    | some (.atomic d _ k) =>
      if k ≠ tag then s
      else
        match fault with
        | none => (s.modBel b fun r => { r.setGr d.toNat old with block := none }).belfryNext b
        | some c => (s.modBel b fun r => { r with block := none }).belfryEnter b c 0 0
    | _ => s

/-- The old value of an atomic reaches its requester (R79, R223). -/
def execAtomicResponse (id : Nat) (s : State) : Host.Outcome State Fault Refusal :=
  .next (match s.arrived? id with
    | some p =>
      match p.body with
      | .atomicAnswer who tag old fault => (s.consume id).atomicAnswered who tag old fault
      | _ => s
    | none => s)

end Sys2Proof.Machine
end

