-- ==== Sys2Proof/Machine/Branch.lean ====
section
/-! DEFINITION. Branches, hardware loops and `nop` (R47, R58 to R60, R65). -/

namespace Sys2Proof.Machine

open Sys2Proof

/-- `b`: a taken relative branch; levels whose body excludes the target are abandoned (R60). -/
def execB (i : Iss) (off : BitVec 22) (s : State) : Host.Outcome State Fault Refusal :=
  issue i {} s fun t s => .jump s (branchTarget (s.thread t).pc off) true

/-- `bl`: as `b`, with the return address in g30 and no level abandoned (R40, R60). -/
def execBl (i : Iss) (off : BitVec 22) (s : State) : Host.Outcome State Fault Refusal :=
  issue i { wg := [30] } s fun t s =>
    .jump (s.modThread t fun th => th.setG 30 (th.pc + 4)) (branchTarget (s.thread t).pc off) false

/-- `jr`: jump to a (R65). -/
def execJr (i : Iss) (a : Reg) (s : State) : Host.Outcome State Fault Refusal :=
  issue i { g := [a] } s fun t s => .jump s ((s.thread t).g a) true

/-- `jalr`: jump to a, with the return address in g30 and no level abandoned (R60, R65). -/
def execJalr (i : Iss) (a : Reg) (s : State) : Host.Outcome State Fault Refusal :=
  issue i { g := [a], wg := [30] } s fun t s =>
    .jump (s.modThread t fun th => th.setG 30 (th.pc + 4)) ((s.thread t).g a) false

/-- `ret`: jump to g30 (R65). -/
def execRet (i : Iss) (s : State) : Host.Outcome State Fault Refusal :=
  issue i { g := [30] } s fun t s => .jump s ((s.thread t).g 30) true

/-- The registers a `loop` count reads. -/
def loopUses : LoopCount → List Reg
  | .imm _ => []
  | .reg r => [r]

/-- The value of a `loop` count. -/
def loopValue (c : LoopCount) (b : Bank) : Word :=
  match c with
  | .imm n => n.setWidth 32
  | .reg r => b.reg r

/-- `loop`: opens a level over the next `len` + 1 instructions, skips them when the count is 0, and raises
`LOOP_NEST` at depth 3 (R58). A `loop` that itself stands at the end address of the level around it is not tested for
that level, with any count: R58 says where it goes on, and neither R58 nor R59 says which wins.
[DESIGN CHOICE, log 110] -/
def execLoop (i : Iss) (cnt : LoopCount) (len : BitVec 10) (s : State) : Host.Outcome State Fault Refusal :=
  issue i { g := loopUses cnt } s fun t s =>
    let th := s.thread t
    let b := th.bank
    let n := loopValue cnt b
    let le := th.pc + BitVec.ofNat 32 (4 * (len.toNat + 1))
    if b.depth = 3 then .exc 0x06 0 .scalar
    else if n = 0 then .moved (s.setThread t { th with pc := le + 4 })
    else
      let b := { b.setLoop b.depth.toNat { ls := th.pc + 4, le := le, lc := n } with depth := b.depth + 1 }
      .moved (s.setThread t { th.setBank b with pc := th.pc + 4 })

/-- `nop`: nothing (R65). -/
def execNop (i : Iss) (s : State) : Host.Outcome State Fault Refusal := issue i {} s fun _ s => .done s

end Sys2Proof.Machine
end

