-- ==== Sys2Proof/Machine/Errors.lean ====
section
/-! DEFINITION. Error reports, the suspect filters and the error hub (R460 to R477). -/

namespace Sys2Proof.Machine

open Sys2Proof

/-! ### Records (R460, R463, R464) -/

/-- Whether a class carries a suspect (R463). -/
def suspectClass (c : Byte) : Bool := decide (0x40 ≤ c.toNat) && decide (c.toNat ≤ 0x43)

/-- The suspect key (R463). -/
def Report.key (r : Report) : Nat := fld r.detail 25 0

/-- Whether two reports are of one suspect, class and tenant (R469). -/
def Report.sameSuspect (r q : Report) : Bool :=
  decide (r.key = q.key) && decide (r.cls = q.cls) && decide (r.tenant = q.tenant)

/-- Whether a report merges into a queued one: same device, unit, class and tenant, or same suspect, class and tenant
(R466, R470). -/
def Report.mergesWith (r q : Report) : Bool :=
  if suspectClass r.cls then r.sameSuspect q
  else
    decide (r.device = q.device) && decide (r.kind = q.kind) && decide (r.index = q.index) && decide (r.cls = q.cls) &&
    decide (r.tenant = q.tenant)

/-- A count that saturates at 32 bits. -/
def sat32 (n : Nat) : Nat := min n (2 ^ 32 - 1)

/-- The 40 bytes of a record with its envelope (R460, R464). -/
def HubRec.bytes (h : HubRec) : List Byte :=
  let r := h.rep
  leBytes 2 (r.index.toNat + r.kind.toNat * 2 ^ 12) ++ (leBytes 1 r.cls.toNat ++
    (leBytes 1 (r.sev.toNat + b2n h.rpt * 4 + b2n h.overflow * 8 + b2n r.poison * 16 + b2n (suspectClass r.cls) * 32) ++
    (leBytes 4 r.count ++ (leBytes 8 r.first ++ (leBytes 8 r.last ++ (leBytes 8 r.detail.toNat ++
    (leBytes 4 (r.device.toNat + r.tenant.toNat * 2 ^ 16 + b2n h.fwd * 2 ^ 20 + r.level.toNat * 2 ^ 21) ++
    leBytes 4 h.seq)))))))

/-- The report that a record's 40 bytes carry. -/
def parseRecord (bs : List Byte) : Report :=
  let n (off k : Nat) : Nat := leNat ((bs.drop off).take k)
  { kind := BitVec.ofNat 4 (n 0 2 / 2 ^ 12), index := BitVec.ofNat 12 (n 0 2), cls := BitVec.ofNat 8 (n 2 1),
    sev := BitVec.ofNat 2 (n 3 1), poison := decide (n 3 1 / 16 % 2 = 1), count := n 4 4, first := n 8 8, last := n 16 8,
    detail := BitVec.ofNat 64 (n 24 8), tenant := BitVec.ofNat 4 (n 32 4 / 2 ^ 16), device := BitVec.ofNat 10 (n 32 4),
    level := BitVec.ofNat 2 (n 32 4 / 2 ^ 21) }

/-! ### Suspect filters (R469, R470) -/

/-- What a filter makes of a contribution: its entries after it, what passes on, whether it passes for want of an
entry. -/
structure Filtered where
  ents : List FiltEnt
  out : List Report
  full : Bool

/-- The contribution that a closing entry passes on, where its pending count is not zero. -/
def FiltEnt.pending (e : FiltEnt) : List Report :=
  if e.pend = 0 then [] else [{ e.rep with count := e.pend, first := e.since, last := e.last }]

/-- A filter with window `w` in nanoseconds takes a contribution; the entry's FIRST is the earliest (R469, R472). -/
def filterTake (es : List FiltEnt) (w : Nat) (r : Report) : Filtered :=
  let fresh (es : List FiltEnt) (out : List Report) : Filtered :=
    if es.length < 64 then { ents := es ++ [{ rep := r, pend := 0, since := r.first, last := r.last }], out := out ++ [r], full := false }
    else { ents := es, out := out ++ [r], full := true }
  match es.find? fun e => e.rep.sameSuspect r with
  | none => fresh es []
  | some e =>
    if r.first ≤ e.rep.first + w then
      { ents := es.map fun x => if x.rep.sameSuspect r then
          { x with
              rep := { x.rep with first := min x.rep.first r.first }, pend := sat32 (x.pend + r.count), since := if x.pend = 0 then r.first else min x.since r.first,
              last := max x.last r.last }
          else x,
        out := [], full := false }
    else fresh (es.filter fun x => ! x.rep.sameSuspect r) e.pending

/-- The coalescing window W in nanoseconds. -/
def State.coalesceNs (s : State) : Nat := fld (s.creg .ehWin 0 0) 13 0 * 100000

/-! ### The hub's queue (R465, R466, R468) -/

/-- Send a tenant's error vector. -/
def State.errVector (s : State) (t : BitVec 4) : State :=
  s.hostOut (.msix t (BitVec.ofNat 7 (fld (s.creg .partCfg t.toNat 0) 14 8)))

/-- A record has entered the queue or risen in severity (R468). -/
def State.signalRecord (s : State) (r : Report) : State :=
  let s := s.errVector r.tenant
  if r.sev = 3 ∧ r.tenant ≠ 0 then s.errVector 0 else s

/-- Whether a report is a lost tag of a Belfry cluster that holds one of the task's cores (R228). -/
def Report.ofCluster (r : Report) (t : Task) : Bool :=
  decide (r.kind = 6) && decide (r.cls = 0x03) && t.belfry.any fun b => decide (b / 4 = r.index.toNat / 4)

/-- What a fatal report of this device's own unit does at once (R30, R465, R468). [DEDUCED, log 60] -/
def State.fatal (s : State) (r : Report) : State :=
  let unit := r.index.toNat + r.kind.toNat * 2 ^ 12
  if r.device ≠ s.devId then s
  else if r.sev = 2 then s.endTasks (fun t => s.usesUnit t r.kind.toNat r.index.toNat || r.ofCluster t) 0x0F (some unit)
  else if r.sev = 3 then
    let s : State := { s with devFault := true }
    let s := if bit (s.creg .ehCtl 0 0) 2 then s.assertFault 3 else s
    s.endTasks (fun _ => true) 0x14 none
  else s

/-- The larger of two severities. -/
def maxSev (a b : BitVec 2) : BitVec 2 := if a < b then b else a

/-- The queue after a merge, where a record takes the report (R466). -/
def mergeInto (r : Report) : List HubRec → Option (Report × List HubRec)
  | [] => none
  | h :: t =>
    if r.mergesWith h.rep then
      let q : Report :=
        { h.rep with
            count := sat32 (h.rep.count + r.count), last := max h.rep.last r.last, poison := h.rep.poison || r.poison,
            sev := maxSev h.rep.sev r.sev }
      some (h.rep, { h with rep := q, rpt := true } :: t)
    else (mergeInto r t).map fun p => (p.1, h :: p.2)

/-- The queue with OVERFLOW set in its newest record. -/
def markOverflow (n : Nat) (q : List HubRec) : List HubRec :=
  q.map fun h => if h.seq + 1 = n then { h with overflow := true } else h

/-- The newest record's SEQ. -/
def newestSeq (q : List HubRec) : Nat := q.foldl (fun m h => max m (h.seq + 1)) 0

/-- A report or contribution meets the queue: it merges, enters or is lost (R466). -/
def State.hubEnter (s : State) (r : Report) (fwd : Bool) : State :=
  match mergeInto r s.hubQueue with
  | some (old, q) =>
    let s := ({ s with hubQueue := q } : State).bump .ehMerged 0 0 r.count
    if old.sev < r.sev then s.signalRecord { old with sev := r.sev } else s
  | none =>
    if s.hubQueue.length < 256 then
      let h : HubRec := { rep := r, seq := s.hubSeq, overflow := false, rpt := decide (1 < r.count), fwd := fwd }
      let s : State := { s with hubQueue := s.hubQueue ++ [h], hubSeq := (s.hubSeq + 1) % 2 ^ 32 }
      (s.trace 9 none (r.index.toNat + r.kind.toNat * 2 ^ 12 + r.cls.toNat * 2 ^ 16 + r.sev.toNat * 2 ^ 24)).signalRecord r
    else
      let s := s.bump .ehOvf 0 0 r.count
      let s : State := { s with hubQueue := markOverflow (newestSeq s.hubQueue) s.hubQueue }
      let st := s.creg .ehStat 0 0
      if bit st 16 then s else (s.setCreg .ehStat 0 0 (st ||| 0x10000#32)).errVector 0

/-- Send a contribution to another device as an ERROR_RECORD packet (R471, R472). -/
def State.sendRecord (s : State) (dst : BitVec 10) (r : Report) : State :=
  let h : HubRec := { rep := r, seq := s.hubSeq, overflow := false, rpt := decide (1 < r.count), fwd := true }
  let s : State :=
    { s with
        toSkb := s.toSkb ++
          [{ dst := dst, src := s.devId, ptype := 11, tenant := r.tenant, epoch := 0, tag := 0, poison := false, addr := 0,
             arg := 0, e2eOk := true, data := h.bytes }] }
  s.bump .ehFwd 0 0 1

/-- Whether this device is the tick master: the manager of group 0 (R394). -/
def State.isMaster (s : State) : Bool := s.isManager && decide (fld (s.creg .skbGroup 0 0) 3 0 = 0)

/-- The manager of this device's group. -/
def State.managerId (s : State) : BitVec 10 := (s.creg .skbGroup 0 0).extractLsb' 4 10

/-- A contribution that has passed the group filter (R472, R473). -/
def State.groupPassed (s : State) (fwd : Bool) (r : Report) : State :=
  let r := { r with level := 1 }
  if s.isMaster then
    let f := filterTake s.sysFilter (5 * s.coalesceNs) r
    let s : State := { s with sysFilter := f.ents }
    let s := if f.full then s.bump .ehSfull 0 0 r.count else s
    f.out.foldl (fun s r => s.hubEnter { r with level := 2 } fwd) s
  else
    let s := s.hubEnter r fwd
    if bit (s.creg .ehCtl 0 0) 1 then s.sendRecord Config.tickMaster r else s

/-- A contribution reaches the group filter (R472). -/
def State.groupTake (s : State) (fwd : Bool) (r : Report) : State :=
  let f := filterTake s.grpFilter (3 * s.coalesceNs) r
  let s : State := { s with grpFilter := f.ents }
  let s := if f.full then s.bump .ehSfull 0 0 r.count else s
  f.out.foldl (fun s r => s.groupPassed fwd r) s

/-- Whether the queue has no place for a report, which is then lost (R466). -/
def State.hubLoses (s : State) (r : Report) : Bool :=
  (mergeInto r s.hubQueue).isNone && decide (256 ≤ s.hubQueue.length)

/-- The hub receives a report or a contribution of this device; a worker's is sent on where it enters the queue or merges
into it (R465, R466, R471, R472). -/
def State.hubTake (s : State) (r : Report) : State :=
  let s := s.fatal r
  if s.isManager then
    if suspectClass r.cls then s.groupTake false r else s.hubEnter r false
  else
    let lost := s.hubLoses r
    let s := s.hubEnter r false
    if bit (s.creg .ehCtl 0 0) 0 ∧ ! lost then s.sendRecord s.managerId r else s

/-! ### The commands -/

/-- ERROR_REPORT: the oldest report of a collector passes on, a suspect's through the quadrant's filter
(R466, R469). -/
def execErrorReport (q : Quad) (s : State) : Host.Outcome State Fault Refusal :=
  .next (match (s.quad q).reports with
    | [] => s
    | r :: rest =>
      let s := s.modQuad q fun k => { k with reports := rest }
      if suspectClass r.cls then
        let f := filterTake (s.quad q).filter s.coalesceNs r
        let s := s.modQuad q fun k => { k with filter := f.ents }
        let s := if f.full then (s.bump .colSfull q.toNat 0 r.count).bump .ehSfull 0 0 r.count else s
        f.out.foldl (fun s r => s.hubTake r) s
      else s.hubTake r)

/-- Whether the window of an entry has ended. -/
def State.windowOver (s : State) (e : FiltEnt) (w : Nat) : Bool := decide (e.rep.first + w ≤ s.ns)

/-- COALESCING_WINDOW_END: entry `k` of a quadrant's filter closes (R469). -/
def execCoalescingWindowEnd (q : Quad) (k : Nat) (s : State) : Host.Outcome State Fault Refusal :=
  .next (match (s.quad q).filter[k]? with
    | none => s
    | some e =>
      if ! s.windowOver e s.coalesceNs then s
      else e.pending.foldl (fun s r => s.hubTake r) (s.modQuad q fun x => { x with filter := x.filter.eraseIdx k }))

/-- GROUP_WINDOW_END: entry `k` of the group filter closes (R472). -/
def execGroupWindowEnd (k : Nat) (s : State) : Host.Outcome State Fault Refusal :=
  .next (match s.grpFilter[k]? with
    | none => s
    | some e =>
      if ! s.windowOver e (3 * s.coalesceNs) then s
      else
        e.pending.foldl (fun s r => s.groupPassed (decide (r.device ≠ s.devId)) r)
          { s with grpFilter := s.grpFilter.eraseIdx k })

/-- SYSTEM_WINDOW_END: entry `k` of the system filter closes (R473). -/
def execSystemWindowEnd (k : Nat) (s : State) : Host.Outcome State Fault Refusal :=
  .next (match s.sysFilter[k]? with
    | none => s
    | some e =>
      if ! s.windowOver e (5 * s.coalesceNs) then s
      else
        e.pending.foldl (fun s r => s.hubEnter { r with level := 2 } (decide (r.device ≠ s.devId)))
          { s with sysFilter := s.sysFilter.eraseIdx k })

/-- A forwarded record reaches a manager: a suspect's passes the group filter, or, from another manager, the system
filter; any other enters the queue (R472, R473). -/
def State.takeRecord (s : State) (r : Report) : State :=
  if ! s.isManager then s
  else if suspectClass r.cls then
    if r.level = 0 then s.groupTake true r else if s.isMaster then s.groupPassed true r else s
  else s.hubEnter r true

/-! ### Service order (R467, R477) -/

/-- Put a record in service order: the higher severity first, then SEQ. -/
def insService (h : HubRec) : List HubRec → List HubRec
  | [] => [h]
  | x :: r =>
    if x.rep.sev < h.rep.sev || (decide (x.rep.sev = h.rep.sev) && decide (h.seq < x.seq)) then h :: x :: r
    else x :: insService h r

/-- The queue in service order. -/
def State.service (s : State) : List HubRec := s.hubQueue.foldl (fun l h => insService h l) []

/-- Remove a record from the queue. -/
def State.dropRecord (s : State) (h : HubRec) : State := { s with hubQueue := s.hubQueue.filter fun x => x.seq ≠ h.seq }

/-- A write of `EH_POP`: 1 removes the first record in service order. -/
def State.writePop (s : State) (v : Word) : State :=
  if bit v 0 then
    match s.service with
    | h :: _ => s.dropRecord h
    | [] => s
  else s

/-- EH_POP (R467). -/
def execEhPop (ag : Agent) (s : State) : Host.Outcome State Fault Refusal :=
  .next (s.gated ag .ehPop 0 fun s => s.writePop 1)

/-- The ten words of the first record in service order, zero where there is none. -/
def State.recWords (s : State) : List Word :=
  match s.service with
  | h :: _ => bytesWords 10 h.bytes
  | [] => []

/-- A read of `EH_REC0` latches the ten words for the reader (R477). [DEDUCED, log 55] -/
def State.latchRec (s : State) (ag : Agent) : State :=
  { s with hubLatch := (ag, s.recWords) :: s.hubLatch.filter fun p => p.1 ≠ ag }

/-- EH_REC0_READ. -/
def execEhRec0Read (ag : Agent) (s : State) : Host.Outcome State Fault Refusal := .next (s.latchRec ag)

/-- A write of `COL_INJ_HI` while debug access is open: GO injects the report; while closed it is ignored (R477). -/
def State.writeInjHi (s : State) (q : Quad) (v : Word) : State :=
  if s.dbgLevel = 0 then s
  else
    let s := s.setCreg .colInjHi q.toNat 0 (v &&& 0x3FFFFFF#32)
    if bit v 31 then
      let kind : BitVec 4 := v.extractLsb' 12 4
      let index : BitVec 12 := v.setWidth 12
      let tenant : BitVec 4 := if kind = 0 then (s.core (index.setWidth 11)).tenant else 0
      s.report q (s.mkReport kind index (v.extractLsb' 16 8) (v.extractLsb' 24 2)
        ((s.creg .colInjLo q.toNat 0).setWidth 64) tenant)
    else s

/-- COL_INJ_GO. [DEDUCED, log 63] -/
def execColInjGo (ag : Agent) (q : Quad) (v : Word) (s : State) : Host.Outcome State Fault Refusal :=
  .next (s.gated ag .colInjHi q.toNat fun s => s.writeInjHi q (v ||| 0x80000000#32))

end Sys2Proof.Machine
end

