-- ==== Sys2Proof/Machine/Clocktower.lean ====
section
/-! DEFINITION. The commands of the Clocktower (R350 to R368). -/

namespace Sys2Proof.Machine

open Sys2Proof

/-- EDGE_NOTICE: the notice is given in the first cycle in which it is due. -/
def execEdgeNotice (s : State) : Host.Outcome State Fault Refusal :=
  .next (if s.noticeDue then s.giveNotice (s.now + 64) else s)

/-- TICK_MAX_EXPIRY: an ELASTIC device gives its notice 64 cc before `TICK_MAX`; the master of an ELASTIC system sets its
target at `TICK_MAX` after the previous one (R355, R362). -/
def execTickMaxExpiry (s : State) : Host.Outcome State Fault Refusal :=
  .next (
    let limit := (s.creg .tickMax 0 0).toNat
    if ! s.ct.running ∨ ! s.elastic ∨ s.ct.first ∨ s.ct.src = 1 ∨ s.ct.notice.isSome then s
    else if s.distributes then
      if s.ct.target.isNone ∧ s.ct.lastTarget + limit ≤ s.ns then s.setTarget true else s
    else if s.noticeTime (s.ct.edgeNs + limit) then
      let ct : Clocktower := { s.ct with atMax := true }
      ({ s with ct := ct } : State).giveNotice (s.now + 64)
    else s)

/-- TICK_EDGE: the edge whose notice was given, in its cycle or later. -/
def execTickEdge (s : State) : Host.Outcome State Fault Refusal :=
  .next (if s.edgeDue then s.takeEdge else s)

/-- TICK_CTL_EN_SET. -/
def execTickCtlEnSet (ag : Agent) (v : Word) (s : State) : Host.Outcome State Fault Refusal :=
  .next (s.gated ag .tickCtl 0 fun s => s.writeTickCtl (v ||| 1#32))

/-- TICK_CTL_EN_CLEAR. -/
def execTickCtlEnClear (ag : Agent) (v : Word) (s : State) : Host.Outcome State Fault Refusal :=
  .next (s.gated ag .tickCtl 0 fun s => s.writeTickCtl (v &&& ~~~ 1#32))

/-- TICK_PERIOD_WRITE. -/
def execTickPeriodWrite (ag : Agent) (v : Word) (s : State) : Host.Outcome State Fault Refusal :=
  .next (s.gated ag .tickPeriod 0 fun s => s.writeTickPeriod v)

/-- TICK_MIN_WRITE. -/
def execTickMinWrite (ag : Agent) (v : Word) (s : State) : Host.Outcome State Fault Refusal :=
  .next (s.gated ag .tickMin 0 fun s => s.writeTickMin v)

/-- TICK_MAX_WRITE. -/
def execTickMaxWrite (ag : Agent) (v : Word) (s : State) : Host.Outcome State Fault Refusal :=
  .next (s.gated ag .tickMax 0 fun s => s.writeTickMax v)

/-- CT_TIME_LO_READ. -/
def execCtTimeLoRead (ag : Agent) (s : State) : Host.Outcome State Fault Refusal := .next (s.latchTime ag)

/-- EDGE_MESSAGE_SEND: `TICK_LEAD` before its target an edge is announced to every other device (R361). -/
def execEdgeMessageSend (s : State) : Host.Outcome State Fault Refusal :=
  .next (
    if ! s.ct.running ∨ ! s.distributes ∨ s.ct.sent then s
    else
      match s.masterTarget with
      | none => s
      | some t =>
        if s.ns + (s.creg .tickLead 0 0).toNat < t then s
        else
          let ct : Clocktower := { s.ct with sent := true }
          s.otherDevices.foldl (fun s d =>
            s.tell d 14 (BitVec.ofNat 64 s.nextTick) (BitVec.ofNat 64 t) (leBytes 8 s.ns)) { s with ct := ct })

/-- DEVICE_READY_REPORT: with every participating Spire ready, a worker tells the master, and the master counts itself
(R362). -/
def execDeviceReadyReport (s : State) : Host.Outcome State Fault Refusal :=
  .next (
    if ! s.ct.running ∨ ! s.elastic ∨ s.ct.first ∨ s.ct.readySent ∨ ! s.allReady then s
    else
      let ct : Clocktower := { s.ct with readySent := true }
      let t : State := { s with ct := ct }
      if s.ct.src = 1 then t.tell Config.tickMaster 15 0 0 []
      else if s.distributes then t.takeReady s.devId
      else s)

/-- TICK_IN_EDGE: an input edge less than 10,000 ns after the previous one is ignored; another starts a tick (R363).
[DESIGN CHOICE, log 102] -/
def execTickInEdge (s : State) : Host.Outcome State Fault Refusal :=
  .next (
    if s.ct.src ≠ 2 ∨ ! s.ct.running then s
    else if (match s.ct.lastIn with | some t => decide (s.ns < t + 10000) | none => false) then
      s.setCreg .tickStat 0 0 (s.creg .tickStat 0 0 ||| 0x10#32)
    else
      let ct : Clocktower := { s.ct with lastIn := some s.ns }
      let t : State := { s with ct := ct }
      if s.ct.notice.isSome then t else t.giveNotice s.now)

/-- TICK_LOSS: no edge from outside within the bound (R32, R365). -/
def execTickLoss (s : State) : Host.Outcome State Fault Refusal :=
  .next (
    let bound := if s.elastic then (s.creg .tickMax 0 0).toNat else 2 * s.ct.period
    if ! s.ct.running ∨ s.ct.src = 0 ∨ s.ct.first ∨ s.ct.lost ∨ s.ns < s.ct.edgeNs + bound then s
    else
      let ct : Clocktower := { s.ct with lost := true }
      let s : State := { s with ct := ct }
      (s.setCreg .tickStat 0 0 (s.creg .tickStat 0 0 ||| 2#32)).reportDevice 7 0 0x31 2 (s.ct.tick.setWidth 64) 0)

/-- The period of the watchdog in ns. -/
def State.wdtNs (s : State) : Nat := fld (s.creg .ctWdt 0 0) 5 0 * 1000000000

/-- Whether a task that runs has a free thread without activity since the last sample (R366). -/
def State.stuck (s : State) (t : Task) : Bool :=
  t.live &&
  (plThreads t.image t.place).any fun e =>
    let th := s.thread e.tid
    th.enabled && ! th.ctl.bound && ! th.active

/-- WATCHDOG_SAMPLE: Duboette reads every activity bit once per period; stuck tasks end with the watchdog's status; with
the others running on it counts a heartbeat, kicks and, as a worker, tells its manager (R366, R396).
[DEDUCED, log 115] -/
def execWatchdogSample (s : State) : Host.Outcome State Fault Refusal :=
  .next (
    if ! s.keep.duboette ∨ ! s.domOpen 95 ∨ s.ns < s.ct.sampled + s.wdtNs then s
    else
      let ct : Clocktower := { s.ct with sampled := s.ns }
      let s : State := { s with ct := ct }
      let ends := (s.tasks.filter fun p => s.stuck p.2).map (·.1)
      let s := s.threads.foldl (fun s p =>
        s.modThread { core := BitVec.ofNat 11 (p.1 / 4), thread := BitVec.ofNat 2 p.1 } fun th => { th with act := false }) s
      let s := ends.foldl (fun s h => (s.endTask h 0x10 none).2) s
      let s := s.setCreg .ctHbeat 0 0 (s.creg .ctHbeat 0 0 + 1)
      let s := s.writeWdt 0x100
      if bit (s.creg .skbRtctl 0 0) 0 ∧ ! s.isManager then s.tell s.managerId 12 0 0 [] else s)

/-- WATCHDOG_KICK. -/
def execWatchdogKick (ag : Agent) (s : State) : Host.Outcome State Fault Refusal :=
  .next (s.gated ag .ctWdt 0 fun s => s.writeWdt 0x100)

/-- WATCHDOG_EXPIRY: no kick for a whole period (R366). -/
def execWatchdogExpiry (s : State) : Host.Outcome State Fault Refusal :=
  .next (
    if ! s.domOpen 95 ∨ bit (s.creg .tickStat 0 0) 3 ∨ s.ns < s.ct.wdtStart + s.wdtNs then s
    else
      ((s.setCreg .tickStat 0 0 (s.creg .tickStat 0 0 ||| 8#32)).assertFault 2).reportDevice 6 0 0x33 3 0 0)

end Sys2Proof.Machine
end

