-- ==== Sys2Proof/Machine/CollOps.lean ====
section
/-! DEFINITION. Accesses of another device to Far, and the collective engine (R207, R390 to R393). -/

namespace Sys2Proof.Machine

open Sys2Proof

/-! ### Far on behalf of Skybridge (R207) -/

/-- Translate pieces of a tenant's window at the Far crossbar of quadrant `q`; none where a piece is not mapped, not
populated or behind a domain that carries nothing. Far of a removed quadrant is reached and answers with poison (R29). -/
def State.crossbarRuns (s : State) (q : Quad) (t : BitVec 4) (p : Perm) :
    List (Nat × Nat) → Option (List (Nat × Nat)) × State
  | [] => (some [], s)
  | (a, n) :: r =>
    let x := s.translate (.fxb q) t a p
    match x.1 with
    | none => (none, x.2)
    | some f =>
      if ! (farPopulated f && (s.farDead f || s.farCarries f)) then (none, x.2)
      else
        let y := x.2.crossbarRuns q t p r
        (y.1.map fun l => (f, n) :: l, y.2)

/-- The pieces of `n` bytes at window address `a`. -/
def State.windowRuns (s : State) (q : Quad) (t : BitVec 4) (p : Perm) (a n : Nat) : Option (List (Nat × Nat)) × State :=
  s.crossbarRuns q t p (cutRuns (2 ^ 21) a n (n / 2 ^ 21 + 2))

/-- Read a tenant's window. -/
def State.readWindow (s : State) (q : Quad) (t : BitVec 4) (a n : Nat) : Option (List (Byte × Bool)) × State :=
  let r := s.windowRuns q t .read a n
  (r.1.map r.2.readFar, r.2)

/-- Write a tenant's window; whether all of it was there. What falls into a removed quadrant is discarded (R29). -/
def State.writeWindow (s : State) (q : Quad) (t : BitVec 4) (a : Nat) (bs : List (Byte × Bool)) : Bool × State :=
  let r := s.windowRuns q t .write a bs.length
  match r.1 with
  | none => (false, r.2)
  | some runs =>
    let parts := (spread runs bs).filter fun p => ! r.2.farDead p.1
    let bad := parts.flatMap fun p => (p.2.zipIdx.filter fun b => b.1.2).map fun b => p.1 + b.2
    let far := storeRuns r.2.far (parts.map fun p => (p.1, p.2.map (·.1))) bad
    (runs.all fun p => ! r.2.farDead p.1, { r.2 with far := far })

/-! ### Collective descriptors (R390) -/

/-- LEN. -/
def cLen (d : BitVec 512) : Nat := fld d 159 128
/-- OP. -/
def cOp (d : BitVec 512) : Nat := fld d 163 160
/-- ROOT: only the root receives the result. -/
def cRoot (d : BitVec 512) : Bool := bit d 164
/-- ID. -/
def cId (d : BitVec 512) : BitVec 16 := d.extractLsb' 176 16
/-- BOXLO. -/
def cLo (d : BitVec 512) : BitVec 10 := d.extractLsb' 192 10
/-- BOXHI. -/
def cHi (d : BitVec 512) : BitVec 10 := d.extractLsb' 208 10
/-- CTR. -/
def cCtr (d : BitVec 512) : BitVec 16 := d.extractLsb' 256 16
/-- INC. -/
def cInc (d : BitVec 512) : Nat := fld d 287 272
/-- NOTE. -/
def cNote (d : BitVec 512) : Bool := bit d 288
/-- TENANT. -/
def cTenant (d : BitVec 512) : BitVec 4 := d.extractLsb' 328 4

/-- What every participant has to give alike: LEN, OP, ROOT and the box, as a segment carries it. -/
def cMatch (d : BitVec 512) : DWord :=
  BitVec.ofNat 64 (cLen d + cOp d * 2 ^ 32 + b2n (cRoot d) * 2 ^ 36 + (cLo d).toNat * 2 ^ 37 + (cHi d).toNat * 2 ^ 47)

/-- The bits of a descriptor that no field holds. -/
def cReserved (d : BitVec 512) : Bool :=
  decide (fld d 175 165 = 0) && decide (fld d 207 202 = 0) && decide (fld d 255 218 = 0) && decide (fld d 319 289 = 0) &&
  decide (fld d 335 332 = 0) && decide (fld d 511 348 = 0)

/-- An address word of Far of this device. -/
def cAddrOk (a : DWord) : Bool := decide (aSpace a = 2) && decide (fld a 63 50 = 0)

/-- Whether a descriptor may be submitted by a tenant. -/
def State.collOk (s : State) (d : BitVec 512) (t : BitVec 4) : Bool :=
  cReserved d && cAddrOk (d.setWidth 64) && cAddrOk (d.extractLsb' 64 64) &&
  decide (64 ≤ cLen d) && decide (cLen d ≤ 2 ^ 31) && decide (cLen d % 64 = 0) && decide (1 ≤ cOp d) && decide (cOp d ≤ 4) &&
  ([0, 1, 2].all fun k =>
    decide (devCoord (cLo d) k ≤ devCoord s.devId k) && decide (devCoord s.devId k ≤ devCoord (cHi d) k) &&
    decide (devCoord (cHi d) k < s.dimSize k)) &&
  decide (cTenant d = t)

/-- The devices of a box. -/
def cBox (d : BitVec 512) : List (BitVec 10) :=
  ((List.range 1024).map (BitVec.ofNat 10)).filter fun x =>
    [0, 1, 2].all fun k => decide (devCoord (cLo d) k ≤ devCoord x k) && decide (devCoord x k ≤ devCoord (cHi d) k)

/-! ### Progress (R391 to R393) -/

/-- A collective's record. -/
def State.coll (s : State) (n : Nat) : Coll := Store.get Coll.reset s.colls n

/-- Change a collective's record. -/
def State.modColl (s : State) (n : Nat) (f : Coll → Coll) : State :=
  { s with colls := Store.set Coll.reset s.colls n (f (s.coll n)) }

/-- A segment's record. -/
def Coll.seg (c : Coll) (k : Nat) : SegSt := Store.get SegSt.reset c.segs k

/-- Change a segment's record. -/
def State.modSeg (s : State) (n k : Nat) (f : SegSt → SegSt) : State :=
  s.modColl n fun c => { c with segs := Store.set SegSt.reset c.segs k (f (c.seg k)) }

/-- The number of segments of 4 KiB. -/
def cSegs (d : BitVec 512) : Nat := (cLen d + 4095) / 4096

/-- The bytes of segment `k`. -/
def cSegLen (d : BitVec 512) (k : Nat) : Nat := min 4096 (cLen d - 4096 * k)

/-- Combine 64-byte pieces, the accumulated value on the left; a poisoned word poisons the result's. -/
def combineBytes (op : Nat) : Nat → List (Byte × Bool) → List (Byte × Bool) → List (Byte × Bool)
  | 0, _, _ => []
  | n + 1, a, b =>
    if a.isEmpty then []
    else
      let x := Flit.ofBytes (a.take 64)
      let y := Flit.ofBytes (b.take 64)
      (combine op x y).1.bytes ++ combineBytes op n (a.drop 64) (b.drop 64)

/-- Join an incoming value with one formed here, where the first device of a line has none. -/
def joinSeg (op : Nat) (first : Bool) (inc : SegData) (own : List (Byte × Bool)) : SegData :=
  if first then some own else inc.map fun a => combineBytes op 64 a own

/-- A collective's counter is signalled, with or without poison (R393). -/
def State.signalColl (s : State) (d : BitVec 512) (bad : Bool) : State :=
  if cInc d = 0 then s
  else
    s.send (servicePort 0) (cupolaRouter (ctrSpire (cCtr d))) false false (cTenant d)
      (.signal .agent (cCtr d) (BitVec.ofNat 32 (cInc d)) bad)

/-- Send a segment, or a word of failure, to another participant: ADDR holds the ID, the segment and the phase. -/
def State.sendSeg (s : State) (d : BitVec 512) (dst : BitVec 10) (k phase : Nat) (arg : DWord) (bs : List (Byte × Bool)) :
    State :=
  s.sendPkt { dst := dst, src := s.devId, ptype := 8, tenant := cTenant d, epoch := d.extractLsb' 320 8, tag := 0,
              poison := bs.any (·.2), addr := BitVec.ofNat 64 ((cId d).toNat + k * 2 ^ 16 + phase * 2 ^ 40), arg := arg,
              e2eOk := true, data := bs.map (·.1) }

/-- A collective fails: the counter is signalled with poison, source COLL_FAULT is raised and a record names the suspect
device; `tell` passes it on to the other participants (R393). [DEDUCED, log 82] -/
def State.failColl (s : State) (n : Nat) (suspect : BitVec 10) (tell : Bool) : State :=
  let d := (s.coll n).desc
  if ! (s.coll n).busy then s
  else
    let s := if tell then
        (cBox d).foldl (fun s x => if x = s.devId then s else s.sendSeg d x 0 4 (suspect.setWidth 64) []) s
      else s
    let s := (s.signalColl d true).raiseBicAll 0x141
    let s := s.reportDevice 4 8 0x42 1 (BitVec.ofNat 64 (0xFFFF + suspect.toNat * 2 ^ 16)) (cTenant d)
    s.modColl n fun _ => Coll.reset

/-- A collective completes here (R393). -/
def State.endColl (s : State) (n : Nat) : State :=
  let d := (s.coll n).desc
  let s := s.signalColl d false
  let s := if cNote d then s.raiseBicAll 0x140 else s
  let s := s.setCreg .skbCollStat 0 0 (setFld (s.creg .skbCollStat 0 0) 31 16 (cId d).toNat)
  s.modColl n fun _ => Coll.reset

/-- Whether this device is the root of a box. -/
def State.isRoot (s : State) (d : BitVec 512) : Bool := decide (s.devId = cHi d)

/-- Complete a collective whose part here is done: the root and, with ROOT = 0, every participant have written the result,
another has sent its last segment. -/
def State.checkColl (s : State) (n : Nat) : State :=
  let c := s.coll n
  let d := c.desc
  let all (f : SegSt → Bool) : Bool := (List.range (cSegs d)).all fun k => f (c.seg k)
  if ! c.busy then s
  else if s.isRoot d ∨ ! cRoot d then (if all (·.done) then s.endColl n else s)
  else if all (·.sent) then s.endColl n else s

/-- The result of a segment is written, and with ROOT = 0 goes back along the tree. -/
def State.writeResult (s : State) (n k : Nat) (bs : List (Byte × Bool)) : State :=
  let d := (s.coll n).desc
  if ((s.coll n).seg k).done then s
  else
    let w := s.writeWindow 0 (cTenant d) (aAddr (d.extractLsb' 64 64) + 4096 * k) bs
    if ! w.1 then w.2.failColl n s.devId true
    else
      let s := w.2.modSeg n k fun g => { g with done := true }
      if cRoot d then s
      else
        let at_ (a : Nat) : Bool := decide (devCoord s.devId a = devCoord (cHi d) a)
        let back (s : State) (a : Nat) (go : Bool) : State :=
          let x := devCoord s.devId a
          if go ∧ devCoord (cLo d) a < x then s.sendSeg d (withCoord s.devId a (x - 1)) k 3 (cMatch d) bs else s
        back (back (back s 0 true) 1 (at_ 0)) 2 (at_ 0 && at_ 1)

/-- Move one segment on as far as what has arrived allows: along X to xhi, there along Y to yhi, there along Z to the
root (R391). -/
def State.advanceColl (s : State) (n k : Nat) : State :=
  let c := s.coll n
  let d := c.desc
  let g := c.seg k
  if ! c.busy ∨ g.sent then s
  else
    let r := s.readWindow 0 (cTenant d) (aAddr (d.setWidth 64) + 4096 * k) (cSegLen d k)
    match r.1 with
    | none => r.2.failColl n s.devId true
    | some own =>
      let s := r.2
      let x (a : Nat) : Nat := devCoord s.devId a
      let first (a : Nat) : Bool := decide (x a = devCoord (cLo d) a)
      let last (a : Nat) : Bool := decide (x a = devCoord (cHi d) a)
      let pass (s : State) (a : Nat) (bs : List (Byte × Bool)) : State :=
        (s.sendSeg d (withCoord s.devId a (x a + 1)) k a (cMatch d) bs).modSeg n k fun g => { g with sent := true }
      match joinSeg (cOp d) (first 0) g.xin own with
      | none => s
      | some line =>
        if ! last 0 then pass s 0 line
        else
          match joinSeg (cOp d) (first 1) g.yin line with
          | none => s
          | some col =>
            if ! last 1 then pass s 1 col
            else
              match joinSeg (cOp d) (first 2) g.zin col with
              | none => s
              | some v =>
                if ! last 2 then pass s 2 v
                else (s.modSeg n k fun g => { g with sent := true }).writeResult n k v

/-- A segment that has arrived for collective `n`, or word of a failure (phase 4) or of a broken route (phase 5). -/
def State.takeSeg (s : State) (n : Nat) (p : SkbPacket) : State :=
  let d := (s.coll n).desc
  let k := fld p.addr 39 16
  let bs := p.data.map fun b => (b, p.poison)
  match fld p.addr 42 40 with
  | 4 => s.failColl n (p.arg.setWidth 10) false
  | 5 => s.failColl n (p.arg.setWidth 10) true
  | ph =>
    if p.arg ≠ cMatch d then s.failColl n p.src true
    else
      let s := match ph with
        | 0 => (s.modSeg n k fun g => { g with xin := some bs }).advanceColl n k
        | 1 => (s.modSeg n k fun g => { g with yin := some bs }).advanceColl n k
        | 2 => (s.modSeg n k fun g => { g with zin := some bs }).advanceColl n k
        | _ => s.writeResult n k bs
      s.checkColl n

/-- The collective that a segment belongs to. -/
def State.collOf (s : State) (p : SkbPacket) : Option Nat :=
  (List.range 16).find? fun n =>
    (s.coll n).busy && decide (cId (s.coll n).desc = p.addr.setWidth 16) && decide (cTenant (s.coll n).desc = p.tenant)

/-- When a timeout of value `v` and unit bit `ms` that begins now ends. -/
def State.dueNs (s : State) (v : Nat) (ms : Bool) : Option Nat :=
  if v = 0 then none else some (s.ns + v * (if ms then 1000000 else 1000))

/-- A write of `SKB_COLL_SUB_HI` submits a collective; one that is refused for its descriptor sets REFUSED and FAULT
(R390, R401). [DEDUCED, log 82] -/
def State.writeCollSub (s : State) (ag : Agent) (v : Word) : State :=
  let a := (s.creg .skbCollSubLo 0 0).toNat / 64 * 64 + fld v 7 0 * 2 ^ 32
  let flag (s : State) (k : Nat) : State := s.setCreg .skbCollStat 0 0 (s.creg .skbCollStat 0 0 ||| (1#32 <<< k))
  let r := s.farDesc a
  match (List.range 16).find? fun n => ! (s.coll n).busy with
  | none => flag s 8
  | some n =>
    if r.2.isSome ∨ ! s.collOk r.1 (s.agentTenant ag) then flag (flag s 8) 9
    else
      let d := r.1
      let s := s.modColl n fun _ =>
        { busy := true, desc := d, due := s.dueNs (fld d 346 336) (bit d 347), segs := [] }
      let mine := (s.skbIn.map (·.1)).filter fun p => p.ptype = 8 && decide (s.collOf p = some n)
      let s : State := { s with skbIn := s.skbIn.filter fun p => ! mine.contains p.1 }
      let s := (List.range (cSegs d)).foldl (fun s k => s.advanceColl n k) s
      mine.foldl (fun s p => if (s.coll n).busy then s.takeSeg n p else s) (s.checkColl n)

end Sys2Proof.Machine
end

