-- ==== Sys2Proof/Machine/Skybridge.lean ====
section
/-! DEFINITION. The commands of Skybridge (R369 to R402). -/

namespace Sys2Proof.Machine

open Sys2Proof

/-! ### Ports (R371, R372, R400) -/

/-- A write to a register whose RWL bits lock: they take the value until routing is enabled (R13, R384). -/
def State.lockWrite (s : State) (r : CReg) (u i : Nat) (v : Word) : State :=
  let w := r.row
  let x := w.write (s.creg r u i) v
  s.setCreg r u i (if s.locked then x else (x &&& ~~~ w.lock) ||| (v &&& w.lock))

/-- A write of `SKB_CTL`: setting EN trains, clearing it takes the port DOWN; RETRAIN trains an enabled port; CLRFAIL
returns a FAILED port to DOWN with ATTEMPTS cleared. [DEDUCED, log 80] -/
def State.writeSkbCtl (s : State) (p : Nat) (v : Word) : State :=
  let was := bit (s.creg .skbCtl p 0) 0
  let s := s.lockWrite .skbCtl p 0 (v &&& ~~~ 6#32)
  let s := s.setCreg .skbCtl p 0 (s.creg .skbCtl p 0 &&& ~~~ 6#32)
  let s := if bit v 2 ∧ s.portFailed p then s.setCreg .skbStat p 0 (s.creg .skbStat p 0 &&& 0x100#32) else s
  if ! bit v 0 then (if s.portFailed p then s else s.setPort p 0)
  else if s.portFailed p then s
  else if ! was ∨ bit v 1 then s.startTraining p
  else s

/-- PORT_ENABLE. -/
def execPortEnable (ag : Agent) (p : Port) (v : Word) (s : State) : Host.Outcome State Fault Refusal :=
  .next (s.gated ag .skbCtl p.toNat fun s => s.writeSkbCtl p.toNat (v ||| 1#32))

/-- PORT_RETRAIN. -/
def execPortRetrain (ag : Agent) (p : Port) (v : Word) (s : State) : Host.Outcome State Fault Refusal :=
  .next (s.gated ag .skbCtl p.toNat fun s => s.writeSkbCtl p.toNat (v ||| 2#32))

/-- PORT_CLEAR_FAIL. -/
def execPortClearFail (ag : Agent) (p : Port) (v : Word) (s : State) : Host.Outcome State Fault Refusal :=
  .next (s.gated ag .skbCtl p.toNat fun s => s.writeSkbCtl p.toNat (v ||| 4#32))

/-- A failed attempt; the third in a row latches FAILED, and a partner takes the traffic over (R372, R383). -/
def State.failTraining (s : State) (p : Nat) : State :=
  let st := s.creg .skbStat p 0
  let n := fld st 5 4 + 1
  let s := s.setCreg .skbStat p 0 (setFld st 5 4 n)
  if n < 3 then s.setPort p 0
  else
    let peer := s.creg .skbPeerHi p 0
    let suspect := fld peer 18 16 + 4 * 2 ^ 12 + fld peer 29 20 * 2 ^ 16
    ((s.setPort p 4).reportPort p 0x40 2 (BitVec.ofNat 64 suspect) 0).moveTraffic p

/-- TRAINING_COMPLETE: the partner's identity and the latency are shown, credits are exchanged, and sending resumes with the
first flit that is not acknowledged. On half of the lanes the port needs NARROW (R371, R372, R374). -/
def execTrainingComplete (p : Port) (peer : BitVec 64) (latNs : BitVec 16) (narrow : Bool) (s : State) :
    Host.Outcome State Fault Refusal :=
  .next (
    let k := p.toNat
    if s.portState k ≠ 1 ∨ ! s.domCarries (84 + k) then s
    else if narrow ∧ ! bit (s.creg .skbCtl k 0) 3 then s.failTraining k
    else
      let s := (s.setCreg .skbPeerLo k 0 (peer.setWidth 32)).setCreg .skbPeerHi k 0 (peer.extractLsb' 32 31 |>.setWidth 32)
      let s := s.setCreg .skbLatns k 0 (latNs.setWidth 32)
      let s := s.setCreg .skbStat k 0 (setFld (s.creg .skbStat k 0) 5 0 (if narrow then 3 else 2))
      let s := s.bump .skbReplay k 0 (s.port k).replay.length
      s.modPort k fun x =>
        { x with
            used := x.replay.foldl (fun u f => Store.set 0 u f.queued.cls.toNat (Store.get 0 u f.queued.cls.toNat + 1)) []
            owed := []
            nak := false
            resent := 0
            ackNs := s.ns
            wasUp := true })

/-- TRAINING_FAILED. -/
def execTrainingFailed (p : Port) (s : State) : Host.Outcome State Fault Refusal :=
  .next (if s.portState p.toNat = 1 then s.failTraining p.toNat else s)

/-! ### The link layer (R373, R374) -/

/-- SKB_FLIT_RECEIVE. -/
def execSkbFlitReceive (p : Port) (flit : List Byte) (fec : Option (BitVec 8)) (s : State) : Host.Outcome State Fault Refusal :=
  .next (s.takeFlit p.toNat flit fec)

/-- NAK. -/
def execNak (p : Port) (expected : BitVec 12) (s : State) : Host.Outcome State Fault Refusal :=
  .next (if s.portUp p.toNat then s.takeNak p.toNat expected else s)

/-- ACK_TIMEOUT: flits wait for an ACK and none has advanced for 50 µs. -/
def execAckTimeout (p : Port) (s : State) : Host.Outcome State Fault Refusal :=
  .next (
    let k := s.port p.toNat
    if s.portUp p.toNat ∧ ! k.replay.isEmpty ∧ k.ackNs + 50000 ≤ s.ns then s.linkRetrain p.toNat else s)

/-! ### Packets at their destination (R375, R397) -/

/-- A packet leaves the list of those received whole. -/
def State.dropIn (s : State) (p : SkbPacket) : State := { s with skbIn := s.skbIn.eraseP fun x => x.1 = p }

/-- The quadrant whose crossbar receives a packet: that of the port at which it came (R207, R298). -/
def State.inQuad (s : State) (p : SkbPacket) : Quad :=
  match s.skbIn.find? fun x => x.1 = p with
  | some x => if x.2 < 8 then BitVec.ofNat 2 (x.2 / 2) else 0
  | none => 0

/-- A packet of a type at its destination: nothing for another type or another device; one whose end-to-end check fails is
discarded, and a request answered with POISON (R375). -/
def State.atDest (s : State) (p : SkbPacket) (ty : BitVec 4) (f : State → State) : State :=
  if p.ptype ≠ ty ∨ p.dst ≠ s.devId then s
  else
    let s := s.dropIn p
    if p.e2eOk then f s else s.respond p true 0 0 []

/-- PACKET_FORWARD: a through packet goes to the output of its route; a CTRL packet is checked first (R378, R388).
A device that forwards no more loses it (R30). [DEDUCED, log 81] -/
def execPacketForward (p : Port) (pkt : SkbPacket) (s : State) : Host.Outcome State Fault Refusal :=
  .next (
    if pkt.dst = s.devId ∨ pkt.ptype = 13 then s
    else
      let s := s.dropIn pkt
      let c := (pktClass pkt.ptype 0).toNat
      if ! s.forwards then s
      else if c = 1 ∧ ! pkt.e2eOk then s.respond pkt true 0 0 [] else s.routePkt p.toNat pkt)

/-- READ: ARG bytes at window address ADDR of the tenant (R207, R375). [DESIGN CHOICE, log 10] -/
def execRead (pkt : SkbPacket) (s : State) : Host.Outcome State Fault Refusal :=
  let q := s.inQuad pkt
  .next (s.atDest pkt 0 fun s =>
    let n := min 4096 pkt.arg.toNat
    let r := s.readWindow q pkt.tenant (fld pkt.addr 47 0) n
    match r.1 with
    | some bs => r.2.respond pkt (bs.any (·.2)) 0 0 (bs.map (·.1))
    | none => r.2.respond pkt true 0 0 (List.replicate n 0))

/-- WRITE: the first ARG data bytes at window address ADDR, poisoned where the packet is. -/
def execWrite (pkt : SkbPacket) (s : State) : Host.Outcome State Fault Refusal :=
  let q := s.inQuad pkt
  .next (s.atDest pkt 1 fun s =>
    let r := s.writeWindow q pkt.tenant (fld pkt.addr 47 0) ((pkt.data.take pkt.arg.toNat).map fun b => (b, pkt.poison))
    r.2.respond pkt (! r.1) 0 0 [])

/-- Take the wait that a response ends: one with POISON may come from a device that could not send the request on
(R388). -/
def State.takeWait (s : State) (p : SkbPacket) (f : SkbFor → State → State) : State :=
  match s.skbWaits.find? fun w => w.tag = p.tag && (decide (w.dev = p.src) || p.poison) with
  | none => s
  | some w => f w.what { s with skbWaits := s.skbWaits.erase w }

/-- WRITE_ACK (R290). -/
def execWriteAck (pkt : SkbPacket) (s : State) : Host.Outcome State Fault Refusal :=
  .next (s.atDest pkt 2 fun s => s.takeWait pkt fun w s =>
    match w with
    | .streamWrite e row => (s.partAcked e row pkt.tag.toNat pkt.poison 0).pollEngine e
    | _ => s)

/-- READ_DATA (R289). -/
def execReadData (pkt : SkbPacket) (s : State) : Host.Outcome State Fault Refusal :=
  .next (s.atDest pkt 3 fun s => s.takeWait pkt fun w s =>
    match w with
    | .streamRead e row =>
      (s.partRead e row pkt.tag.toNat (pkt.data.map fun b => (b, pkt.poison)) 0).pollEngine e
    | _ => s)

/-- The operation of an ATOMIC packet's code. -/
def aopOf (k : Nat) : AOp :=
  match k with
  | 0 => .swap | 1 => .cas | 2 => .add | 3 => .and | 4 => .or | 5 => .xor | 6 => .min | 7 => .max | 8 => .minu
  | 9 => .maxu | 10 => .load | 11 => .store | _ => .fadd

/-- Perform another device's atomic, translated at the crossbar that receives it, at the home crossbar of its word; ADDR of
the answer holds a cause (R207, R223). -/
def State.remoteAtomic (s : State) (q : Quad) (p : SkbPacket) : State :=
  let w : DWord := BitVec.ofNat 64 (leNat (p.data.take 8))
  let a : Atomic :=
    { op := aopOf (fld w 3 0), wide := bit w 4, scope := w.extractLsb' 5 3, target := setFld p.addr 63 48 2,
      cmp := BitVec.ofNat 64 (leNat ((p.data.drop 8).take 8)), val := p.arg }
  let x := s.translate (.fxb q) p.tenant (fld p.addr 47 0) (if a.op = .load then .read else .write)
  match x.1 with
  | none => x.2.respond p false 0x11 0 []
  | some f =>
    if ! farPopulated f then x.2.respond p false 0x10 0 []
    else
      let r := x.2.atomicAtHome a 0 f
      match r.1.2 with
      | none => r.2.respond p false 0 (BitVec.ofNat 64 r.1.1) []
      | some c => r.2.respond p (decide (c = 0x05)) (c.setWidth 64) 0 []

/-- ATOMIC: the manager of the target's group sends it on with its source and tag, in arrival order; the target performs
it (R397). [DEDUCED, log 43] -/
def execAtomic (pkt : SkbPacket) (s : State) : Host.Outcome State Fault Refusal :=
  let q := s.inQuad pkt
  .next (s.atDest pkt 4 fun s =>
    let dev : BitVec 10 := BitVec.ofNat 10 (leNat (pkt.data.take 8) / 2 ^ 16)
    if dev = s.devId then s.remoteAtomic q pkt else s.sendPkt { pkt with dst := dev })

/-- ATOMIC_RSP: the old value or the cause reaches its thread. The target answers, whichever device it was sent to. -/
def execAtomicRsp (pkt : SkbPacket) (s : State) : Host.Outcome State Fault Refusal :=
  .next (s.atDest pkt 5 fun s =>
    match s.skbWaits.find? fun w => w.tag = pkt.tag with
    | some { what := .atomic who tag, .. } =>
      let s : State := { s with skbWaits := s.skbWaits.filter fun w => w.tag ≠ pkt.tag }
      s.atomicAnswered who tag pkt.arg
        (if pkt.poison then some 0x05 else if pkt.addr = 0 then none else some (pkt.addr.setWidth 8))
    | _ => s)

/-- COUNTER_OP: the operation goes on to its home Cupola (R397). -/
def execCounterOp (pkt : SkbPacket) (s : State) : Host.Outcome State Fault Refusal :=
  .next (s.atDest pkt 6 fun s =>
    let c : BitVec 16 := pkt.addr.setWidth 16
    let go (b : Body) : State := s.send (servicePort 0) (cupolaRouter (ctrSpire c)) false false pkt.tenant b
    match fld pkt.addr 39 32 with
    | 0 => go (.signal (.remote pkt.src pkt.tag) c (pkt.arg.setWidth 32) pkt.poison)
    | 1 => go (.signal (.remote pkt.src pkt.tag) c (pkt.arg.setWidth 32) true)
    | 2 => go (.swait (.remote pkt.src pkt.tag) pkt.tag.toNat c (pkt.arg.setWidth 32))
    | 3 => go (.withdraw (.remote pkt.src pkt.tag) pkt.tag.toNat false c)
    | 4 => go (.watchReg (.remote pkt.src pkt.tag) pkt.tenant c (some (pkt.arg.setWidth 32)))
    | 5 => go (.watchReg (.remote pkt.src pkt.tag) pkt.tenant c none)
    | _ => s)

/-- What the home of another device's counter tells a Belfry watch: above, below, or to register again (R311, R397).
[DESIGN CHOICE, log 43] -/
def State.watchAnswered (s : State) (tag : BitVec 16) (code : Nat) : State :=
  let q : Quad := tag.extractLsb' 9 2
  let n : BitVec 9 := tag.setWidth 9
  if code = 0x42 then s.retryWatch (.belfry q n) 0 else s.watchTold (.belfry q n) (decide (code = 0x41))

/-- A device cannot be reached: every `swait` on a counter of its ends POISONED, as at a removed Spire (R28, R31).
[DEDUCED, log 81] -/
def State.deviceGone (s : State) (dev : BitVec 10) : State :=
  let mine (w : SkbWait) : Bool := decide (w.dev = dev) && (match w.what with | .counter .. => true | _ => false)
  (s.skbWaits.filter mine).foldl (fun s w =>
    match w.what with
    | .counter who tag => s.swaitAnswered who tag 0 2 none
    | _ => s) { s with skbWaits := s.skbWaits.filter fun w => ! mine w }

/-- COUNTER_RSP: a posted signal is acknowledged, an `swait` answered, a watch told. An answer with POISON and code 0x12
comes from a device that could not send the operation on (R31). -/
def execCounterRsp (pkt : SkbPacket) (s : State) : Host.Outcome State Fault Refusal :=
  let code : BitVec 8 := pkt.arg.extractLsb' 32 8
  let lost := (s.skbWaits.find? fun w => w.tag = pkt.tag).map (·.dev)
  .next (s.atDest pkt 7 fun s =>
    (fun s => match lost with
      | some d => if pkt.poison ∧ code = 0x12 then s.deviceGone d else s
      | none => s) <|
    if 0x40 ≤ code.toNat ∧ code.toNat ≤ 0x42 then s.watchAnswered pkt.tag code.toNat
    else s.takeWait pkt fun w s =>
    match w with
    | .posted (.thread t) w =>
      let r : Refuse := if code.toNat < 4 then none else some (code, w)
      (s.modThread t fun th => { th with posted := th.posted - 1 }.holdRefusal r).poll t
    | .posted (.belfry b) w => s.belfryRefused b (if code.toNat < 4 then none else some (code, w))
    | .counter who tag =>
      if code.toNat < 4 then
        let st : BitVec 2 := if pkt.poison then 2 else code.setWidth 2
        let s := if st = 3 then { s with skbWaits := s.skbWaits ++ [{ tag := pkt.tag, dev := pkt.src, what := w }] } else s
        s.swaitAnswered who tag (pkt.arg.setWidth 32) st none
      else s.swaitAnswered who tag 0 0 (some (code, 0))
    | _ => s)

/-! ### Collectives (R390 to R393) -/

/-- COLLECTIVE_SEGMENT: it joins its collective; one that this device has not submitted yet waits. [DEDUCED, log 82] -/
def execCollectiveSegment (pkt : SkbPacket) (s : State) : Host.Outcome State Fault Refusal :=
  .next (
    if pkt.ptype ≠ 8 ∨ pkt.dst ≠ s.devId then s
    else if ! pkt.e2eOk then s.dropIn pkt
    else
      match s.collOf pkt with
      | some n => (s.dropIn pkt).takeSeg n pkt
      | none => s.received pkt)

/-- COLLECTIVE_SUBMIT. -/
def execCollectiveSubmit (ag : Agent) (v : Word) (s : State) : Host.Outcome State Fault Refusal :=
  .next (s.gated ag .skbCollSubHi 0 fun s => s.writeCollSub ag v)

/-- The device that a collective waits for: the one before it along the first axis on which a value is missing, else the
one that sends it the result. [DEDUCED, log 82] -/
def State.collWaits (s : State) (n : Nat) : BitVec 10 :=
  let c := s.coll n
  let d := c.desc
  let x (a : Nat) : Nat := devCoord s.devId a
  match (List.range (cSegs d)).find? fun k => ! (c.seg k).sent with
  | some k =>
    let g := c.seg k
    let missing (a : Nat) (v : SegData) : Bool := decide (devCoord (cLo d) a < x a) && v.isNone
    if missing 0 g.xin then withCoord s.devId 0 (x 0 - 1)
    else if missing 1 g.yin then withCoord s.devId 1 (x 1 - 1)
    else withCoord s.devId 2 (x 2 - 1)
  | none =>
    if x 0 < devCoord (cHi d) 0 then withCoord s.devId 0 (x 0 + 1)
    else if x 1 < devCoord (cHi d) 1 then withCoord s.devId 1 (x 1 + 1)
    else withCoord s.devId 2 (x 2 + 1)

/-- COLLECTIVE_TIMEOUT (R393). [DEDUCED, log 82] -/
def execCollectiveTimeout (n : BitVec 4) (s : State) : Host.Outcome State Fault Refusal :=
  .next (
    match (s.coll n.toNat).due with
    | some t => if (s.coll n.toNat).busy ∧ t ≤ s.ns then s.failColl n.toNat (s.collWaits n.toNat) true else s
    | none => s)

/-! ### Groups (R394 to R396, R419) -/

/-- COMMAND: a forwarded command reaches this device's Duboette; its header is in ADDR, its parameters are the data
(R395, R402). -/
def execCommand (pkt : SkbPacket) (s : State) : Host.Outcome State Fault Refusal :=
  .next (
    if ! s.keep.duboette then s
    else
      s.atDest pkt 9 fun s =>
        let g := s.newId
        let c : Cmd :=
          { origin := .remote pkt.src pkt.tag, header := pkt.addr &&& ~~~ 0x40000800#64, params := pkt.data, st := .waiting,
            waitFor := [], replies := [], since := s.ns, image := [], slot := none, ended := none, step := 0 }
        let s : State := { g.2 with cmds := Store.put g.2.cmds g.1 c }
        if s.isManager then s else s.raiseBicAll 0x143)

/-- COMMAND_REPLY: a device that was addressed answers; a poisoned answer counts as none (R395, R419). -/
def execCommandReply (pkt : SkbPacket) (s : State) : Host.Outcome State Fault Refusal :=
  .next (s.atDest pkt 10 fun s =>
    let n (off k : Nat) : Nat := leNat ((pkt.data.drop off).take k)
    let w (off : Nat) : DWord := BitVec.ofNat 64 (n off 8)
    let x : Reply :=
      { dev := pkt.src, status := if pkt.poison then 0x11 else n 0 2, r0 := w 8, r1 := w 16, r2 := w 24 }
    match s.cmds.find? fun p => decide (p.1 % 2 ^ 16 = pkt.tag.toNat) && p.2.waitFor.contains pkt.src with
    | some p => s.addReply p.1 x
    | none => s)

/-- ERROR_RECORD (R472, R473). -/
def execErrorRecord (pkt : SkbPacket) (s : State) : Host.Outcome State Fault Refusal :=
  .next (s.atDest pkt 11 fun s => s.takeRecord (parseRecord pkt.data))

/-- HEARTBEAT: a worker lives (R396). -/
def execHeartbeat (pkt : SkbPacket) (s : State) : Host.Outcome State Fault Refusal :=
  .next (s.atDest pkt 12 fun s =>
    { s with
        heard := Store.put s.heard pkt.src.toNat s.ns
        lostWorkers := s.lostWorkers.filter fun d => d ≠ pkt.src })

/-- A worker of this manager's group. -/
def State.isWorker (s : State) (dev : BitVec 10) : Bool :=
  s.isManager && decide (dev ≠ s.devId) && (Config.groupMembers s.devId).contains dev

/-- WORKER_LOST: no heartbeat for three periods. The record names the worker; what waits for it is answered FAILED
(R396). [DEDUCED, log 83] -/
def execWorkerLost (dev : BitVec 10) (s : State) : Host.Outcome State Fault Refusal :=
  .next (
    if ! s.isWorker dev ∨ s.lostWorkers.contains dev ∨ s.ns < Store.get 0 s.heard dev.toNat + 3 * s.wdtNs then s
    else
      let s : State := { s with lostWorkers := dev :: s.lostWorkers }
      let r := s.mkReport 15 0xFFF 0x43 2 (BitVec.ofNat 64 (0xFFFF + dev.toNat * 2 ^ 16)) 0
      let s := s.report 0 { r with device := dev }
      s.cmds.foldl (fun s p =>
        if p.2.waitFor.contains dev then s.addReply p.1 { dev := dev, status := 0x0F, r0 := 0xFFFF, r1 := 0, r2 := 0 }
        else s) s)

/-- FANOUT_TIMEOUT: `SKB_FANTMO` ms after a command was forwarded (R395, R419). -/
def execFanoutTimeout (id : Nat) (s : State) : Host.Outcome State Fault Refusal :=
  .next (
    match s.cmd id with
    | none => s
    | some c =>
      if c.waitFor.isEmpty ∨ s.ns < c.since + 1000000 * (s.creg .skbFantmo 0 0).toNat then s else s.settleFan id c)

/-! ### Bring-up (R384) -/

/-- With the group known, Duboette makes the manager of group 0 the tick master, and lets every other device take its
edges from Skybridge; on the manager of another group it lets the hub forward to the tick master (R361, R474).
[DESIGN CHOICE, log 114] -/
def State.forwardSystem (s : State) : State :=
  let zero := decide (fld (s.creg .skbGroup 0 0) 3 0 = 0)
  let ctl := s.creg .tickCtl 0 0
  if ! s.keep.duboette then s
  else if s.isManager ∧ zero then s.setCreg .tickCtl 0 0 (ctl ||| 0x10#32)
  else
    let s := s.setCreg .tickCtl 0 0 (setFld ctl 3 2 1)
    if s.isManager then s.setCreg .ehCtl 0 0 (s.creg .ehCtl 0 0 ||| 2#32) else s

/-- A write of `SKB_RTCTL`: EN enables routing and locks the ID, the dimensions and the roles. -/
def State.writeRtctl (s : State) (v : Word) : State :=
  let s := s.plainWrite .skbRtctl 0 0 v
  if bit v 0 then ({ s with locked := true } : State).forwardSystem else s

/-- ROUTING_ENABLE. -/
def execRoutingEnable (ag : Agent) (v : Word) (s : State) : Host.Outcome State Fault Refusal :=
  .next (s.gated ag .skbRtctl 0 fun s => s.writeRtctl (v ||| 1#32))

/-- PATH: it goes on by the port that the lowest digit of ADDR names, or writes the ID, the dimensions and the group here
where that digit is 0xF (R384). -/
def execPath (pkt : SkbPacket) (s : State) : Host.Outcome State Fault Refusal :=
  .next (
    if pkt.ptype ≠ 13 ∨ ! pkt.e2eOk then s
    else
      let inp := ((s.skbIn.find? fun x => x.1 = pkt).map (·.2)).getD 8
      let s := s.dropIn pkt
      let d := fld pkt.addr 3 0
      if d < 8 then
        let q : SkbQueued :=
          { cls := pktClass 13 0, inp := inp, since := s.ns,
            pkt := { pkt with addr := (pkt.addr >>> 4) ||| 0xF000000000000000#64 } }
        if s.portFailed d then s else s.modPort d fun k => { k with waiting := k.waiting ++ [q] }
      else if d ≠ 15 then s
      else
        let w (k : Nat) : Word := BitVec.ofNat 32 (leNat ((pkt.data.drop (4 * k)).take 4))
        ((s.lockWrite .skbDevid 0 0 (w 0)).lockWrite .skbDims 0 0 (w 1)).lockWrite .skbGroup 0 0 (w 2))

/-! ### Ticks (R361, R362) -/

/-- EDGE: an edge message; the master's time is compensated by the latency of the links it has crossed (R351, R361). -/
def execEdge (pkt : SkbPacket) (s : State) : Host.Outcome State Fault Refusal :=
  .next (s.atDest pkt 14 fun s =>
    s.takeEdgeMessage (pkt.addr.setWidth 48) pkt.arg.toNat (leNat (pkt.data.take 8)))

/-- READY (R362). [DESIGN CHOICE, log 10] -/
def execReady (pkt : SkbPacket) (s : State) : Host.Outcome State Fault Refusal :=
  .next (s.atDest pkt 15 fun s => s.takeReady pkt.src)

end Sys2Proof.Machine
end

