-- ==== Sys2Proof/Machine/HostCmds.lean ====
section
/-! DEFINITION. The rings, the fetch and check of commands, and the commands of the device, its partitions, counters,
locks and windows (R409 to R421, R431 to R435, R458). -/

namespace Sys2Proof.Machine

open Sys2Proof

/-! ### Ring registers (R410, R411, R413, R414) -/

/-- A write of `RING_DB`: the entries up to TAIL are available; a TAIL of N or above stops the ring. -/
def State.writeRingDb (s : State) (r : Ring) (v : Word) : State :=
  let t := fld v 15 0
  let s := s.raiseBic 0 (0x080 + r.toNat / 2)
  if s.ringN r ≤ t then
    (s.setCreg .ringStat r.toNat 0 (s.creg .ringStat r.toNat 0 ||| 2#32)).modRing r fun k => { k with stopped := true }
  else s.modRing r fun k => { k with tail := t }

/-- RING_DB_WRITE. -/
def execRingDbWrite (ag : Agent) (ring : Ring) (v : Word) (s : State) : Host.Outcome State Fault Refusal :=
  .next (s.gated ag .ringDb ring.toNat fun s => s.writeRingDb ring v)

/-- A write of `RING_CFG`: a LOG2N outside 4 to 16 leaves it; setting EN sets the four indices to 0 and starts the ring
afresh. [DEDUCED, log 84] -/
def State.writeRingCfg (s : State) (r : Ring) (v : Word) : State :=
  let old := s.creg .ringCfg r.toNat 0
  let v := v &&& 0x7F01F3#32
  let v := if 4 ≤ fld v 8 4 ∧ fld v 8 4 ≤ 16 then v else setFld v 8 4 (fld old 8 4)
  let s := s.setCreg .ringCfg r.toNat 0 v
  if bit v 0 ∧ ! bit old 0 then
    let s := (s.setCreg .ringHead r.toNat 0 0).setCreg .ringQtail r.toNat 0 0
    (s.setCreg .ringQhead r.toNat 0 0).modRing r fun _ => RingSt.reset
  else s

/-- RING_CFG_WRITE. -/
def execRingCfgWrite (ag : Agent) (ring : Ring) (v : Word) (s : State) : Host.Outcome State Fault Refusal :=
  .next (s.gated ag .ringCfg ring.toNat fun s => s.writeRingCfg ring v)

/-- A write of `RING_QHEAD`: the host has consumed the entries before it; the vector is sent at once if an entry with
NOTIFY lies between it and QTAIL, otherwise with the next such entry. [DEDUCED, log 84] -/
def State.writeRingQhead (s : State) (r : Ring) (v : Word) : State :=
  let n := s.ringN r
  let h := fld v 15 0 % n
  let s := s.setCreg .ringQhead r.toNat 0 (BitVec.ofNat 32 h)
  let q := (s.creg .ringQtail r.toNat 0).toNat
  let notes := (s.ring r).notes.filter fun i => decide ((i + n - h) % n < (q + n - h) % n)
  let s := s.modRing r fun k => { k with notes := notes, armed := notes.isEmpty }
  if notes.isEmpty then s else s.ringVector r

/-- RING_QHEAD_WRITE. -/
def execRingQheadWrite (ag : Agent) (ring : Ring) (v : Word) (s : State) : Host.Outcome State Fault Refusal :=
  .next (s.gated ag .ringQhead ring.toNat fun s => s.writeRingQhead ring v)

/-- A write of `RING_STAT`: FAULT clears once EN has been written 0 then 1. [DEDUCED, log 84] -/
def State.writeRingStat (s : State) (r : Ring) (v : Word) : State :=
  if bit v 1 ∧ ! (s.ring r).stopped then
    s.setCreg .ringStat r.toNat 0 (s.creg .ringStat r.toNat 0 &&& ~~~ 2#32)
  else s

/-- `RING_STAT` as it reads. -/
def State.ringStat (s : State) (r : Ring) : Word :=
  let n := s.inflight r
  let waits := decide ((s.ring r).tail ≠ (s.creg .ringHead r.toNat 0).toNat)
  BitVec.ofNat 32 (b2n (0 < n) + fld (s.creg .ringStat r.toNat 0) 1 1 * 2 + b2n (s.ringOn r && waits && s.qfull r) * 4 +
    min 255 n * 256)

/-- A write of a ring base: its low half is ignored while EN = 1, its high half too, so that a base never changes in
use. [DEDUCED, log 84] -/
def State.writeRingBase (s : State) (r : CReg) (ring : Ring) (v : Word) : State :=
  if bit (s.creg .ringCfg ring.toNat 0) 0 then s else s.plainWrite r ring.toNat 0 v

/-! ### The fetch and the checks (R411, R415, R418, R419) -/

/-- The parameter bytes that an opcode's fields span, and whether only the PF may issue it; none for an opcode that is not
assigned (R420). [DEDUCED, log 85] -/
def opcode (op : Nat) : Option (Nat × Bool) :=
  match op with
  | 0x01 => some (0, false)
  | 0x02 => some (8, false)
  | 0x03 => some (11, false)
  | 0x08 => some (16, true)
  | 0x09 => some (5, true)
  | 0x0A => some (13, true)
  | 0x0B => some (18, true)
  | 0x10 => some (3, false)
  | 0x11 => some (5, false)
  | 0x12 => some (16, false)
  | 0x13 => some (2, false)
  | 0x18 => some (24, false)
  | 0x19 => some (12, false)
  | 0x20 => some (36, false)
  | 0x21 => some (28, false)
  | 0x28 => some (18, false)
  | 0x29 => some (2, false)
  | 0x2A => some (16, false)
  | 0x2B => some (2, false)
  | 0x2C => some (2, false)
  | 0x2D => some (3, false)
  | 0x2E => some (24, false)
  | _ => none

/-- The first check of R418 and R419 that a header fails. [DEDUCED, log 85] -/
def State.headerFault (s : State) (t : BitVec 4) (c : Cmd) : Option Nat :=
  match opcode c.op with
  | none => some 0x01
  | some (need, pf) =>
    let ind := bit c.header 10
    if c.tenant ≠ t ∨ (pf ∧ t ≠ 0) then some 0x02
    else if fld c.header 15 12 ≠ 0 ∨ bit c.header 31 then some 0x03
    else if c.plen < need ∨ (if ind then c.plen < 8 ∨ 4096 < c.plen else 56 < c.plen) then some 0x03
    else if bit c.header 11 ∨ bit c.header 30 then
      if s.isManager ∧ (! bit c.header 30 ∨ s.groupDevices.contains (c.header.extractLsb' 20 10)) then none else some 0x03
    else none

/-- A fetch that fails: the ring stops and a record is logged. [DEDUCED, log 85] -/
def State.fetchFailed (s : State) (r : Ring) (a : Nat) : State :=
  let s := (s.setCreg .ringStat r.toNat 0 (s.creg .ringStat r.toNat 0 ||| 2#32)).modRing r fun k => { k with stopped := true }
  s.reportDevice 5 0 0x20 1 (BitVec.ofNat 64 a) (ringTenant r)

/-- The next entry of a ring as its bytes: it becomes a command, or is answered with the first check that it fails;
`blk` is the parameter block in host memory. [DEDUCED, log 85] -/
def State.takeEntry (s : State) (r : Ring) (bs : List Byte) (blk : HostData) : State :=
  let head := (s.creg .ringHead r.toNat 0).toNat
  let s := s.setCreg .ringHead r.toNat 0 (BitVec.ofNat 32 ((head + 1) % s.ringN r))
  let g := s.newId
  let header : DWord := BitVec.ofNat 64 (leNat (bs.take 8))
  let c : Cmd :=
    { origin := .ring r, header := header, params := (bs.drop 8).take (fld header 63 48), st := .waiting, waitFor := [],
      replies := [], since := s.ns, image := [], slot := none, ended := none, step := 0 }
  let put (s : State) (c : Cmd) : State := { s with cmds := Store.put s.cmds g.1 c }
  match g.2.headerFault (ringTenant r) c with
  | some f => (put g.2 c).failCmd g.1 f 0
  | none =>
    if ! bit header 10 then put g.2 c
    else
      let a := leNat ((bs.drop 8).take 8)
      let x := g.2.cmdRead (g.2.cmdWindow c) c.tenant a c.plen blk
      match x.1 with
      | some ps => put x.2 { c with params := ps }
      | none => (put x.2 c).failCmd g.1 0x04 a

/-- COMMAND_FETCH: Duboette fetches and checks the next entry; `hd` is the entry and `blk` its parameter block as host
memory returned them. [DEDUCED, log 85] -/
def execCommandFetch (ring : Ring) (hd : HostData) (blk : HostData) (s : State) : Host.Outcome State Fault Refusal :=
  .next (
    let head := (s.creg .ringHead ring.toNat 0).toNat
    if ! s.keep.duboette ∨ ! s.ringOn ring ∨ (s.ring ring).stopped ∨ (s.ring ring).tail = head ∨ s.qfull ring then s
    else
      let a := s.ringBase .ringCbaseLo .ringCbaseHi ring + 64 * head
      let x := s.cmdRead (bit (s.creg .ringCfg ring.toNat 0) 1) (ringTenant ring) a 64 hd
      match x.1 with
      | some bs => x.2.takeEntry ring bs blk
      | none => x.2.fetchFailed ring a)

/-! ### Device commands (R420, R421) -/

/-- NOP. -/
def execNopCommand (id : Nat) (s : State) : Host.Outcome State Fault Refusal :=
  .next (s.runCmd id 0x01 fun _ s => s.completeOk id 0 0 0)

/-- Bits of a mask by Spire. -/
def maskOf (f : Nat → Bool) : Nat := (List.range 64).foldl (fun a n => a + b2n (f n) * 2 ^ n) 0

/-- The Spire enable mask (R1). -/
def State.enableMask (s : State) : Nat := maskOf fun n => ! s.spireDisabled n

/-- The FAILED Spire mask, in which a disabled Spire is reported too (R487). -/
def State.failedMask (s : State) : Nat := maskOf fun n => s.spireDisabled n || decide ((s.dom n).st = .failed)

/-- The Spires of a tenant's partition. -/
def State.partMask (s : State) (t : BitVec 4) : Nat :=
  (s.creg .partSpLo t.toNat 0).toNat + (s.creg .partSpHi t.toNat 0).toNat * 2 ^ 32

/-- The ASCII bytes of the part string; part code 0 is the full part. -/
def State.partString (s : State) : List Byte :=
  (if s.fuses.part = 0 then "ZN4-2048-288L" else "ZN4-1920-288L").toList.map fun c => BitVec.ofNat 8 c.toNat

/-- Bytes padded with zeros to a length. -/
def zeroPad (n : Nat) (l : List Byte) : List Byte := l ++ List.replicate (n - l.length) 0

/-- The Belfry cores that a tenant's images hold. -/
def State.belfryHeld (s : State) (t : BitVec 4) : Nat :=
  s.tasks.foldl (fun n p => if p.2.tenant = t then n + p.2.belfry.length else n) 0

/-- Duboette's version, as the booted header gives it (R481). [DEDUCED, log 86] -/
def State.version (s : State) : Nat := SlotHdr.n s.bootImage 4 4

/-- The capability record (R421). [DEDUCED, log 86] -/
def State.capRecord (s : State) (t : BitVec 4) : List Byte :=
  zeroPad 256 (zeroPad 16 s.partString ++ (leBytes 8 s.enableMask ++ (leBytes 8 s.failedMask ++ (leBytes 2 s.devId.toNat ++
    (leBytes 1 (fld (s.creg .skbGroup 0 0) 3 0) ++ (leBytes 1 (b2n s.isManager + b2n (bit s.power.straps 4) * 2) ++
    (leBytes 4 s.version ++ (leBytes 8 (288 * 2 ^ 30) ++ (leBytes 2 s.cclk ++
    (leBytes 2 (s.tasks.foldl (fun m p => max m (imgClock p.2.image s.periodNs)) 0) ++ (leBytes 4 s.periodNs ++
    (leBytes 8 (s.partMask t) ++ (leBytes 2 (s.unitsOf false t).length ++ (leBytes 2 (s.unitsOf true t).length ++
    leBytes 1 (s.belfryHeld t)))))))))))))))

/-- QUERY_CAPS. [DEDUCED, log 86] -/
def execQueryCaps (id : Nat) (s : State) : Host.Outcome State Fault Refusal :=
  .next (s.runCmd id 0x02 fun c s =>
    let a := c.par 0 8
    let x := if a = 0 then (none, s) else s.cmdWrite c a (s.capRecord c.tenant)
    match x.1 with
    | some f => x.2.failCmd id 0x04 f
    | none =>
      let s := x.2
      s.completeOk id s.enableMask s.failedMask
        (s.devId.toNat + fld (s.creg .skbGroup 0 0) 3 0 * 2 ^ 16 + s.version % 2 ^ 16 * 2 ^ 32))

/-- READ_ERRLOG: the first records of the caller's selection in service order (R421, R467). -/
def execReadErrlog (id : Nat) (s : State) : Host.Outcome State Fault Refusal :=
  .next (s.runCmd id 0x03 fun c s =>
    let n := c.par 8 2
    s.checked id [(8, decide (n = 0) || decide (256 < n)), (10, decide (1 < c.par 10 1))] (
      let sel := s.service.filter fun h => decide (c.tenant = 0) || decide (h.rep.tenant = c.tenant)
      let out := sel.take n
      let x := s.cmdWrite c (c.par 0 8) (out.flatMap HubRec.bytes)
      match x.1 with
      | some f => x.2.failCmd id 0x04 f
      | none =>
        let s := x.2
        let s := if c.flag 10 0 then out.foldl (fun s h => s.dropRecord h) s else s
        s.completeOk id out.length (sel.length - out.length) (s.lostTotal + (s.creg .ehOvf 0 0).toNat)))

/-! ### Partitions, power and ticks (R433, R435, R451, R458) -/

/-- Whether a loaded image of a tenant uses a Spire. [DEDUCED, log 86] -/
def State.tenantUses (s : State) (t : BitVec 4) (n : Nat) : Bool :=
  let sp : Spire := BitVec.ofNat 6 n
  s.tasks.any fun p => decide (p.2.tenant = t) &&
    (p.2.spires.contains sp || (match p.2.mig with | some m => (plSpires p.2.image m.place).contains sp | none => false))

/-- PARTITION. [DEDUCED, log 86] -/
def execPartition (id : Nat) (s : State) : Host.Outcome State Fault Refusal :=
  .next (s.runCmd id 0x08 fun c s =>
    s.checked id [(0, decide (15 < c.par 0 1)), (1, decide (7 < c.par 1 1)), (4, decide (127 < c.par 4 1))] (
      let t : BitVec 4 := BitVec.ofNat 4 (c.par 0 1)
      let en := c.flag 1 0
      let new := if en then c.par 8 8 else 0
      let has (n : Nat) : Bool := decide (new / 2 ^ n % 2 = 1)
      let taken := (List.range 64).any fun n => ! has n && s.inPartition t (BitVec.ofNat 6 n) && s.tenantUses t n
      let given := (List.range 64).any fun n => has n &&
        (List.range 16).any fun u => decide (u ≠ t.toNat) && s.inPartition (BitVec.ofNat 4 u) (BitVec.ofNat 6 n)
      let loaded := ! en && s.tasks.any fun p => decide (p.2.tenant = t)
      if taken ∨ given ∨ loaded then s.failCmd id 0x06 0
      else
        let s := s.setCreg .partCfg t.toNat 0 (BitVec.ofNat 32 (c.par 1 1 + c.par 4 1 * 2 ^ 8 + c.par 2 1 * 2 ^ 16 + c.par 3 1 * 2 ^ 24))
        let s := s.setCreg .partSpLo t.toNat 0 (BitVec.ofNat 32 new)
        let s := s.setCreg .partSpHi t.toNat 0 (BitVec.ofNat 32 (new / 2 ^ 32))
        let s := if en then s else
          (List.range 16).foldl (fun s k =>
            let r := 16 * t.toNat + k
            s.setCreg .ringCfg r 0 (s.creg .ringCfg r 0 &&& ~~~ 1#32)) s
        s.completeOk id new 0 0))

/-- `PWR_STATUS` as it reads: STATE follows the phase (R459). -/
def State.pwrStatus (s : State) : Word :=
  let st := match s.power.phase with
    | .entering | .retain => 1
    | .wakeWait | .waking => 2
    | _ => 0
  setFld (s.creg .pwrStatus 0 0) 1 0 st

/-- The results of `SET_POWER`. -/
def State.powerReply (s : State) (id : Nat) : State :=
  s.completeOk id (fld (s.creg .pwrCtl 0 0) 10 0) s.cclk s.pwrStatus.toNat

/-- The checks of the parameters of `SET_POWER`. [DEDUCED, log 87] -/
def powerChecks (c : Cmd) : List (Nat × Bool) :=
  [(0, decide (c.par 0 2 < 900) || decide (1800 < c.par 0 2)), (2, decide (2047 < c.par 2 2)), (4, decide (1 < c.par 4 1))]

/-- The word that `SET_POWER` writes to `PWR_CTL`. [DEDUCED, log 87] -/
def powerWord (c : Cmd) : Word := BitVec.ofNat 32 (c.par 0 2 + c.par 2 2 * 2 ^ 16)

/-- SET_POWER with STATE 0, or out of range: the cap is written; the reply follows when the loop has settled, or after 100
windows (R458). -/
def execSetPower (id : Nat) (s : State) : Host.Outcome State Fault Refusal :=
  .next (s.runCmd id 0x09 fun c s =>
    s.checked id (powerChecks c) (
      if c.par 4 1 = 1 then s
      else if c.step = 0 then (s.writePwrCtl (powerWord c)).cmdStep id 1
      else if bit (s.creg .pwrStatus 0 0) 4 ∨ 100 ≤ s.power.windows then s.powerReply id
      else s))

/-- Whether something forbids RETAIN (R451). -/
def State.retainBusy (s : State) : Bool :=
  (s.tasks.any fun p => p.2.run.isSome || p.2.mig.isSome) ||
  (s.cmds.any fun p => (decide (p.2.op = 0x20) || decide (p.2.op = 0x21)) && decide (p.2.st = .started))

/-- SET_POWER with STATE 1: edges stop, the completion is written and the device enters RETAIN (R451).
[DEDUCED, log 87] -/
def execSetPowerRetain (id : Nat) (s : State) : Host.Outcome State Fault Refusal :=
  .next (s.runCmd id 0x09 fun c s =>
    if c.par 4 1 ≠ 1 then s
    else
      s.checked id (powerChecks c) (
        if s.retainBusy then s.failCmd id 0x06 0
        else
          let s := s.writePwrCtl (powerWord c)
          let old := s.creg .tickCtl 0 0
          let s := s.writeTickCtl (old &&& ~~~ 1#32)
          let p : Power := { s.power with phase := .entering, savedCtl := old, match_ := false }
          ({ s with power := p } : State).powerReply id))

/-- SET_TICK (R435). [DEDUCED, log 87] -/
def execSetTick (id : Nat) (s : State) : Host.Outcome State Fault Refusal :=
  .next (s.runCmd id 0x0A fun c s =>
    let word (o : Nat) : Word := BitVec.ofNat 32 (c.par o 4)
    s.checked id
      [(0, ! tickRange (word 0)), (4, ! tickRange (word 4) || decide (c.par 8 4 < c.par 4 4)), (8, ! tickRange (word 8)),
       (12, decide (15 < c.par 12 1) || decide (c.par 12 1 / 4 = 3))] (
      let need := s.tasks.foldl (fun m p => max m (imgClock p.2.image (c.par 0 4))) 0
      if 1600 < need then s.failCmd id 0x0A need
      else
        let s := ((s.setCreg .tickPeriod 0 0 (word 0)).setCreg .tickMin 0 0 (word 4)).setCreg .tickMax 0 0 (word 8)
        let s := s.writeTickCtl (BitVec.ofNat 32 (c.par 12 1 + fld (s.creg .tickCtl 0 0) 4 4 * 16))
        let s := s.setFloor
        s.completeOk id need s.nextTick 0))

/-! ### Counters and locks (R431) -/

/-- Runs of `n` free units in one Spire of a tenant's partition, by their first unit; `sp` is a Spire, or 0xFF for any.
[DEDUCED, log 88] -/
def State.freeUnits (s : State) (lock : Bool) (t : BitVec 4) (sp n : Nat) : List Nat :=
  (List.range 1024).filter fun u =>
    let k := u / 16
    (decide (sp = 0xFF) || decide (sp = k)) && s.inPartition t (BitVec.ofNat 6 k) && ! s.spireDisabled k &&
    decide ((s.dom k).st ≠ .failed) && decide (u % 16 + n ≤ 16) &&
    (List.range n).all fun i => (s.unitOwner lock (u + i)).isNone

/-- Allocate `n` units to the tenant of a command, or answer why there are none. [DEDUCED, log 88] -/
def State.allocUnits (s : State) (id : Nat) (c : Cmd) (lock : Bool) (sp n : Nat) (f : Nat → State → State) : State :=
  if s.quota lock c.tenant < (s.unitsOf lock c.tenant).length + n then s.failCmd id 0x05 0
  else
    let x := s.shuffle (s.freeUnits lock c.tenant sp n)
    match x.1 with
    | [] => s.failCmd id 0x05 0
    | u :: _ => f u ((List.range n).foldl (fun s i => s.setUnit lock (u + i) (some c.tenant)) x.2)

/-- Whether SPIRE names any Spire or one of the tenant's partition. -/
def State.badSpire (s : State) (c : Cmd) (sp : Nat) : Bool :=
  decide (sp ≠ 0xFF) && (decide (63 < sp) || ! s.inPartition c.tenant (BitVec.ofNat 6 sp))

/-- ALLOC_COUNTERS: units of one Spire; with HOME = 1 they are homed on the manager, which a worker is not.
[DEDUCED, log 88] -/
def execAllocCounters (id : Nat) (s : State) : Host.Outcome State Fault Refusal :=
  .next (s.runCmd id 0x10 fun c s =>
    let n := c.par 0 1
    s.checked id [(0, decide (n = 0) || decide (16 < n)), (1, s.badSpire c (c.par 1 1)), (2, decide (1 < c.par 2 1))] (
      let home := c.flag 2 0
      if home ∧ ! s.isManager then s.failCmd id 0x05 0
      else
        s.allocUnits id c false (c.par 1 1) n fun u s =>
          s.completeOk id (64 * u + (if home then 2 ^ 26 + s.devId.toNat * 2 ^ 16 else 0)) (64 * n) s.devId.toNat))

/-- ALLOC_LOCKS: a unit of 16 locks, each free with its rank. -/
def execAllocLocks (id : Nat) (s : State) : Host.Outcome State Fault Refusal :=
  .next (s.runCmd id 0x12 fun c s =>
    s.checked id [(0, s.badSpire c (c.par 0 1))] (
      s.allocUnits id c true (c.par 0 1) 1 fun u s =>
        let s := (List.range 16).foldl (fun s j =>
          let l : BitVec 14 := BitVec.ofNat 14 (16 * u + j)
          (s.setLock l LockSt.reset).setCreg .cupLcfg (lockSpire l).toNat (lockIndex l)
            (BitVec.ofNat 32 (c.par 8 8 / 2 ^ (4 * j) % 16))) s
        s.completeOk id (16 * u) 0 0))

/-- Whether a loaded task names a unit. -/
def State.namedUnit (s : State) (lock : Bool) (u : Nat) : Bool := s.tasks.any fun p => (imgUnits p.2.image lock).contains u

/-- Free `n` units from unit `u` on, or answer why not. [DEDUCED, log 88] -/
def State.freeUnitsCmd (s : State) (id : Nat) (c : Cmd) (lock : Bool) (u n : Nat) : State :=
  let us := (List.range n).map fun i => u + i
  if 16 < u % 16 + n ∨ us.any (fun k => s.unitOwner lock k ≠ some c.tenant) then s.failCmd id 0x03 0
  else if us.any (s.namedUnit lock) then s.failCmd id 0x06 0
  else (us.foldl (fun s k => s.setUnit lock k none) s).completeOk id 0 0 0

/-- A counter operand that names no counter of this device (R305). -/
def State.notHere (s : State) (w : Word) : Bool := decide (fld w 31 27 ≠ 0) || s.remoteCtr w

/-- FREE_COUNTERS. -/
def execFreeCounters (id : Nat) (s : State) : Host.Outcome State Fault Refusal :=
  .next (s.runCmd id 0x11 fun c s =>
    let w : Word := BitVec.ofNat 32 (c.par 0 4)
    let n := c.par 4 1
    s.checked id [(0, s.notHere w || decide (fld w 5 0 ≠ 0)), (4, decide (n = 0) || decide (16 < n))] (
      s.freeUnitsCmd id c false (fld w 15 6) n))

/-- FREE_LOCKS. -/
def execFreeLocks (id : Nat) (s : State) : Host.Outcome State Fault Refusal :=
  .next (s.runCmd id 0x13 fun c s =>
    let l := c.par 0 2
    s.checked id [(0, decide (0x3FFF < l) || decide (l % 16 ≠ 0))] (s.freeUnitsCmd id c true (l / 16) 1))

/-! ### Windows (R204, R208, R432, R484) -/

/-- The number of granules of Far. -/
def granules : List Nat := (List.range 0x40000).filter fun g => farPopulated (g * 2 ^ 21)

/-- Whether a granule lies in Duboette's region. -/
def duboettes (g : Nat) : Bool := decide (duboetteBase ≤ g * 2 ^ 21) && decide (g * 2 ^ 21 < duboetteBase + 2 ^ 30)

/-- Whether a tenant's table maps a physical granule. [DEDUCED, log 89] -/
def State.mapsGranule (s : State) (t : BitVec 4) (pg : Nat) : Bool :=
  (List.range (s.creg .winLen 0 t.toNat).toNat).any fun g =>
    match s.entryAddr 0 t g with
    | some a =>
      let e : DWord := BitVec.ofNat 64 (s.far.readNat a 8)
      bit e 0 && decide (fld e 26 8 = pg)
    | none => false

/-- Make a tenant's table at least `n` entries long in all four quadrants; a tenant's first table gets its place in
Duboette's region. -/
def State.growTable (s : State) (t : BitVec 4) (n : Nat) : State :=
  let len := (s.creg .winLen 0 t.toNat).toNat
  if n ≤ len then s
  else
    let a := duboetteBase + 4096 * (Config.winTable t.toNat % 2 ^ 18)
    (List.range 4).foldl (fun s k =>
      let q : Quad := BitVec.ofNat 2 k
      let s := if len = 0 then
          (s.writeWin .winBaseLo q t (BitVec.ofNat 32 a)).writeWin .winBaseHi q t (BitVec.ofNat 32 (a / 2 ^ 32))
        else s
      s.writeWin .winLen q t (BitVec.ofNat 32 n)) s

/-- The Far address of a tenant's table, as Duboette has written it last. -/
def State.tableBase (s : State) (t : BitVec 4) : Nat :=
  let last (r : CReg) : Word :=
    match (s.quad 0).winPend.reverse.find? fun p => p.1 = r.addr 0 t.toNat with
    | some p => p.2
    | none => s.creg r 0 t.toNat
  (last .winBaseLo).toNat + (last .winBaseHi).toNat * 2 ^ 32

/-- Start a `WINV` of a tenant's granules in every quadrant, where none is in progress; answers whether it started. -/
def State.startWinv (s : State) (t : BitVec 4) (first num : Nat) : Bool × State :=
  if [0, 1, 2, 3].any fun k => (s.quad (BitVec.ofNat 2 k)).winv.isSome then (false, s)
  else
    (true, (List.range 4).foldl (fun s k =>
      let q : Quad := BitVec.ofNat 2 k
      let s := s.setCreg .fxbWinvFirst k 0 (BitVec.ofNat 32 first)
      let s := s.setCreg .fxbWinvCnt k 0 (BitVec.ofNat 32 num)
      s.writeWinvCtl q (t.setWidth 32 ||| 0x100#32)) s)

/-- Whether `WINV` has completed in all four quadrants. -/
def State.winvDone (s : State) : Bool := [0, 1, 2, 3].all fun k => (s.quad (BitVec.ofNat 2 k)).winv.isNone

/-- Run a `WINV` for a command from step `k` on and complete it with r0. [DEDUCED, log 89] -/
def State.winvCmd (s : State) (id : Nat) (c : Cmd) (k first num r0 : Nat) : State :=
  if c.step ≤ k then
    let x := s.startWinv c.tenant first num
    if x.1 then x.2.cmdStep id (k + 1) else s.cmdStep id k
  else if s.winvDone then s.completeOk id r0 0 0
  else s

/-- Write table entries. -/
def State.writeEntries (s : State) (t : BitVec 4) (first flags : Nat) (pgs : List Nat) : State :=
  let base := s.tableBase t
  pgs.zipIdx.foldl (fun s p =>
    { s with far := s.far.storeNat (base + 8 * (first + p.2)) 8 (flags + p.1 * 2 ^ 8) }) s

/-- The granules that `SET_WINDOW` maps: those that it names, or free ones that Duboette chooses; or the status and r0 with
which it fails. [DEDUCED, log 89] -/
def State.windowGranules (s : State) (c : Cmd) : Except (Nat × Nat) (List Nat) × State :=
  let n := c.par 8 4
  let others (pg : Nat) : Bool := (List.range 16).any fun u => decide (u ≠ c.tenant.toNat) && s.mapsGranule (BitVec.ofNat 4 u) pg
  if ! c.flag 12 0 then (.ok (List.replicate n 0), s)
  else if c.flag 12 5 then
    let x := s.shuffle (granules.filter fun g => ! duboettes g && ! others g && ! s.mapsGranule c.tenant g)
    if x.1.length < n then (.error (0x05, 0), s) else (.ok (x.1.take n), x.2)
  else
    let pgs := (List.range n).map fun k => c.par 16 8 + k
    match pgs.find? fun g => ! farPopulated (g * 2 ^ 21) || duboettes g || others g with
    | some g => (.error (0x04, g * 2 ^ 21), s)
    | none => (.ok pgs, s)

/-- SET_WINDOW. [DEDUCED, log 89] -/
def execSetWindow (id : Nat) (s : State) : Host.Outcome State Fault Refusal :=
  .next (s.runCmd id 0x18 fun c s =>
    let first := c.par 0 8
    let n := c.par 8 4
    s.checked id [(0, decide (2 ^ 20 ≤ first)), (8, decide (n = 0) || decide (2 ^ 20 < first + n)), (12, decide (63 < c.par 12 1))] (
      if c.step = 0 then
        let x := s.windowGranules c
        match x.1 with
        | .error f => x.2.failCmd id f.1 f.2
        | .ok pgs =>
          let s := (x.2.growTable c.tenant (first + n)).writeEntries c.tenant first (c.par 12 1 % 16) pgs
          let r0 := pgs.headD 0
          if c.flag 12 4 then
            let s := s.modCmd id fun k => { k with slot := some (r0, 0) }
            s.winvCmd id c 1 first n r0
          else s.completeOk id r0 0 0
      else s.winvCmd id c 1 first n ((c.slot.map (·.1)).getD 0)))

/-- WINV. -/
def execWinv (id : Nat) (s : State) : Host.Outcome State Fault Refusal :=
  .next (s.runCmd id 0x19 fun c s =>
    s.checked id [(0, decide (2 ^ 27 ≤ c.par 0 8)), (8, decide (2 ^ 21 ≤ c.par 8 4))] (
      s.winvCmd id c 0 (c.par 0 8) (c.par 8 4) 0))

/-! ### COPY and FILL (R404, R420) -/

/-- A space code that the caller may not use. -/
def badSpace (c : Cmd) (off : Nat) : Bool := decide (3 < c.par off 1) || (decide (c.par off 1 = 2) && decide (c.tenant ≠ 0))

/-- Whether DEV names no device of the system where a space is a window of device DEV. -/
def State.badDev (s : State) (c : Cmd) (spaces : List Nat) : Bool :=
  spaces.contains 3 &&
  (decide (1023 < c.par 26 2) ||
   ! [0, 1, 2].all fun k => decide (devCoord (BitVec.ofNat 10 (c.par 26 2)) k < s.dimSize k))

/-- READ packets for a window of another device: pieces of at most 4,096 bytes. [DEDUCED, log 90] -/
def State.askRemote (s : State) (c : Cmd) (a n : Nat) : State :=
  (cutRuns 4096 a n (n / 4096 + 2)).foldl (fun s p =>
    s.sendPkt { dst := BitVec.ofNat 10 (c.par 26 2), src := s.devId, ptype := 0, tenant := c.tenant, epoch := 0, tag := s.skbTag,
                poison := false, addr := BitVec.ofNat 64 p.1, arg := BitVec.ofNat 64 p.2, e2eOk := true, data := [] }) s

/-- WRITE packets to a window of another device. [DEDUCED, log 90] -/
def State.writeRemote (s : State) (c : Cmd) (a : Nat) (bs : List (Byte × Bool)) : State :=
  ((cutRuns 4096 a bs.length (bs.length / 4096 + 2)).foldl (fun (x : List (Byte × Bool) × State) p =>
    let d := x.1.take p.2
    (x.1.drop p.2, x.2.sendPkt
      { dst := BitVec.ofNat 10 (c.par 26 2), src := x.2.devId, ptype := 1, tenant := c.tenant, epoch := 0, tag := x.2.skbTag,
        poison := d.any (·.2), addr := BitVec.ofNat 64 p.1, arg := BitVec.ofNat 64 p.2, e2eOk := true, data := d.map (·.1) })) (bs, s)).2

/-- COPY: the engine starts to move; `DMA_COMPLETE` follows. -/
def execCopy (id : Nat) (s : State) : Host.Outcome State Fault Refusal :=
  .next (s.runCmd id 0x20 fun c s =>
    s.checked id
      [(24, badSpace c 24), (25, badSpace c 25), (26, s.badDev c [c.par 24 1, c.par 25 1]),
       (28, decide (fld (BitVec.ofNat 32 (c.par 28 4)) 31 27 ≠ 0))] (
      if c.step ≠ 0 then s
      else (if c.par 24 1 = 3 then s.askRemote c (c.par 0 8) (c.par 16 8) else s).cmdStep id 1))

/-- FILL: the engine starts to write; `DMA_COMPLETE` follows. -/
def execFill (id : Nat) (s : State) : Host.Outcome State Fault Refusal :=
  .next (s.runCmd id 0x21 fun c s =>
    s.checked id [(24, badSpace c 24), (26, s.badDev c [c.par 24 1])] (
      if c.step ≠ 0 then s else s.cmdStep id 1))

/-- What the engine reads from a space: host memory and the window of another device as `hd` returned them, up to the
address at which they failed. -/
def State.dmaSource (s : State) (c : Cmd) (space a n : Nat) (hd : HostData) : (List (Byte × Bool) × Option Nat) × State :=
  if space = 1 ∨ space = 2 then s.dmaRead c.tenant space (a % 2 ^ 48) n
  else
    let l := (hd.getD []).take n
    ((l.map fun b => (b, false), if l.length < n then some (a + l.length) else none), if space = 0 then s.hostAccess else s)

/-- What the engine writes to a space; answers the address that failed. `ok` says whether host memory took a write. -/
def State.dmaSink (s : State) (c : Cmd) (space a : Nat) (bs : List (Byte × Bool)) (ok : Bool) : Option Nat × State :=
  if space = 1 ∨ space = 2 then s.dmaWrite c.tenant space (a % 2 ^ 48) bs
  else if space = 3 then (none, s.writeRemote c a bs)
  else if ok then (none, s.hostOut (.write c.fn (BitVec.ofNat 64 a) (bs.map (·.1))))
  else (some a, s)

/-- Signal the counter that a command names by an operand: a release after its writes. -/
def State.signalOperand (s : State) (c : Cmd) (w inc : Word) (bad : Bool) : State :=
  if s.remoteCtr w then
    s.sendPkt { dst := operandDev w, src := s.devId, ptype := 6, tenant := c.tenant, epoch := 0, tag := s.skbTag, poison := bad,
                addr := BitVec.ofNat 64 (w.toNat + b2n bad * 2 ^ 32), arg := inc.setWidth 64, e2eOk := true, data := [] }
  else
    let ctr : BitVec 16 := w.setWidth 16
    s.send (servicePort 0) (cupolaRouter (ctrSpire ctr)) false false c.tenant (.signal .agent ctr inc bad)

/-- The engine finishes a `COPY`: it reads SRC, writes DST, signals the counter and completes. [DEDUCED, log 90] -/
def State.finishCopy (s : State) (id : Nat) (c : Cmd) (hd : HostData) : State :=
  let n := c.par 16 8
  let src := c.par 24 1
  let x := s.dmaSource c src (c.par 0 8) n hd
  let y := x.2.dmaSink c (c.par 25 1) (c.par 8 8) x.1.1 (src = 0 || src = 3 || hd.isSome)
  let bad := x.1.1.any (·.2)
  let fail := match y.1 with | some a => some a | none => x.1.2
  let w : Word := BitVec.ofNat 32 (c.par 28 4)
  let inc : Word := BitVec.ofNat 32 (c.par 32 4)
  let s := if w = 0 ∧ inc = 0 then y.2 else y.2.signalOperand c w inc (bad || fail.isSome)
  match fail with
  | some a => s.failCmd id 0x04 a
  | none => s.completeCmd id (if bad then 0x0D else 0) (BitVec.ofNat 64 n) 0 0

/-- The engine finishes a `FILL`: the pattern repeats from DST, byte 0 of it first. -/
def State.finishFill (s : State) (id : Nat) (c : Cmd) (hd : HostData) : State :=
  let n := c.par 8 8
  let pat := (c.params.drop 16).take 8
  let bs := (List.range n).map fun k => ((pat[k % 8]?).getD 0, false)
  let y := s.dmaSink c (c.par 24 1) (c.par 0 8) bs hd.isSome
  match y.1 with
  | some a => y.2.failCmd id 0x04 a
  | none => y.2.completeOk id n 0 0

/-- DMA_COMPLETE: `hd` is what host memory or another device returned to a read, and, where only a write goes to host memory,
says by being there that host memory took it. -/
def execDmaComplete (id : Nat) (hd : HostData) (s : State) : Host.Outcome State Fault Refusal :=
  .next (
    match s.cmd id with
    | none => s
    | some c =>
      if c.st ≠ .started ∨ c.step ≠ 1 ∨ ! c.waitFor.isEmpty then s
      else if c.op = 0x20 then s.finishCopy id c hd
      else if c.op = 0x21 then s.finishFill id c hd
      else s)

end Sys2Proof.Machine
end

