-- ==== Sys2Proof/Machine/HostTasks.lean ====
section
/-! DEFINITION. The commands of images and tasks: load, unload, run, stop, cancel, migrate and dispatch
(R422 to R430). -/

namespace Sys2Proof.Machine

open Sys2Proof

/-! ### The checks of an image (R422, R423) -/

/-- The offset of the first block of a placement's schedules that is not as R254 lays it out. -/
def badBlock (im : List Byte) (o hi : Nat) : Nat → Option Nat
  | 0 => if o < hi then some o else none
  | n + 1 =>
    if hi ≤ o then none
    else
      let k := imgN im o 2
      let next := o + (192 + 8 * k + 63) / 64 * 64
      if k = 0 ∨ 4096 < k ∨ 2047 < imgN im (o + 2) 2 ∨ hi < next then some o
      else if (blockEntries im o).any fun w => ! evenOnes w then some o
      else badBlock im next hi n

/-- The offset of the first field of placement `p` that is not as R422 lays it out. -/
def placeFault (im : List Byte) (p : Nat) : Option Nat :=
  let d := 64 + 64 * p
  let len := im.length
  let exceeds (off n : Nat) : Bool := decide (len < off + n)
  let lists := plN im p 16 4
  let badList (k : Nat) : Bool :=
    let o := imgN im (lists + 8 * k) 8
    decide (o ≠ 0) && (exceeds o 64 || exceeds o (listBytes im o))
  let init := plN im p 28 4
  [ if exceeds (plN im p 8 4) (plN im p 12 4) then some (d + 8) else none,
    badBlock im (plN im p 8 4) (plN im p 8 4 + plN im p 12 4) 2048,
    if lists ≠ 0 ∧ exceeds lists 512 then some (d + 16) else none,
    if lists = 0 then none else ((List.range 64).find? badList).map fun k => lists + 8 * k,
    if exceeds (plN im p 20 4) (8 * plN im p 24 2) then some (d + 20) else none,
    if exceeds init (16 * plN im p 26 2) then some (d + 28) else none,
    ((List.range (plN im p 26 2)).find? fun k => decide (1 < imgN im (init + 16 * k + 2) 1)).map fun k => init + 16 * k + 2,
    if exceeds (plN im p 32 4) (plN im p 36 4) then some (d + 32) else none,
    if 12 < plN im p 52 1 then some (d + 52) else none,
    if exceeds (plN im p 48 4) (8 * plN im p 52 1) then some (d + 48) else none ].findSome? id

/-- The offset of the first field of an image that is faulty: MAGIC, VERSION, LEN, CRC, NPLACE, then every offset. -/
def imageFault (im : List Byte) : Option Nat :=
  let n := imgPlaces im
  [ if im.length < 64 ∨ imgN im 0 4 ≠ 0x49344E5A then some 0 else none,
    if imgN im 4 2 ≠ 1 then some 4 else none,
    if imgN im 8 8 ≠ im.length then some 8 else none,
    if crc32 (im.take 28 ++ ([0, 0, 0, 0] ++ im.drop 32)) ≠ BitVec.ofNat 32 (imgN im 28 4) then some 28 else none,
    if n = 0 ∨ 4 < n ∨ im.length < 64 + 64 * n then some 6 else none,
    (List.range (min n 4)).findSome? (placeFault im) ].findSome? id

/-- The entries that a placement's blocks give a router. -/
def plTab (im : List Byte) (p : Nat) (c : Nat) : List DWord :=
  match (plBlocks im p).find? fun b => b.1 = c with
  | some b => blockEntries im b.2
  | none => []

/-- The Spires that a task holds: those of its active placement, of a migration's target and of a placement that has not
drained. -/
def Task.holds (t : Task) (sp : Spire) : Bool :=
  t.spires.contains sp ||
  (match t.mig with | some m => (plSpires t.image m.place).contains sp | none => false) ||
  (match t.old with | some o => (plSpires t.image o).contains sp | none => false)

/-- A status with its results r0 and r1. -/
abbrev Refused := Option (Nat × Nat × Nat)

/-- Whether a Spire cannot be used (R5). [DEDUCED, log 51] -/
def State.spireGone (s : State) (sp : Spire) : Bool :=
  s.spireDisabled sp.toNat || decide ((s.dom sp.toNat).st = .failed)

/-- The first entry of a placement's schedules that R240 lists; `own` says that entries at the core ports of Spires that
cannot be used count. [DEDUCED, log 51, 58, 91] -/
def State.badSchedule (s : State) (im : List Byte) (p : Nat) (own : Bool) : Refused :=
  (plBlocks im p).findSome? fun b =>
    let c : CoreId := BitVec.ofNat 11 b.1
    (badEntry (plTab im p) (own && s.spireGone (spireOf c)) c).map fun k => (0x09, b.1, k)

/-- The checks of a placement, of a load or of task `h`'s migration (R423, R429): its Spires, and the granules of its
code, `t` being the tenant. -/
def State.placeRefused (s : State) (t : BitVec 4) (im : List Byte) (p : Nat) (h : Option Nat) : Refused :=
  let sps := plSpires im p
  let gone := maskOf fun n => sps.contains (BitVec.ofNat 6 n) && s.spireGone (BitVec.ofNat 6 n)
  if gone ≠ 0 then some (0x08, gone, 0)
  else if sps.any fun sp => ! s.inPartition t sp then some (0x05, 0, 0)
  else if s.tasks.any fun x => decide (some x.1 ≠ h) && sps.any x.2.holds then some (0x06, 0, 0)
  else none

/-- The first granule of a placement's code that is not mapped with W and X. -/
def State.codeRefused (s : State) (t : BitVec 4) (im : List Byte) (p : Nat) : Refused :=
  let g := plN im p 40 8
  ((List.range ((plN im p 36 4 + 2 ^ 21 - 1) / 2 ^ 21)).find? fun k =>
    let mapped (e : DWord) : Bool := entryPermits e .write && entryPermits e .fetch
    match s.entryAddr 0 t (g + k) with
    | some a => ! mapped (BitVec.ofNat 64 (s.far.readNat a 8))
    | none => true).map fun k => (0x04, (g + k) * 2 ^ 21, 0)

/-- The Belfry cores that no image holds. -/
def State.freeBelfry (s : State) : List Nat :=
  (List.range 16).filter fun b => decide (b % 4 ≠ 0) && ! s.tasks.any fun x => x.2.belfry.contains b

/-- The units that an image names in Spires that can be used. [DEDUCED, log 91] -/
def State.usableUnits (s : State) (im : List Byte) (lock : Bool) : List Nat :=
  (imgUnits im lock).filter fun u => ! s.spireGone (BitVec.ofNat 6 (u / 16))

/-- The check of the counter and lock units. [DEDUCED, log 91] -/
def State.unitsRefused (s : State) (t : BitVec 4) (im : List Byte) : Refused :=
  let taken (lock : Bool) : Bool := (s.usableUnits im lock).any fun u =>
    (match s.unitOwner lock u with | some o => decide (o ≠ t) | none => false) || s.namedUnit lock u
  let fresh (lock : Bool) : Nat := ((s.usableUnits im lock).filter fun u => (s.unitOwner lock u).isNone).length
  let exceeds (lock : Bool) : Bool := decide (s.quota lock t < (s.unitsOf lock t).length + fresh lock)
  if taken false ∨ taken true then some (0x06, 0, 0)
  else if exceeds false ∨ exceeds true then some (0x05, 0, 0)
  else none

/-- The first check of R423 that an image fails. -/
def State.loadRefused (s : State) (t : BitVec 4) (im : List Byte) (p : Nat) : Refused :=
  match imageFault im with
  | some o => some (0x07, o, 0)
  | none =>
    if imgPlaces im ≤ p then some (0x03, 17, 0)
    else
      [ s.placeRefused t im p none,
        (List.range (imgPlaces im)).findSome? fun k => s.badSchedule im k (k = p),
        if 1600 < imgClock im s.periodNs then some (0x0A, imgClock im s.periodNs, 0) else none,
        s.unitsRefused t im,
        s.codeRefused t im p,
        if s.freeBelfry.length < plN im p 52 1 then some (0x05, 0, 0) else none ].findSome? id

/-- Complete a command with a status and its results. -/
def State.refuseCmd (s : State) (id : Nat) (f : Nat × Nat × Nat) : State :=
  s.completeCmd id f.1 (BitVec.ofNat 64 f.2.1) (BitVec.ofNat 64 f.2.2) 0

/-! ### The load (R423, R316, R438) -/

/-- The Spire of an initial entry. -/
def InitEntry.spire (e : InitEntry) : Spire := if e.lock then lockSpire (e.id.setWidth 14) else ctrSpire e.id

/-- Write initial entries: a counter takes its value and limit and loses its poison, a lock is free with its rank.
[DEDUCED, log 91] -/
def State.writeInit (s : State) (es : List InitEntry) : State :=
  es.foldl (fun s e =>
    let sp := e.spire.toNat
    if e.lock then
      let l : BitVec 14 := e.id.setWidth 14
      (s.setLock l LockSt.reset).setCreg .cupLcfg sp (lockIndex l) (BitVec.ofNat 32 (e.rank % 16))
    else
      let k := ctrIndex e.id
      let s := (s.setCreg .cupCval sp k e.value).setCreg .cupClim sp k e.limit
      s.setCreg .cupCstat sp k (s.creg .cupCstat sp k &&& ~~~ 1#32)) s

/-- The initial entries of an image that lie in Spires of a list that run. [DEDUCED, log 91] -/
def State.initOf (s : State) (im : List Byte) (sps : List Spire) : List InitEntry :=
  (imgInit im).filter fun e => sps.contains e.spire && s.domOpen e.spire.toNat

/-- The values with which a task's counters start. -/
def State.startValues (s : State) (im : List Byte) : Store Word :=
  (imgUnits im false).foldl (fun st u =>
    (List.range 64).foldl (fun st k =>
      let c : BitVec 16 := BitVec.ofNat 16 (64 * u + k)
      Store.set 0 st c.toNat (s.ctrVal c)) st) []

/-- The Far address of a staging list. -/
def stagingFar (h p : Nat) (sp : Spire) : Nat := duboetteBase + 64 * (Config.stagingAddr h p sp.toNat % 2 ^ 24)

/-- Put a placement's staging lists into Far and set its Turrets, with no list running. -/
def State.setTurrets (s : State) (h : Nat) (t : BitVec 4) (im : List Byte) (p : Nat) : State :=
  (plSpires im p).foldl (fun s sp =>
    let o := plList im p sp
    let a := stagingFar h p sp
    let s := s.setCreg .trtCtl sp.toNat 0 (BitVec.ofNat 32 (1 + t.toNat * 2 ^ 8))
    if o = 0 then s
    else
      let s : State := { s with far := s.far.store a ((im.drop o).take (listBytes im o)) }
      (s.setCreg .trtListLo sp.toNat 0 (BitVec.ofNat 32 a)).setCreg .trtListHi sp.toNat 0 (BitVec.ofNat 32 (a / 2 ^ 32))) s

/-- Copy a placement's code to its granules and drop what the program caches hold. -/
def State.copyCode (s : State) (t : BitVec 4) (im : List Byte) (p : Nat) : State :=
  let code := (im.drop (plN im p 32 4)).take (plN im p 36 4)
  let x := s.dmaWrite t 1 (plN im p 40 8 * 2 ^ 21) (code.map fun b => (b, false))
  x.2.spires.foldl (fun s k => s.writePcInv (BitVec.ofNat 6 k.1) 1) x.2

/-- The cores of a placement take their copies of the tenant's counter and lock maps (R306). -/
def State.setMaps (s : State) (t : BitVec 4) (im : List Byte) (p : Nat) : State :=
  let cm := s.unitMap false t
  let lm := s.unitMap true t
  (plCores im p).foldl (fun s c => s.modCore c fun k => { k with cmap := cm, lmap := lm }) s

/-- A handle that no task has. [DEDUCED, log 91] -/
def State.freeHandle (s : State) : Option Nat × State :=
  let r := s.choose
  (((List.range (s.tasks.length + 1)).map fun k => (r.1 + k) % 0xFFFF).find? fun h => (s.task h).isNone, r.2)

/-- The load of an image whose checks have passed and whose Spires run. -/
def State.install (s : State) (id : Nat) (t : BitVec 4) (im : List Byte) (p : Nat) : State :=
  let g := s.freeHandle
  match g.1 with
  | none => s.failCmd id 0x05 0
  | some h =>
    let s := g.2
    let s := [false, true].foldl (fun s lock => (s.usableUnits im lock).foldl (fun s u => s.setUnit lock u (some t)) s) s
    let es := s.initOf im ((List.range 64).map (BitVec.ofNat 6))
    let s := s.writeInit es
    let b := s.shuffle s.freeBelfry
    let k : Task :=
      { tenant := t, image := im, place := p, epoch := 0, belfry := b.1.take (plN im p 52 1), begun := false, run := none,
        mig := none, old := none, lastTick := 0, overruns := 0, start := s.startValues im }
    let s := (b.2.copyCode t im p).setTurrets h t im p
    let s := (s.loadSchedules t im p).setMaps t im p
    let s : State := { s with tasks := Store.put s.tasks h k }
    let s := (s.placeThreads k p 0).setFloor
    s.completeOk id h es.length (imgClock im s.periodNs)

/-- Ask for the Spires of a placement that do not run. -/
def State.wantSpires (s : State) (im : List Byte) (p : Nat) : State :=
  (plSpires im p).foldl (fun s sp => if s.domOpen sp.toNat then s else s.requestOn sp.toNat) s

/-- The Spires of a placement that neither run nor come up. -/
def State.lostSpires (s : State) (im : List Byte) (p : Nat) : Nat :=
  maskOf fun n => (plSpires im p).contains (BitVec.ofNat 6 n) && ! s.domOpen n && ! s.coming n &&
    decide ((s.dom n).st ≠ .closing)

/-- Bring up the Spires of a placement for a command, then go on. -/
def State.withSpires (s : State) (id : Nat) (c : Cmd) (im : List Byte) (p : Nat) (f : State → State) : State :=
  let s := if c.step = 0 then (s.wantSpires im p).cmdStep id 1 else s
  let lost := s.lostSpires im p
  if lost ≠ 0 then s.failCmd id 0x08 lost
  else if (plSpires im p).all fun sp => s.domOpen sp.toNat then f s
  else s

/-- The image that a command reads, or the address that failed. [DEDUCED, log 91] -/
def State.readImage (s : State) (c : Cmd) (hd : HostData) : Except Nat (List Byte) × State :=
  let a := c.par 0 8
  let n := c.par 8 8
  if c.par 16 1 = 0 then
    let l := (hd.getD []).take n
    (if l.length < n then .error (a + l.length) else .ok l, s.hostAccess)
  else
    let x := s.dmaRead c.tenant (c.par 16 1) (a % 2 ^ 48) n
    match x.1.2 with
    | some f => (.error f, x.2)
    | none =>
      match x.1.1.findIdx? (·.2) with
      | some k => (.error (a + k), x.2)
      | none => (.ok (x.1.1.map (·.1)), x.2)

/-- LOAD_IMAGE: the image is read and checked, its Spires come up, then it is loaded. [DEDUCED, log 91] -/
def execLoadImage (id : Nat) (hd : HostData) (s : State) : Host.Outcome State Fault Refusal :=
  .next (s.runCmd id 0x28 fun c s =>
    let p := c.par 17 1
    s.checked id [(16, badSpace c 16 || decide (c.par 16 1 = 3))] (
      let x := if c.step = 0 then s.readImage c hd else (.ok c.image, s)
      match x.1 with
      | .error a => x.2.failCmd id 0x04 a
      | .ok im =>
        match x.2.loadRefused c.tenant im p with
        | some f => x.2.refuseCmd id f
        | none =>
          (x.2.modCmd id fun k => { k with image := im }).withSpires id c im p fun s => s.install id c.tenant im p))

/-! ### The retirement of a task (R428, R316, R320) -/

/-- The task of a handle, where it is the tenant's. -/
def State.ownTask (s : State) (c : Cmd) : Option (Nat × Task) :=
  match s.task (c.par 0 2) with
  | some t => if t.tenant = c.tenant then some (c.par 0 2, t) else none
  | none => none

/-- Go on with the task that a command names. -/
def State.withTask (s : State) (id : Nat) (c : Cmd) (f : Nat → Task → State) : State :=
  match s.ownTask c with
  | some x => f x.1 x.2
  | none => s.failCmd id 0x03 0

/-- The counters of a task that differ from the value it started with, in rising order. -/
def State.leaks (s : State) (t : Task) : List Nat :=
  (imgUnits t.image false).flatMap fun u =>
    ((List.range 64).map fun k => 64 * u + k).filter fun c =>
      decide (s.ctrVal (BitVec.ofNat 16 c) ≠ Store.get 0 t.start c)

/-- The locks of a task's units that are held. -/
def State.heldLocks (s : State) (t : Task) : List (BitVec 14) :=
  (imgUnits t.image true).flatMap fun u =>
    ((List.range 16).map fun k => (BitVec.ofNat 14 (16 * u + k) : BitVec 14)).filter fun l => (s.lock l).holder.isSome

/-- Spires leave a task: their idle time begins. -/
def State.leaveSpires (s : State) (sps : List Spire) : State :=
  let p : Power := { s.power with used := sps.foldl (fun u sp => Store.put u sp.toNat s.ns) s.power.used }
  { s with power := p }

/-- Hold the Belfry cores of a task again. -/
def State.releaseBelfry (s : State) (t : Task) : State :=
  t.belfry.foldl (fun s b => s.modBel (BitVec.ofNat 4 b) fun _ => Belfry.reset) s

/-- Every Spire of a task. -/
def Task.allSpires (t : Task) : List Spire :=
  t.spires ++ ((match t.mig with | some m => plSpires t.image m.place | none => []) ++
    (match t.old with | some o => plSpires t.image o | none => []))

/-- A task is retired: its threads stop, its locks are freed, its units and Belfry cores released, its routers swap to the
idle schedule at the next edge. -/
def State.retireTask (s : State) (h : Nat) (t : Task) : State :=
  let s := (s.stopThreads t.spires).2
  let s := (s.heldLocks t).foldl (fun s l => s.freeLock l true) s
  let s := s.breakAll t.tenant t.spires
  let s := [false, true].foldl (fun s lock => (imgUnits t.image lock).foldl (fun s u =>
    if s.unitOwner lock u = some t.tenant then s.setUnit lock u none else s) s) s
  let rs := plRouters t.image t.place
  let s := ((s.releaseBelfry t).loadIdle t.tenant rs).swapAt rs
  let s := s.leaveSpires t.allSpires
  ({ s with tasks := Store.del s.tasks h } : State).setFloor

/-- UNLOAD_IMAGE. -/
def execUnloadImage (id : Nat) (s : State) : Host.Outcome State Fault Refusal :=
  .next (s.runCmd id 0x29 fun c s =>
    s.withTask id c fun h t =>
      if t.run.isSome ∨ t.mig.isSome then s.failCmd id 0x06 0
      else
        let ls := s.leaks t
        (s.retireTask h t).completeOk id (min 0xFFFF ls.length + ls.headD 0 * 2 ^ 16) (s.heldLocks t).length t.overruns)

/-! ### Runs (R424, R425, R457) -/

/-- Arm a run for the earliest tick that its preparation allows. [DEDUCED, log 92] -/
def State.armRun (s : State) (h : Nat) (c : Cmd) (t : Task) (r : Run) : State :=
  if s.cclk < s.floorClk then s
  else
    let n0 := max (c.par 8 8) (s.nextTick + 1)
    let last := if r.stopped then some n0 else if r.count = 0 then none else some ((n0 + r.count - 1) % 2 ^ 48)
    { s with tasks := Store.put s.tasks h { t with run := some { r with n0 := n0, last := last, st := .armed } } }

/-- RUN_TICKS: the run is armed once the clock has reached FLOOR. -/
def execRunTicks (id : Nat) (s : State) : Host.Outcome State Fault Refusal :=
  .next (s.runCmd id 0x2A fun c s =>
    s.checked id [(8, decide (2 ^ 48 ≤ c.par 8 8))] (
      s.withTask id c fun h t =>
        match t.run with
        | some r => if r.cmd ≠ id then s.failCmd id 0x06 0 else if r.st = .waiting then s.armRun h c t r else s
        | none =>
          let r : Run :=
            { cmd := id, n0 := 0, count := c.par 4 4, last := none, st := .waiting, stopped := false, damaged := [], overruns := 0 }
          let t : Task := { t with run := some r }
          ({ s with tasks := Store.put s.tasks h t } : State).armRun h c t r))

/-- Whether a Turret's list still has entries to do. -/
def State.listBusy (s : State) (sp : Spire) : Bool :=
  ! (s.spire sp).listTodo.isEmpty || (s.spire sp).turret.any fun p => p.2.running && decide (p.2.entry ≠ 0xFFFF)

/-- RUN_TICKS_COMPLETE: after the last tick the write-back entries have completed, and the run replies. -/
def execRunTicksComplete (id : Nat) (s : State) : Host.Outcome State Fault Refusal :=
  .next (
    match s.tasks.find? fun p => (p.2.run.map (·.cmd)) = some id with
    | none => s
    | some (h, t) =>
      match t.run with
      | none => s
      | some r =>
        if r.st = .ending ∧ ! t.spires.any s.listBusy then s.replyRun h (if r.stopped then 0x0B else 0) none
        else s)

/-- STOP: the tick in progress, or the following one where the notice has passed, is the run's last.
[DEDUCED, log 92] -/
def execStop (id : Nat) (s : State) : Host.Outcome State Fault Refusal :=
  .next (s.runCmd id 0x2B fun c s =>
    s.withTask id c fun h t =>
      match t.run with
      | none => s.completeOk id t.lastTick 0 0
      | some r =>
        match r.st with
        | .waiting =>
          let s := s.modTask h fun t => { t with run := some { r with stopped := true } }
          s.completeOk id t.lastTick 0 0
        | .ending => s.completeOk id t.lastTick 0 0
        | _ =>
          let now := if s.ct.notice.isSome then (s.ct.tick.toNat + 1) % 2 ^ 48 else s.ct.tick.toNat
          let last := if r.st = .running then now else r.n0
          if (match r.last with | some l => decide (l ≤ last) | none => false) then s.completeOk id (r.last.getD last) 0 0
          else
            let s := s.modTask h fun t => { t with run := some { r with last := some last, stopped := true } }
            s.completeOk id last 0 0)

/-! ### CANCEL (R426) -/

/-- CANCEL of a task. -/
def execCancel (id : Nat) (s : State) : Host.Outcome State Fault Refusal :=
  .next (s.runCmd id 0x2C fun c s =>
    if c.par 0 2 = 0xFFFF then s
    else
      s.withTask id c fun h _ =>
        let x := s.endTask h 0x0C none
        x.2.completeOk id x.1.threads x.1.streams x.1.slots)

/-- Whether a command is the `DISPATCH` that RING and SEQ of another name: of that ring, or from the same device.
[DEDUCED, log 93] -/
def dispatchOf (c d : Cmd) : Bool :=
  decide (d.op = 0x2E) && decide (d.seq = c.par 4 2) && d.slot.isSome && d.ended.isNone &&
  (match d.origin, c.origin with
   | .ring r, .ring q => decide (r.toNat = c.par 2 2) && decide (ringTenant r = ringTenant q)
   | .remote x _, .remote y _ => decide (x = y)
   | .fan _, .fan _ => true
   | _, _ => false)

/-- CANCEL of a `DISPATCH`: its slot is cancelled if it is WAITING. [DEDUCED, log 93] -/
def execCancelDispatch (id : Nat) (s : State) : Host.Outcome State Fault Refusal :=
  .next (s.runCmd id 0x2C fun c s =>
    if c.par 0 2 ≠ 0xFFFF then s
    else if c.plen < 6 then s.failCmd id 0x03 0
    else
      match s.cmds.find? fun p => dispatchOf c p.2 with
      | none => s.failCmd id 0x03 2
      | some p =>
        match p.2.slot with
        | none => s.failCmd id 0x03 2
        | some (sp, k) =>
          let sp : Spire := BitVec.ofNat 6 sp
          if s.slotSt sp k = .waiting then
            (s.writeCupDctl sp k (s.creg .cupDctl sp.toNat k ||| 0x200#32)).completeOk id 0 0 1
          else s.completeOk id 0 0 0)

/-! ### Migration (R429, R430) -/

/-- The checks of a migration's target. -/
def State.migrateRefused (s : State) (h : Nat) (t : Task) (p : Nat) : Refused :=
  [ s.placeRefused t.tenant t.image p (some h), s.badSchedule t.image p true,
    s.codeRefused t.tenant t.image p ].findSome? id

/-- Arm a migration: the target's Spires run; its lists, thread maps and code are placed; the edge is the one after the
next, so that its lists run in the tick before. [DEDUCED, log 92] -/
def State.armMigrate (s : State) (id h : Nat) (t : Task) (p : Nat) (came : List Spire) : State :=
  let s := s.writeInit (s.initOf t.image came)
  let s := (s.copyCode t.tenant t.image p).setTurrets h t.tenant t.image p
  let s := s.setMaps t.tenant t.image p
  let start := came.foldl (fun st sp =>
    (List.range 1024).foldl (fun st k =>
      let c := 1024 * sp.toNat + k
      if (imgUnits t.image false).contains (c / 64) then Store.set 0 st c (s.ctrVal (BitVec.ofNat 16 c)) else st) st) t.start
  let m : Mig := { cmd := id, place := p, edge := (s.nextTick + 1) % 2 ^ 48, switched := none }
  { s with tasks := Store.put s.tasks h { t with mig := some m, start := start } }

/-- MIGRATE: the target is checked, its Spires come up, and the move is armed. -/
def execMigrate (id : Nat) (s : State) : Host.Outcome State Fault Refusal :=
  .next (s.runCmd id 0x2D fun c s =>
    s.withTask id c fun h t =>
      let p := c.par 2 1
      if t.mig.any fun m => m.cmd = id then s
      else if imgPlaces t.image ≤ p ∨ p = t.place then s.failCmd id 0x03 2
      else if t.mig.isSome ∨ t.old.isSome then s.failCmd id 0x06 0
      else
        match s.migrateRefused h t p with
        | some f => s.refuseCmd id f
        | none =>
          let came := if c.step = 0 then (plSpires t.image p).filter fun sp => ! s.domOpen sp.toNat
            else (plSpires t.image p).filter fun sp => c.image.contains (sp.setWidth 8)
          let s := if c.step = 0 then s.modCmd id fun k => { k with image := came.map fun sp => sp.setWidth 8 } else s
          s.withSpires id c t.image p fun s => s.armMigrate id h t p came)

/-- Whether a waiter entry is a thread's of a tenant. -/
def State.waitsFor (s : State) (t : BitVec 4) (w : Waiter) : Bool :=
  match w.want with
  | .swait (.thread x) _ _ | .lock (.thread x) _ | .watch (.lantern x _) _ _ => decide ((s.thread x).tenant = t)
  | _ => false

/-- Whether the old placement of a task has drained. -/
def State.oldDrained (s : State) (t : Task) (o : Nat) : Bool :=
  (plSpires t.image o).all fun sp =>
    ! (s.spire sp).waiters.any (s.waitsFor t.tenant) && s.turretIdle sp &&
    (spireCores sp).all fun c => ! (s.core c).slots.any fun x => x.2.running

/-- The counts of a placement whose cores were given up: streams that completed late, and messages answered
`STALE_EPOCH`. -/
def State.retiredCounts (s : State) (t : Task) (o : Nat) : Nat × Nat :=
  (plCores t.image o).foldl (fun a c =>
    match (s.core c).retired with
    | some x => (a.1 + x.1, a.2 + x.2)
    | none => a) (0, 0)

/-- The task whose migration a command made, once it has taken effect. -/
def State.migrated (s : State) (id : Nat) : Option (Nat × Task × Mig × Nat) :=
  s.tasks.findSome? fun p =>
    match p.2.mig, p.2.old with
    | some m, some o => if m.cmd = id ∧ m.switched.isSome then some (p.1, p.2, m, o) else none
    | _, _ => none

/-- MIGRATE_DRAINED: the old placement's cores are released and the migration replies. -/
def execMigrateDrained (id : Nat) (s : State) : Host.Outcome State Fault Refusal :=
  .next (
    match s.migrated id with
    | none => s
    | some (h, t, _, o) =>
      if ! s.oldDrained t o then s
      else
        let n := s.retiredCounts t o
        let s := (plCores t.image o).foldl (fun s c => s.modCore c fun k => { k with retired := none }) s
        let s := (s.modTask h fun t => { t with mig := none, old := none }).leaveSpires (plSpires t.image o)
        s.completeOk id t.epoch.toNat n.1 n.2)

/-- MIGRATE_TIMEOUT: the old placement has not drained 100 ms after the edge; its cores stay reserved. -/
def execMigrateTimeout (id : Nat) (s : State) : Host.Outcome State Fault Refusal :=
  .next (
    match s.migrated id with
    | none => s
    | some (h, t, m, o) =>
      if s.oldDrained t o ∨ s.ns < m.switched.getD 0 + 100000000 then s
      else
        let n := s.retiredCounts t o
        let s := s.modTask h fun t => { t with mig := none }
        s.completeCmd id 0x0E (BitVec.ofNat 64 t.epoch.toNat) (BitVec.ofNat 64 n.1) (BitVec.ofNat 64 n.2))

/-! ### DISPATCH (R427) -/

/-- DISPATCH: the lowest EMPTY slot is written and armed; the command completes when the slot has retired.
[DEDUCED, log 93] -/
def execDispatch (id : Nat) (s : State) : Host.Outcome State Fault Refusal :=
  .next (s.runCmd id 0x2E fun c s =>
    match c.slot with
    | some (sp, k) =>
      match c.ended with
      | some st => s.completeCmd id st (BitVec.ofNat 64 sp) (BitVec.ofNat 64 k) 0
      | none => s
    | none =>
      s.withTask id c fun _ t =>
        let n := c.par 2 1
        let sp : Spire := BitVec.ofNat 6 n
        let w (o : Nat) : Word := BitVec.ofNat 32 (c.par o 4)
        s.checked id
          [(2, decide (63 < n) || ! t.spires.contains sp), (3, c.flag 3 7), (12, s.notHere (w 12)), (20, s.notHere (w 20))] (
          match (List.range 64).find? fun k => s.slotSt sp k = .empty with
          | none => s.failCmd id 0x05 0
          | some k =>
            let s := (s.plainWrite .cupDent n k (w 4)).plainWrite .cupDpar n k (w 8)
            let s := (s.plainWrite .cupDwait n k (w 12)).plainWrite .cupDwtgt n k (w 16)
            let s := s.plainWrite .cupDdone n k (w 20)
            let s := s.modCmd id fun c => { c with slot := some (n, k) }
            s.writeCupDctl sp k (BitVec.ofNat 32 (c.par 3 1 % 2 ^ 7 + 2 ^ 7 + 2 ^ 8 + c.tenant.toNat * 2 ^ 12))))

/-! ### Function resets (R436) -/

/-- The window entries of a tenant are freed. -/
def State.freeWindow (s : State) (t : BitVec 4) : State :=
  let base := s.tableBase t
  (List.range (s.creg .winLen 0 t.toNat).toNat).foldl (fun s g => { s with far := s.far.storeNat (base + 8 * g) 8 0 }) s

/-- VF_FLR: the tenant's tasks are cancelled and unloaded, its units, window entries and Belfry cores freed, its rings
disabled; no completion is written for what was in flight. -/
def execVfFlr (t : BitVec 4) (s : State) : Host.Outcome State Fault Refusal :=
  .next (
    if t = 0 then s
    else
      let s : State := { s with cmds := s.cmds.filter fun p =>
        match p.2.origin with | .ring r => decide (ringTenant r ≠ t) | _ => true }
      let s := s.tasks.foldl (fun s p =>
        if p.2.tenant ≠ t then s
        else
          let s := (s.endTask p.1 0x0C none).2
          match s.task p.1 with
          | some k => s.retireTask p.1 k
          | none => s) s
      let s := [false, true].foldl (fun s lock => (s.unitsOf lock t).foldl (fun s u => s.setUnit lock u none) s) s
      let s := s.freeWindow t
      (List.range 16).foldl (fun s k =>
        let r : Ring := BitVec.ofNat 8 (16 * t.toNat + k)
        let s := s.setCreg .ringCfg r.toNat 0 (s.creg .ringCfg r.toNat 0 &&& ~~~ 1#32)
        s.modRing r fun _ => RingSt.reset) s)

/-- PF_FLR: the host interface alone is reset: its registers and the rings; what was in flight gets no completion. -/
def execPfFlr (s : State) : Host.Outcome State Fault Refusal :=
  .next (
    let gone (a : Nat) : Bool :=
      match locate a with
      | some (r, _, _) => decide (r.row.kind = .ring) || decide (r = .hifB2base) || decide (r = .hifAtcmiss) || decide (r = .hifCmds)
      | none => false
    { s with
        regs := s.regs.filter fun p => ! gone p.1
        rings := []
        cmds := s.cmds.filter fun p => match p.2.origin with | .ring _ => false | _ => true })

/-! ### BAR2 and ATS (R404, R405, R407) -/

/-- The Far address ranges that a BAR2 access of function `fn` reaches: none where some of it is not there or not permitted.
[DEDUCED, log 90] -/
def State.bar2Runs (s : State) (fn : BitVec 4) (off n : Nat) (p : Perm) : Option (List (Nat × Nat)) × State :=
  let size := 36 + Config.bar2Size.toNat
  let base := (s.creg .hifB2base 0 0).toNat * 2 ^ 36
  let r :=
    if fn = 0 then s.dmaRuns 0 2 p (base / 2 ^ size * 2 ^ size + off) n
    else s.dmaRuns fn 1 p off n
  (if r.1.2.isSome then none else some r.1.1, r.2)

/-- Whether a BAR2 access can reach the device: the host interface runs, and the offset lies in the BAR.
[DESIGN CHOICE, log 104] -/
def State.bar2Hits (s : State) (off n : Nat) : Bool :=
  s.domOpen 92 && decide (off + n ≤ 2 ^ (36 + Config.bar2Size.toNat))

/-- The CORRECTED record of a BAR access that reaches nothing. -/
def State.logBar (s : State) (fn : BitVec 4) (off : Nat) : State := s.reportDevice 5 0 0x08 0 (BitVec.ofNat 64 off) fn

/-- BAR2_READ. -/
def execBar2Read (fn : BitVec 4) (off : BitVec 64) (size : Nat) (s : State) : Host.Outcome State Fault Refusal :=
  .next (
    if ! s.bar2Hits off.toNat size then s
    else
      let x := s.bar2Runs fn off.toNat size .read
      match x.1 with
      | some runs => x.2.hostOut (.data ((readRuns x.2.far runs).map (·.1)))
      | none => (x.2.logBar fn off.toNat).hostOut .unsupported)

/-- BAR2_WRITE. -/
def execBar2Write (fn : BitVec 4) (off : BitVec 64) (data : List Byte) (s : State) : Host.Outcome State Fault Refusal :=
  .next (
    if ! s.bar2Hits off.toNat data.length then s
    else
      let x := s.bar2Runs fn off.toNat data.length .write
      match x.1 with
      | some runs =>
        let parts := spread runs (data.map fun b => (b, false))
        { x.2 with far := storeRuns x.2.far (parts.map fun p => (p.1, p.2.map (·.1))) [] }
      | none => x.2.logBar fn off.toNat)

/-- Whether the engine reads host memory. -/
def State.readsHost (s : State) : Bool :=
  s.cmds.any fun p => decide (p.2.op = 0x20) && decide (p.2.step = 1) && decide (p.2.par 24 1 = 0)

/-- ATS_INVALIDATION: it completes once every read that used the translation has returned. -/
def execAtsInvalidation (tag : Nat) (s : State) : Host.Outcome State Fault Refusal :=
  .next (if s.readsHost then s else s.hostOut (.invalidated tag))

end Sys2Proof.Machine
end

