-- ==== Sys2Proof/Machine/Keep.lean ====
section
/-! DEFINITION. The commands of the Keep, debug access, the Oculus's halt requests, the management bus and the
package's pins (R403, R451 to R453, R478 to R500, R508 to R520). -/

namespace Sys2Proof.Machine

open Sys2Proof

/-! ### Debug access (R492 to R496) -/

/-- Password attempts left. -/
def State.attempts (s : State) : Nat := fld (s.creg .keepDbg 0 0) 11 8

/-- Run a `DEBUG_UNLOCK` of a MODE; a command with another MODE is left alone. -/
def State.runDebug (s : State) (id : Nat) (mode : Nat → Bool) (f : Cmd → State → State) : State :=
  match s.cmd id with
  | some c => if mode (c.par 0 1) then s.runCmd id 0x0B f else s
  | none => s

/-- Answer a `DEBUG_UNLOCK`: r0 is the level now open, r1 the attempts left (R493). -/
def State.debugReply (s : State) (id status : Nat) : State :=
  s.completeCmd id status (BitVec.ofNat 64 s.dbgLevel) (BitVec.ofNat 64 s.attempts) 0

/-- A level opens beside what is open already. -/
def State.openDebug (s : State) (level : Nat) : State :=
  s.setCreg .keepDbg 0 0 (setFld (s.creg .keepDbg 0 0) 1 0 (max level s.dbgLevel))

/-- Close debug access: fault injection and trace stop, JTAG returns to IDCODE, pending halt requests are withdrawn
(R399, R496). -/
def State.closeDebug (s : State) : State :=
  let s := s.setCreg .keepDbg 0 0 (setFld (s.creg .keepDbg 0 0) 1 0 0)
  let s := (List.range 8).foldl (fun s p =>
    s.setCreg .skbTfiCtl p 0 (setFld (s.creg .skbTfiCtl p 0) 1 0 0)) s
  let s := s.setCreg .ocuCtl 0 0 (setFld (s.creg .ocuCtl 0 0) 0 0 0)
  let s := { s with
    threads := s.threads.map fun (p : Nat × Thread) =>
      (p.1, p.2.modLtn fun l => { l with edge := l.edge &&& ~~~ 0x40000000#32 }) }
  let k : Keep := { s.keep with nonce := none, rma := false, jtag := .idcode }
  { s with keep := k }

/-- DEBUG_STATUS, and a MODE that is not given. -/
def execDebugStatus (id : Nat) (s : State) : Host.Outcome State Fault Refusal :=
  .next (s.runDebug id (fun m => decide (m = 0) || decide (5 < m)) fun c s =>
    s.checked id [(0, decide (5 < c.par 0 1))] (s.debugReply id 0))

/-- The parameter block of a `DEBUG_UNLOCK` of `n` bytes. -/
def State.debugBlock (s : State) (c : Cmd) (n : Nat) (hd : HostData) : Option (List Byte) × State :=
  s.cmdRead (s.cmdWindow c) c.tenant (c.par 8 8) n hd

/-- Whether a password matches the newest burnt slot, which is void in RMA and where its fuses cannot be read (R487,
R490, R494). -/
def State.passwordRight (s : State) (pw : List Byte) : Bool :=
  match s.fuses.slots.getLast? with
  | some p =>
    decide (s.keep.lifecycle ≠ 2) && ! bit s.fuses.badSlots (s.fuses.slots.length - 1) &&
      decide (Config.sha384 (leBytes 16 p.1.toNat ++ pw) = p.2)
  | none => false

/-- DEBUG_PASSWORD: LIMITED opens, or an attempt is used (R494). -/
def execDebugPassword (id : Nat) (hd : HostData) (s : State) : Host.Outcome State Fault Refusal :=
  .next (s.runDebug id (fun m => decide (m = 1)) fun c s =>
    let n := c.par 16 2
    s.checked id [(16, decide (n < 8 ∨ 64 < n))] (
      if s.attempts = 0 then s.debugReply id 0x13
      else
        let r := s.debugBlock c n hd
        let s := r.2
        match r.1 with
        | none => s.failCmd id 0x04 (c.par 8 8)
        | some pw =>
          if s.passwordRight pw then (s.openDebug 1).debugReply id 0
          else
            let s := s.setCreg .keepDbg 0 0 (setFld (s.creg .keepDbg 0 0) 11 8 (s.attempts - 1))
            s.debugReply id 0x12))

/-- The bytes that a CHALLENGE delivers: the nonce and the serial. -/
def State.challengeBytes (s : State) (nonce : BitVec 256) : List Byte :=
  leBytes 32 nonce.toNat ++ leBytes 6 s.fuses.serial.toNat

/-- DEBUG_CHALLENGE: a nonce from the random generator takes the place of any other (R493, R495). -/
def execDebugChallenge (id : Nat) (s : State) : Host.Outcome State Fault Refusal :=
  .next (s.runDebug id (fun m => decide (m = 2)) fun c s =>
    let f := s.fresh
    let nonce : BitVec 256 := f.1.setWidth 256
    let s := f.2
    let k : Keep := { s.keep with nonce := some nonce }
    let s : State := { s with keep := k }
    let w := s.cmdWrite c (c.par 8 8) (s.challengeBytes nonce)
    match w.1 with
    | some a => w.2.failCmd id 0x04 a
    | none => w.2.debugReply id 0)

/-- Whether the Keep accepts a token (R495); without the debug key's hash FULL cannot open (R487). -/
def State.tokenRight (s : State) (tok : List Byte) : Bool :=
  let n (off len : Nat) : Nat := leNat ((tok.drop off).take len)
  decide (n 0 4 = 0x4E454B54) && decide (n 4 6 = s.fuses.serial.toNat) &&
    decide (n 10 1 = 1 ∨ n 10 1 = 2) &&
    decide (s.keep.nonce = some (BitVec.ofNat 256 (n 12 32))) && decide (s.keep.nonce ≠ none) &&
    decide (s.keep.lifecycle ≠ 3) && ! s.fuses.badDebug &&
    Config.ecdsaHashOk s.fuses.debugKey (tok.take 44) ((tok.drop 44).take 96)

/-- DEBUG_TOKEN: the level that the token names opens; the nonce is used (R493, R495). -/
def execDebugToken (id : Nat) (hd : HostData) (s : State) : Host.Outcome State Fault Refusal :=
  .next (s.runDebug id (fun m => decide (m = 3)) fun c s =>
    s.checked id [(16, decide (c.par 16 2 ≠ 140))] (
      let r := s.debugBlock c 140 hd
      let s := r.2
      match r.1 with
      | none => s.failCmd id 0x04 (c.par 8 8)
      | some tok =>
        let ok := s.tokenRight tok
        let k : Keep := { s.keep with nonce := none }
        let s : State := { s with keep := k }
        if ! ok then s.debugReply id 0x12
        else
          let level := leNat ((tok.drop 10).take 1)
          let s := s.openDebug level
          let rma := decide (level = 2) && decide (leNat ((tok.drop 11).take 1) % 2 = 1)
          let k : Keep := { s.keep with rma := s.keep.rma || rma }
          ({ s with keep := k } : State).debugReply id 0))

/-- DEBUG_CLOSE (R496). -/
def execDebugClose (id : Nat) (s : State) : Host.Outcome State Fault Refusal :=
  .next (s.runDebug id (fun m => decide (m = 4)) fun _ s => s.closeDebug.debugReply id 0)

/-- DEBUG_SETPW: the next password slot is burnt (R493, R494). -/
def execDebugSetpw (id : Nat) (hd : HostData) (s : State) : Host.Outcome State Fault Refusal :=
  .next (s.runDebug id (fun m => decide (m = 5)) fun c s =>
    let n := c.par 16 2
    let used := s.fuses.slots.length
    s.checked id [(16, decide (n < 8 ∨ 64 < n))] (
      if s.attempts = 0 then s.debugReply id 0x13
      else if used ≠ 0 ∧ s.dbgLevel = 0 then s.debugReply id 0x12
      else if 8 ≤ used then s.debugReply id 0x05
      else
        let r := s.debugBlock c n hd
        let s := r.2
        match r.1 with
        | none => s.failCmd id 0x04 (c.par 8 8)
        | some pw =>
          let f := s.fresh
          let salt : BitVec 128 := f.1.setWidth 128
          let s := f.2
          let fu : Fuses :=
            { s.fuses with slots := s.fuses.slots ++ [(salt, Config.sha384 (leBytes 16 salt.toNat ++ pw))] }
          let s : State := { s with fuses := fu }
          let s := s.setCreg .keepDbg 0 0 (setFld (s.creg .keepDbg 0 0) 19 16 (used + 1))
          s.debugReply id 0))

/-! ### Resets (R478, R479, R520) -/

/-- The always-on rails are gone: only what is fused, flashed or outside the device is left (R478, R520). -/
def State.railsGone (s : State) : State :=
  let k : Keep := { Keep.reset with flash := s.keep.flash }
  let p : Power := { Power.reset with lastOff := if s.power.phase = .off then s.power.lastOff else 0 }
  { State.reset with
      pending := s.pending
      now := s.now
      free := s.free
      nextId := s.nextId
      fuses := s.fuses
      keep := k
      power := p
      toHost := s.toHost
      smbus := s.smbus
      tickOut := s.tickOut }

/-- COLD_BOOT: the always-on rails have become valid; the straps are sampled and the PDM asks for the regulators. `flash`
is what the flash holds, or nothing where it holds what it held (R479, R508, R510). [DESIGN CHOICE, log 102] -/
def execColdBoot (straps : BitVec 5) (flash : List SlotImage) (s : State) : Host.Outcome State Fault Refusal :=
  .next (
    if s.power.phase ≠ .dark then s
    else
      let last := s.power.lastOff
      let s := s.railsGone
      let p : Power := { Power.reset with phase := .bootWait, pwrReq := true, straps := straps, lastOff := last }
      let k : Keep := { s.keep with flash := if flash.isEmpty then s.keep.flash else flash }
      let s : State := { s with power := p, keep := k }
      s.setCreg .pdmLastoff 0 0 (last.setWidth 32))

/-- PERST_N_ASSERT: on a manager a device reset, or the start of a wake; ignored on a worker (R452, R478).
[DESIGN CHOICE, log 102] -/
def execPerstNAssert (s : State) : Host.Outcome State Fault Refusal :=
  .next (
    if ! s.mgrStrap then s
    else
      match s.power.phase with
      | .on | .boot => if s.domOpen 93 ∧ ! s.keep.stopped then s.resetDevice else s
      | .retain => s.startWake true
      | .entering =>
        let p : Power := { s.power with match_ := true, perstWake := true }
        { s with power := p }
      | .wakeWait | .waking =>
        let p : Power := { s.power with perstWake := true }
        { s with power := p }
      | _ => s)

/-- DEVICE_RESET: a write of the key to `KEEP_RST`. -/
def execDeviceReset (ag : Agent) (key : Word) (s : State) : Host.Outcome State Fault Refusal :=
  .next (s.gated ag .keepRst 0 fun s => if key = 0x5EED then s.resetDevice else s)

/-- ALWAYS_ON_RAILS_FALL. -/
def execAlwaysOnRailsFall (s : State) : Host.Outcome State Fault Refusal := .next s.railsGone

/-! ### Belfry clusters (R478, R500, R516) -/

/-- The dirty bytes of a cluster's L2 go to Far, and its caches are empty. -/
def State.flushCluster (s : State) (q : Quad) : State :=
  let s := (s.quad q).l2.foldl (fun s p => s.evictLine q p.1 fun _ => true) s
  s.modQuad q fun k => { k with l2 := [], wcacheB := [] }

/-- A cluster is reset: its cores start at `BFC_ENTRY` where HOLD lets them. -/
def State.resetCluster (s : State) (q : Quad) : State :=
  let s := s.flushCluster q
  let s := (List.range 4).foldl (fun s k => s.modBel (q ++ BitVec.ofNat 2 k) fun _ => Belfry.reset) s
  let s := s.releaseCluster q
  if s.belfry.any (fun p => p.2.halted) then s else { s with faultSrc := s.faultSrc &&& ~~~ 2#6 }

/-- A write of `BFC_CTL`: HOLD holds and releases cores, RESET resets the cluster; core 0 of Q0 is never held and Q0's
cluster never reset. -/
def State.writeBfcCtl (s : State) (q : Quad) (v : Word) : State :=
  let old := s.creg .bfcCtl q.toNat 0
  let new := if q = 0 then v &&& 0xE#32 else v &&& 0xF#32
  let s := s.setCreg .bfcCtl q.toNat 0 new
  let s := (List.range 4).foldl (fun s k =>
    let b : BCore := q ++ BitVec.ofNat 2 k
    if bit new k ∧ ! bit old k then s.modBel b fun _ => Belfry.reset
    else if bit old k ∧ ! bit new k then s.startBelfry b (s.bfcEntry q)
    else s) s
  if bit v 8 ∧ q ≠ 0 then s.resetCluster q else s

/-- CLUSTER_RESET. -/
def execClusterReset (ag : Agent) (q : Quad) (v : Word) (s : State) : Host.Outcome State Fault Refusal :=
  .next (s.gated ag .bfcCtl q.toNat fun s => s.writeBfcCtl q (v ||| 0x100#32))

/-- BFC_HOLD_WRITE. -/
def execBfcHoldWrite (ag : Agent) (q : Quad) (v : Word) (s : State) : Host.Outcome State Fault Refusal :=
  .next (s.gated ag .bfcCtl q.toNat fun s => s.writeBfcCtl q v)

/-! ### The Keep's registers (R485, R486, R491, R500) -/

/-- SVNCOMMIT: the fused minimum rises to the booted SVN where the booted header asks for it. -/
def State.commitSvn (s : State) : State :=
  let svn := SlotHdr.n s.bootImage 8 4
  if s.keep.booted ∧ svn / 2 ^ 8 % 2 = 1 ∧ s.fuses.svn < svn % 64 then
    let f : Fuses := { s.fuses with svn := svn % 64 }
    ({ s with fuses := f } : State).setCreg .keepSvn 0 0 (BitVec.ofNat 32 (svn % 64))
  else s

/-- A write of `KEEP_CTL`. -/
def State.writeKeepCtl (s : State) (v : Word) : State :=
  let s := s.setCreg .keepCtl 0 0 (v &&& 1#32)
  if bit v 1 then s.commitSvn else s

/-- SVN_COMMIT: the write of `KEEP_CTL` with SVNCOMMIT set and PREFER as it stands. -/
def execSvnCommit (ag : Agent) (s : State) : Host.Outcome State Fault Refusal :=
  .next (s.gated ag .keepCtl 0 fun s => s.writeKeepCtl (s.creg .keepCtl 0 0 ||| 2#32))

/-- A word of the mailbox: word 0 begins the next 4 KiB block of the image. -/
def State.writeMbox (s : State) (i : Nat) (v : Word) : State :=
  let k := i % 1024
  let up := if k = 0 ∨ s.keep.upload.isEmpty then s.keep.upload ++ List.replicate 4096 0 else s.keep.upload
  let at_ := up.length - 4096 + 4 * k
  let up := up.take at_ ++ (leBytes 4 v.toNat ++ up.drop (at_ + 4))
  let kp : Keep := { s.keep with upload := up }
  { s with keep := kp }

/-- `KEEP_MBCTL.RES`. -/
def State.mbRes (s : State) (n : Nat) : State := s.setCreg .keepMbctl 0 0 (setFld (s.creg .keepMbctl 0 0) 3 2 n)

/-- A slot of the flash takes an image. -/
def State.putSlot (s : State) (b : Bool) (im : SlotImage) : State :=
  let k : Keep :=
    { s.keep with
        flash := (List.range (max 2 s.keep.flash.length)).map fun i =>
          if i = b2n b then im else (s.keep.flash[i]?).getD { header := [], body := [] } }
  { s with keep := k }

/-- A write of `KEEP_MBCTL`: PROG erases a slot and programs it, but for the booted one outside recovery. -/
def State.writeMbctl (s : State) (v : Word) : State :=
  if ! bit v 0 ∨ s.keep.progSlot ≠ none then s
  else
    let b := bit v 1
    if s.keep.booted ∧ b = s.keep.slot then s.mbRes 3
    else
      let s := s.putSlot b { header := [], body := [] }
      let k : Keep := { s.keep with progSlot := some b }
      ({ s with keep := k } : State).mbRes 1

/-- FLASH_PROGRAM. -/
def execFlashProgram (ag : Agent) (v : Word) (s : State) : Host.Outcome State Fault Refusal :=
  .next (s.gated ag .keepMbctl 0 fun s => s.writeMbctl (v ||| 1#32))

/-- FLASH_PROGRAM_DONE: the slot holds the image of the mailbox, and its check gives the result. -/
def execFlashProgramDone (s : State) : Host.Outcome State Fault Refusal :=
  .next (
    match s.keep.progSlot with
    | none => s
    | some b =>
      let im : SlotImage := { header := s.keep.upload.take 512, body := (s.keep.upload.take 0x4000000).drop 512 }
      let s := s.putSlot b im
      let k : Keep := { s.keep with progSlot := none, upload := [] }
      let s : State := { s with keep := k }
      s.mbRes (if s.slotCheck im = 0 then 2 else 3))

/-- Whether a transition of the lifecycle is allowed (R490, R491). -/
def State.mayMove (s : State) (target : BitVec 2) : Bool :=
  match s.fuses.lifecycle.toNat, target.toNat with
  | 0, 1 => true
  | 1, 2 => decide (s.dbgLevel = 2) && s.keep.rma
  | 1, 3 => decide (s.dbgLevel = 2)
  | 2, 3 => decide (s.dbgLevel = 2)
  | _, _ => false

/-- A write of `KEEP_LCREQ`: the fuses are burnt at once; the state applies from the next device reset. -/
def State.writeLcreq (s : State) (v : Word) : State :=
  let t : BitVec 2 := v.setWidth 2
  if s.mayMove t then
    let f : Fuses := { s.fuses with lifecycle := t }
    { s with fuses := f }
  else s

/-- LIFECYCLE_TRANSITION. -/
def execLifecycleTransition (ag : Agent) (v : Word) (s : State) : Host.Outcome State Fault Refusal :=
  .next (s.gated ag .keepLcreq 0 fun s => s.writeLcreq v)

/-! ### Attestation (R488 to R490) -/

/-- The Keep answers an SPDM request where the link and the Keep are there. -/
def State.spdmAnswer (s : State) (m : SpdmMsg) : State :=
  if s.domOpen 93 ∧ s.domOpen 92 then
    let k : Keep := { s.keep with spdm := s.keep.spdm ++ [m] }
    { s with keep := k }
  else s

/-- The measurements that the Keep holds. -/
def State.measurements (s : State) : List (Nat × BitVec 384) :=
  let im := s.bootImage
  [(1, Config.sha384 Config.keepRom)] ++
  (if s.keep.booted then
    [(2, Config.sha384 im.header), (3, Config.sha384 (im.body.take (SlotHdr.n im 12 4)))]
   else []) ++
  [(4, s.keep.fuseDigest),
   (5, Config.sha384 (leBytes 1 s.keep.lifecycle.toNat ++ (leBytes 1 s.dbgLevel ++ leBytes 1 (b2n s.keep.slot))))]

/-- GET_VERSION. -/
def execGetVersion (s : State) : Host.Outcome State Fault Refusal := .next (s.spdmAnswer .version)

/-- GET_CAPABILITIES. -/
def execGetCapabilities (s : State) : Host.Outcome State Fault Refusal := .next (s.spdmAnswer .capabilities)

/-- NEGOTIATE_ALGORITHMS. -/
def execNegotiateAlgorithms (s : State) : Host.Outcome State Fault Refusal := .next (s.spdmAnswer .algorithms)

/-- GET_DIGESTS: of the chain of slot 0. -/
def execGetDigests (s : State) : Host.Outcome State Fault Refusal :=
  .next (s.spdmAnswer (.digests (Config.sha384 (Config.certChain s.keep.lifecycle))))

/-- GET_CERTIFICATE: a part of the chain of slot 0, and how much of the chain follows. -/
def execGetCertificate (off len : BitVec 16) (s : State) : Host.Outcome State Fault Refusal :=
  .next (
    let chain := Config.certChain s.keep.lifecycle
    if chain.length ≤ off.toNat then s.spdmAnswer .error
    else
      let rest := chain.drop off.toNat
      s.spdmAnswer (.certificate (rest.take len.toNat) (rest.length - len.toNat)))

/-- CHALLENGE: signed with the leaf key; END has no attestation (R490). -/
def execChallenge (nonce : BitVec 256) (s : State) : Host.Outcome State Fault Refusal :=
  .next (s.spdmAnswer (if s.keep.lifecycle = 3 then .error else .challengeAuth nonce))

/-- GET_MEASUREMENTS: one index, all of them for 0xFF, or their number alone for 0. -/
def execGetMeasurements (ix : BitVec 8) (s : State) : Host.Outcome State Fault Refusal :=
  .next (
    let ms := s.measurements
    let one := ms.filter fun p => decide (p.1 = ix.toNat)
    s.spdmAnswer (
      if s.keep.lifecycle = 3 then .error
      else if ix = 0xFF then .measurements ms
      else if ix = 0 then .measurements []
      else if one.isEmpty then .error
      else .measurements one))

/-! ### Halt requests and scan (R492, R499) -/

/-- A write of `OCU_HALT`: DEBUG is latched in the thread while debug access is open. -/
def State.writeOcuHalt (s : State) (v : Word) : State :=
  let t : Tid := { core := v.extractLsb' 2 11, thread := v.setWidth 2 }
  if s.dbgLevel = 0 ∨ fld v 14 13 ≠ 0 ∨ ! s.domOpen (spireOf t.core).toNat then s else s.latch t 30

/-- OCU_HALT_WRITE. -/
def execOcuHaltWrite (ag : Agent) (v : Word) (s : State) : Host.Outcome State Fault Refusal :=
  .next (s.gated ag .ocuHalt 0 fun s => s.writeOcuHalt v)

/-- SCAN_MODE_ENTRY: at FULL with no task loaded; only a device reset leaves the mode. [DESIGN CHOICE, log 105] -/
def execScanModeEntry (s : State) : Host.Outcome State Fault Refusal :=
  .next (
    if s.dbgLevel = 2 ∧ s.tasks.isEmpty then
      let k : Keep := { s.keep with scan := true }
      { s with keep := k }
    else s)

/-! ### The management bus (R452, R515) -/

/-- The register that a command code reads, and the state after the read. -/
def State.smbusReg (s : State) (code : Nat) : Word × State :=
  let on := decide (s.power.phase = .on)
  match code with
  | 0 => (s.creg .pdmLastoff 0 0, s)
  | 1 => (s.creg .pdmWakes 0 0, s.setCreg .pdmWakes 0 0 0)
  | 2 => (if on then s.pwrStatus else 0, s)
  | 3 => (if on then s.creg .pwrTemp 0 0 else 0, s)
  | 4 => (if on then s.creg .pwrMeas 0 0 else 0, s)
  | 5 => (if on then s.creg .keepBootstat 0 0 else 0, s)
  | _ => (0, s)

/-- What a Block Read returns: a byte count of 4, the register's bytes and, where the master clocks one more byte, the
packet error code over the bytes of the transaction (R515). -/
def smbusReply (addr : BitVec 7) (ask : SmbusAsk) (v : Word) : List Byte :=
  let bs := 4#8 :: leBytes 4 v.toNat
  let own : Byte := addr.setWidth 8 <<< 1
  if ask.pec then bs ++ [Config.smbusPec ([own, ask.code, own ||| 1#8] ++ bs)] else bs

/-- SMBUS_BLOCK_READ: a byte count of 4 and the register; in RETAIN no acknowledgement, and the wake starts. -/
def execSmbusBlockRead (addr : BitVec 7) (ask : SmbusAsk) (s : State) : Host.Outcome State Fault Refusal :=
  .next (
    if addr.toNat ≠ 0x58 + fld s.power.straps 2 0 then s
    else
      match s.power.phase with
      | .dark | .wakeWait | .waking => s
      | .retain => s.startWake false
      | .entering =>
        let p : Power := { s.power with match_ := true }
        { s with power := p }
      | _ =>
        let r := s.smbusReg ask.code.toNat
        { r.2 with smbus := r.2.smbus ++ [smbusReply addr ask r.1], smbHeld := true })

/-- SMBUS_BUS_TIMEOUT: the device releases the bus. -/
def execSmbusBusTimeout (s : State) : Host.Outcome State Fault Refusal := .next { s with smbHeld := false }

/-! ### Failures and links (R28 to R31, R403, R451, R453, R479) -/

/-- FAILS_IN_SERVICE: the domain that the failure lies in latches FAILED, with the removals that follow; the PDM has no
domain, and its failure is a record of the device (R28 to R30). [DESIGN CHOICE, log 113] -/
def execFailsInService (f : Failure) (s : State) : Host.Outcome State Fault Refusal :=
  match f with
  | .domain n => .next (if (s.dom n.val).st = .on ∨ (s.dom n.val).st = .closing then s.failUnmeasured n.val else s)
  | .pdm =>
    let p : Power := { s.power with failed := true }
    .next (({ s with power := p } : State).reportDevice 8 0x0FF 0x38 3 0 0)

/-- LINK_SIGNAL_LOSS: a port that runs or trains goes DOWN. -/
def execLinkSignalLoss (p : Port) (s : State) : Host.Outcome State Fault Refusal :=
  .next (if s.portFailed p.toNat then s else s.setPort p.toNat 0)

/-- HOST_L1_EXIT: the exit completes only with the wake (R453). -/
def execHostL1Exit (s : State) : Host.Outcome State Fault Refusal :=
  .next (
    match s.power.phase with
    | .retain | .wakeWait | .waking =>
      let p : Power := { s.power with l1Exit := true }
      { s with power := p }
    | _ => s)

/-- Whether configuration requests complete: Duboette runs, or the Keep boots none. -/
def State.configReady (s : State) : Bool :=
  s.keep.duboette || bit (s.creg .keepBootstat 0 0) 7 || decide (s.keep.lifecycle = 3)

/-- CONFIGURATION_REQUEST: Request Retry Status until the rings are enabled; there are sixteen functions. What a read of
configuration space returns is a free value. -/
def execConfigurationRequest (fn : BitVec 8) (_reg : BitVec 10) (wr : Option Word) (s : State) :
    Host.Outcome State Fault Refusal :=
  .next (
    if ! s.domOpen 92 then s
    else if 15 < fn.toNat then s.hostOut .unsupported
    else if ! s.configReady then s.hostOut .retry
    else
      match wr with
      | some _ => s.hostOut .ok
      | none =>
        let f := s.fresh
        f.2.hostOut (.data (leBytes 4 (fld f.1 31 0))))

/-- The number of a generation. -/
def linkGenNum : LinkGen → Nat
  | .gen4 => 4 | .gen5 => 5 | .gen6 => 6

/-- The number of lanes. -/
def linkWidthNum : LinkWidth → Nat
  | .x4 => 4 | .x8 => 8 | .x16 => 16

/-- HOST_LINK_TRAINING: `HIF_LINK` shows what the link trained to. [DESIGN CHOICE, log 102] -/
def execHostLinkTraining (gen : LinkGen) (width : LinkWidth) (s : State) : Host.Outcome State Fault Refusal :=
  .next (
    if s.domOpen 92 then
      s.setCreg .hifLink 0 0 (BitVec.ofNat 32 (linkGenNum gen + linkWidthNum width * 2 ^ 4 + b2n (gen = .gen6) * 2 ^ 16))
    else s)

end Sys2Proof.Machine
end

