-- ==== Sys2Proof/Machine/CtlRead.lean ====
section
/-! DEFINITION. What a control address reads as, and what a read clears or latches (R12, R13, R118, R209 to R211). -/

namespace Sys2Proof.Machine

open Sys2Proof

/-! ### Computed registers -/

/-- The bits that a read shows: all but the write-only and the reserved ones (R11, R13). -/
def RegRow.shown (w : RegRow) : Word := w.rw ||| w.w1c ||| w.w1s ||| w.rc ||| w.ro ||| w.lock

/-- `BIC_SRCn`, with LEVEL and PEND (R122). -/
def State.bicSrcWord (s : State) (q : Quad) (n : Nat) : Word :=
  setFld (setFld (s.creg .bicSrc q.toNat n &&& 0x7FFF#32) 15 15 (b2n (bicLevel n))) 16 16 (b2n (s.bicPend q n))

/-- `BIC_RUNk`: the running priority and the depth of core k's stack. -/
def State.bicRunWord (s : State) (q : Quad) (k : Nat) : Word :=
  let st := (s.quad q).bicStack k
  BitVec.ofNat 32 ((match st with | [] => 64 | e :: _ => e.2.toNat) + st.length * 2 ^ 8)

/-- `SMR_STAT` (R268). -/
def State.smrStatWord (s : State) (c : CoreId) : Word :=
  let r := s.router c
  BitVec.ofNat 32 (b2n r.active + b2n r.ready * 2 + b2n (s.routerDone c) * 4 + r.tenant.toNat * 2 ^ 8 + b2n r.wref * 2 ^ 16 +
    b2n r.ovr * 2 ^ 17 + b2n r.perr * 2 ^ 18)

/-- `SMR_ENTRY`: the entry that runs and the cycles left in it. -/
def State.smrEntryWord (s : State) (c : CoreId) : Word :=
  let r := s.router c
  if r.live then BitVec.ofNat 32 (r.index % 4096 + r.left % 2 ^ 16 * 2 ^ 16) else BitVec.ofNat 32 (r.index % 4096)

/-- `TRT_STAT` (R301). -/
def State.trtStatWord (s : State) (sp : Spire) : Word :=
  let n := ((s.spire sp).turret.filter fun p => p.2.running).length
  (s.creg .trtStat sp.toNat 0 &&& 0xC#32) |||
    BitVec.ofNat 32 (b2n (s.spire sp).staged + b2n (n = 0) * 2 + n * 2 ^ 16)

/-- `TRT_SUBSTAT`. -/
def State.trtSubWord (s : State) (sp : Spire) : Word :=
  let n := ((s.spire sp).turret.filter fun p => p.2.running).length
  (s.creg .trtSubstat sp.toNat 0 &&& 0x100#32) ||| BitVec.ofNat 32 (128 - n)

/-- `CUP_CSTATi`: POISON, the waiter entries, and the owner of the counter's unit (R328). -/
def State.cstatWord (s : State) (sp : Spire) (i : Nat) : Word :=
  let n := ((s.spire sp).waiters.filter fun w => decide (w.obj = i) && ! w.want.onLock).length
  let u := s.creg .cupCunit sp.toNat (i / 64)
  (s.creg .cupCstat sp.toNat i &&& 1#32) ||| BitVec.ofNat 32 (n % 1024 * 2 + fld u 3 0 * 2 ^ 12 + fld u 4 4 * 2 ^ 16)

/-- `CUP_LSTATj`. -/
def State.lstatWord (s : State) (sp : Spire) (j : Nat) : Word :=
  let l := s.lock (sp ++ BitVec.ofNat 8 j)
  let n := ((s.spire sp).waiters.filter fun w => decide (w.obj = j) && w.want.onLock).length
  let who := match l.holder with
    | some (.thread t) => t.core.toNat * 2 + t.thread.toNat * 2 ^ 12
    | _ => 0
  BitVec.ofNat 32 (b2n l.holder.isSome + who + fld (s.creg .cupLcfg sp.toNat j) 3 0 * 2 ^ 14 + min 255 n * 2 ^ 18 +
    b2n l.broken * 2 ^ 31)

/-- The code of a dispatch slot's state. -/
def slotCode : SlotSt → Nat
  | .empty => 0
  | .waiting => 1
  | .running => 2
  | .closing => 3

/-- `CUP_DSTAT`. -/
def State.dstatWord (s : State) (sp : Spire) : Word :=
  let n (st : SlotSt) : Nat := ((s.spire sp).slots.filter fun p => p.2 = st).length
  (s.creg .cupDstat sp.toNat 0 &&& 0x10000#32) ||| BitVec.ofNat 32 (n .waiting + n .running * 2 ^ 8)

/-- The rank masks of two threads of a core. -/
def State.rankWord (s : State) (sp : Spire) (c first : Nat) : Word :=
  let m (k : Nat) : Nat := (s.thread { core := coreOf sp (BitVec.ofNat 5 c), thread := BitVec.ofNat 2 k }).rankMask.toNat
  BitVec.ofNat 32 (m first + m (first + 1) * 2 ^ 16)

/-- The code of a domain's state (R441). -/
def domCode : DomSt → Nat
  | .off => 0
  | .ramp => 1
  | .on => 2
  | .closing => 3
  | .failed => 4
  | .retained => 5

/-- `PDM_DSTATn` (R459). -/
def State.pdmDstatWord (s : State) (n : Nat) : Word :=
  let d := s.dom n
  BitVec.ofNat 32 (domCode d.st + d.fails.toNat * 2 ^ 4 + d.cause.toNat * 2 ^ 8 + b2n d.pend * 2 ^ 16)

/-- Whether a write from quadrant `k` to Far address `a` lands over bridge `b` in quadrant `q`: the horizontal bridge comes
first (R299). -/
def landsOver (q k : Quad) (b a : Nat) : Bool :=
  let h := a / 2 ^ 37 % 4
  if b = 0 then decide (q.toNat = k.toNat / 2 * 2 + h % 2) && decide (k.toNat % 2 ≠ h % 2)
  else decide (q.toNat = h) && decide (k.toNat / 2 ≠ h / 2)

/-- Whether a stream has writes to Far under way over an inbound bridge; how many of them its landing buffer holds follows
from the timing (R299, R302). [DESIGN CHOICE, log 6] -/
def State.landing (s : State) (q : Quad) (b : Nat) : Bool :=
  let lands (k : Quad) (st : Stream) : Bool :=
    decide (2 ≤ aSpace (dDst st.desc)) && st.pending.any fun p => p.runs.any fun r => landsOver q k b r.addr
  (s.cores.any fun p => p.2.slots.any fun x => lands (quadOf (spireOf (BitVec.ofNat 11 p.1))) x.2) ||
  s.spires.any fun p => p.2.turret.any fun x => lands (quadOf (BitVec.ofNat 6 p.1)) x.2

/-- `FBR_STATb`: a bridge is in service while the crossbars at both ends run, and failed where one of them has (R302).
[DEDUCED, log 101] -/
def State.fbrWord (s : State) (q : Quad) (b : Nat) : Word :=
  let other : Quad := if b = 0 then q ^^^ 1#2 else q ^^^ 2#2
  let st (k : Quad) : DomSt := (s.dom (72 + k.toNat)).st
  BitVec.ofNat 32 (b2n (st q = .on && st other = .on) + b2n (st q = .failed || st other = .failed) * 2)

/-- `EH_STAT` (R477). -/
def State.ehStatWord (s : State) : Word :=
  (s.creg .ehStat 0 0 &&& 0x10000#32) |||
    BitVec.ofNat 32 (s.hubQueue.length % 512 + b2n (s.hubQueue.any fun h => h.rep.sev = 3) * 2 ^ 17)

/-- `EH_FILT`: the open entries of the collectors', the group and the system filters. -/
def State.ehFiltWord (s : State) : Word :=
  let dev := s.quads.foldl (fun n p => n + p.2.filter.length) 0
  BitVec.ofNat 32 (min 127 dev + min 127 s.grpFilter.length * 2 ^ 8 + min 127 s.sysFilter.length * 2 ^ 16)

/-- `SBD_PINS` but for the two levels that only the board knows (R517). -/
def State.pinsWord (s : State) : Word :=
  BitVec.ofNat 32 (b2n s.power.vrGood * 4 + b2n (s.faultSrc = 0) * 8 + fld s.power.straps 2 0 * 2 ^ 4 +
    fld s.power.straps 3 3 * 2 ^ 7 + fld s.power.straps 4 4 * 2 ^ 8)

/-- Counters of waiting cycles, loads, latencies and corrected symbols, which follow from the timing and the analogue
behaviour that this model leaves out: what they hold is a free value, 0 in the cycle in which a read has cleared them
(R12). [DESIGN CHOICE, log 6] -/
def CReg.measured : CReg → Bool
  | .memBankwait | .trtLatmax | .dmfHot | .fbrMaxq | .skbLoad => true
  | _ => false

/-! ### Registers by name -/

/-- What a register shows, without the effects of a read. [DESIGN CHOICE, log 6] -/
def State.regShown (s : State) (r : CReg) (u i : Nat) : Word :=
  let q : Quad := BitVec.ofNat 2 u
  let sp : Spire := BitVec.ofNat 6 u
  let c : CoreId := BitVec.ofNat 11 u
  match r with
  | .bicSrc => s.bicSrcWord q i
  | .bicRun => s.bicRunWord q i
  | .numMode => BitVec.ofNat 32 (b2n (! (s.core c).service) + b2n (s.legacyOf (s.core c).tenant) * 2)
  | .matGated => (s.core c).tile.gated
  | .drumPp => setFld (s.creg .drumPp u 0) 16 16 (b2n (s.spire sp).phase)
  | .fxbWinvCtl => setFld (s.creg .fxbWinvCtl u 0) 16 16 (b2n (s.quad q).winv.isSome)
  | .smrStat => s.smrStatWord c
  | .smrTdlo => (s.tidxRead c).setWidth 32
  | .smrTdhi => (s.tidxRead c).extractLsb' 32 32
  | .smrPready => (s.router c).pready.setWidth 32
  | .smrEntry => s.smrEntryWord c
  | .trtStat => s.trtStatWord sp
  | .trtSubstat => s.trtSubWord sp
  | .cupCstat => s.cstatWord sp i
  | .cupLstat => s.lstatWord sp i
  | .cupDctl => setFld (s.creg .cupDctl u i &&& 0xF0FF#32) 11 10 (slotCode (s.slotSt sp i))
  | .cupDstat => s.dstatWord sp
  | .cupWuse => BitVec.ofNat 32 ((s.spire sp).waiters.length % 1024)
  | .cupRank => s.rankWord sp i 0
  | .cupRankHi => s.rankWord sp i 2
  | .spdStat => BitVec.ofNat 32 (b2n (s.spire sp).doze.dozing)
  | .fbrStat => s.fbrWord q i
  | .tickStat => s.tickStat
  | .ctTimeLo => BitVec.ofNat 32 s.ns
  | .ctTimeHi => BitVec.ofNat 32 (s.ns / 2 ^ 32)
  | .ctAct => (s.readAct i).1
  | .skbTfiCtl | .skbTfiRate | .skbTfiCount => if s.dbgLevel = 0 then 0 else s.creg r u i
  | .skbRtctl => BitVec.ofNat 32 (b2n s.locked)
  | .skbCollStat =>
    setFld (s.creg .skbCollStat 0 0) 4 0 (16 - ((List.range 16).filter fun n => (s.coll n).busy).length)
  | .ringStat => s.ringStat (BitVec.ofNat 8 u)
  | .pwrStatus => s.pwrStatus
  | .pdmDstat => s.pdmDstatWord i
  | .ehStat => s.ehStatWord
  | .ehFilt => s.ehFiltWord
  | .ehRec => (s.recWords[i]?).getD 0
  | .colStat => BitVec.ofNat 32 (min 127 (s.quad q).filter.length)
  | .colInjLo | .colInjHi => if s.dbgLevel = 0 then 0 else s.creg r u i
  | .keepFuse => if s.dbgLevel = 2 then Config.fuseWord i else 0
  | .ocuBuf => BitVec.ofNat 32 (s.ocu.readNat (4 * i) 4)
  | .bfcL2stat => BitVec.ofNat 32 (s.quad q).dirtyCount
  | .sbdPins => s.pinsWord
  | .sbdFault => s.faultSrc.setWidth 32
  | _ => s.creg r u i

/-- The word that a reader's latch holds; it is used up (R43, R268, R350). [DEDUCED, log 55] -/
def takeLatch {α : Type} (ag : Agent) (l : List (Agent × α)) : Option α × List (Agent × α) :=
  ((l.find? fun p => decide (p.1 = ag)).map (·.2), l.filter fun p => ! decide (p.1 = ag))

/-- Read a register: its value, and the state with what the read clears, latches or uses up (R12). [DEDUCED, log 55] -/
def State.readReg (s : State) (ag : Agent) (r : CReg) (u i : Nat) : Word × State :=
  if r.measured then
    if r.row.rc ≠ 0 ∧ Store.get 0 s.cleared (r.addr u i) = s.now then (0, s)
    else
      let f := s.fresh
      (BitVec.ofNat 32 (fld f.1 31 0) &&& r.row.shown,
        if r.row.rc = 0 then f.2 else { f.2 with cleared := Store.set 0 f.2.cleared (r.addr u i) s.now })
  else
    let v := s.regShown r u i &&& r.row.shown
    match r with
    | .smrTdlo => (v, s.latchTdlo ag (BitVec.ofNat 11 u))
    | .smrTdhi =>
      let c : CoreId := BitVec.ofNat 11 u
      let x := takeLatch ag (s.router c).latch
      ((x.1.map fun w => w.extractLsb' 32 32).getD v, s.modRouter c fun r => { r with latch := x.2 })
    | .ctTimeLo => (v, s.latchTime ag)
    | .ctTimeHi =>
      let x := takeLatch ag s.ct.latch
      let ct : Clocktower := { s.ct with latch := x.2 }
      (x.1.getD v, { s with ct := ct })
    | .ctAct => (v, (s.readAct i).2)
    | .ehRec =>
      let s := if i = 0 then s.latchRec ag else s
      (((s.hubLatch.find? fun p => decide (p.1 = ag)).map fun p => (p.2[i]?).getD 0).getD v, s)
    | .ehOvf =>
      let lost := if s.isDuboette ag then s.lostTotal + v.toNat else s.lostTotal
      (v, ({ s with lostTotal := lost } : State).setCreg .ehOvf 0 0 0)
    | .fbrStat =>
      if s.landing (BitVec.ofNat 2 u) i then
        let f := s.fresh
        (v ||| BitVec.ofNat 32 (fld f.1 7 0 * 2 ^ 8), f.2)
      else (v, s)
    | .sbdPins =>
      let f := s.fresh
      (v ||| BitVec.ofNat 32 (fld f.1 1 0), f.2)
    | _ => if r.row.rc = 0 then (v, s) else (v, s.setCreg r u i (s.creg r u i &&& ~~~ r.row.rc))

/-! ### The Lantern's registers (R118) -/

/-- `LTN_RUN`. -/
def Lantern.runWord (l : Lantern) : Word :=
  BitVec.ofNat 32 (l.running + l.stack.length * 2 ^ 8 + (match l.stack with | [] => 0 | e :: _ => e.1.toNat) * 2 ^ 16)

/-- `LTN_ATOM`. -/
def State.atomWord (s : State) (l : Lantern) : Word :=
  match l.atom with
  | .inactive | .pending _ => 0
  | .running e => BitVec.ofNat 32 ((e - s.now) % 4096 + 2 ^ 12)
  | .expired => BitVec.ofNat 32 (2 ^ 13)

/-- `LTN_PRIOk`; in ZN2 compatibility mode bits [5:4] of a field read 0 (R123). -/
def Lantern.prioWord (l : Lantern) (k : Nat) : Word :=
  BitVec.ofNat 32 ((List.range 4).foldl (fun a j => a + l.prioOf (4 * k + j) * 2 ^ (8 * j)) 0)

/-- `LTN_STKk`, entry 0 at the bottom. -/
def Lantern.stkWord (l : Lantern) (k : Nat) : Word :=
  match l.stack.reverse[k]? with
  | some e => BitVec.ofNat 32 (e.1.toNat + e.2.toNat * 2 ^ 8 + 2 ^ 31)
  | none => 0

/-- What a Lantern's register at an offset shows; none at an offset that names no register. -/
def State.lanternShown (s : State) (t : Tid) (off : Nat) : Option Word :=
  let th := s.thread t
  let l := s.lanternOf t
  if off % 4 ≠ 0 then none
  else if off = 0x000 then some (BitVec.ofNat 32 (b2n l.ie + b2n l.abftf * 2 + b2n l.poisonf * 4 + b2n l.legacy * 2 ^ 8))
  else if off = 0x004 then some (s.pendWord th)
  else if off = 0x008 then some l.en
  else if off = 0x00C ∨ off = 0x010 ∨ off = 0x014 ∨ off = 0x024 then some 0
  else if off = 0x018 then some l.runWord
  else if off = 0x01C then some (BitVec.ofNat 32 (l.vdt.toNat * 2 ^ 12))
  else if off = 0x020 then some (BitVec.ofNat 32 (l.vbase.toNat * 2 ^ 13))
  else if off = 0x028 then some (s.atomWord l)
  else if off = 0x02C then some (l.spur.setWidth 32)
  else if off = 0x030 then some th.lockupWord
  else if off = 0x034 then some l.lockPc
  else if off = 0x038 then some l.ovr
  else if 0x040 ≤ off ∧ off < 0x060 then some (l.prioWord ((off - 0x040) / 4))
  else if 0x060 ≤ off ∧ off < 0x080 then some (Store.get 0 l.watch ((off - 0x060) / 4))
  else if 0x080 ≤ off ∧ off < 0x0A0 then some (Store.get 0 l.wtgt ((off - 0x080) / 4))
  else if 0x0C0 ≤ off ∧ off < 0x100 then some (l.stkWord ((off - 0x0C0) / 4))
  else none

/-- Read a Lantern's register; a read of `LTN_SPUR` clears it. -/
def State.readLantern (s : State) (t : Tid) (off : Nat) : Option (Word × State) :=
  (s.lanternShown t off).map fun v =>
    (v, if off = 0x02C then s.modThread t fun th => th.modLtn fun l => { l with spur := 0 } else s)

/-! ### Any address -/

/-- The `SPL_LOCK` register at a control address: its Spire and number (R118). -/
def splLockAt (a : Nat) : Option (Spire × Nat) :=
  let q := a / 0x1000000 - 1
  let m := a % 0x1000000
  let o := m % 0x40000
  if 0x1000000 ≤ a ∧ q < 4 ∧ m < 0x400000 ∧ 0xF000 ≤ o ∧ o < 0xF010 ∧ o % 4 = 0 then
    some (BitVec.ofNat 6 (16 * q + m / 0x40000), (o - 0xF000) / 4)
  else none

/-- `SPL_LOCKk`. -/
def State.splLockWord (s : State) (sp : Spire) (k : Nat) : Word :=
  BitVec.ofNat 32 ((List.range 32).foldl (fun a j =>
    let n := 32 * k + j
    let t : Tid := { core := coreOf sp (BitVec.ofNat 5 (n / 4)), thread := BitVec.ofNat 2 n }
    a + b2n (decide ((s.thread t).status = .lockedUp)) * 2 ^ j) 0)

/-- The register that an address names: none for the swap registers of the quadrants that have none (R269). -/
def named (a : Nat) : Option (CReg × Nat × Nat) :=
  match locate a with
  | some (r, u, i) =>
    if (r = .smfSwapLo ∨ r = .smfSwapHi ∨ r = .smfSwapctl) ∧ u ≠ 0 then none else some (r, u, i)
  | none => none

/-- The domain and the block of a control address that is not the device's: the Spire. -/
def addrSpire (a : Nat) : Option Spire :=
  let q := a / 0x1000000 - 1
  let m := a % 0x1000000
  if 0x1000000 ≤ a ∧ q < 4 ∧ m < 0x400000 then some (BitVec.ofNat 6 (16 * q + m / 0x40000)) else none

/-- Whether an agent's request reaches the block of an address, for a reader that is no compute thread: a Belfry core's
tenant code stays in its own, JTAG and the host have their ways (R405, R438, R483, R492). -/
def State.readReaches (s : State) (ag : Agent) (a : Nat) : Bool :=
  match named a with
  | some (r, u, _) => s.hasWay ag r u && ! s.outOfReach ag r u
  | none =>
    s.lanternWay ag &&
    (match ag, addrSpire a with
     | .belfry b, some sp => ! decide (s.agentPriv ag = .user) || s.inPartition (s.bel b).tenant sp
     | _, _ => true)

/-- Whether the block of an address takes requests (R447). -/
def State.addrOpen (s : State) (a : Nat) : Bool :=
  match named a with
  | some (r, u, _) => s.blockOpen r u
  | none => match addrSpire a with | some sp => s.domOpen sp.toNat | none => true

/-- Read a control address: an address that names no register, or that the reader does not reach, reads 0 and is recorded
(R211, R438, R447). [DEDUCED, log 20, 45] -/
def State.readCtl (s : State) (ag : Agent) (a : Nat) : Word × State :=
  if ! s.readReaches ag a ∨ ! s.addrOpen a then (0, s.logAccess ag (BitVec.ofNat 64 a))
  else
    match splLockAt a with
    | some (sp, k) => (s.splLockWord sp k, s)
    | none =>
      match lanternAt a with
      | some (t, off) => (s.readLantern t off).getD (0, s.logAccess ag (BitVec.ofNat 64 a))
      | none =>
        match named a with
        | some (r, u, i) => s.readReg ag r u i
        | none => (0, s.logAccess ag (BitVec.ofNat 64 a))

end Sys2Proof.Machine
end

