-- ==== Sys2Proof/Machine/Tiles.lean ====
section
/-! DEFINITION. Tile instructions and the gating of idle tile banks (R70 to R72, R164). -/

namespace Sys2Proof.Machine

open Sys2Proof

/-- Write gd and Z (R70). -/
def Thread.setGZ (th : Thread) (d : Reg) (v : Word) (z : Bool) : Thread :=
  let th := th.setG d v
  th.setBank { th.bank with z := z }

/-- `talloc gd, ga` (R70). -/
def execTalloc (i : Iss) (d a : Reg) (s : State) : Host.Outcome State Fault Refusal :=
  issue i { g := [a], wg := [d] } s fun t s =>
    let m := (s.thread t).g a
    let bad := (s.core t.core).tile.conflicts t.thread m
    if bad.isEmpty then .done ((s.allocTiles t (maskCodes m)).modThread t fun th => th.setGZ d 0 true)
    else .done (s.modThread t fun th => th.setGZ d (codesMask bad) false)

/-- `trel ga` (R71). -/
def execTrel (i : Iss) (a : Reg) (s : State) : Host.Outcome State Fault Refusal :=
  issue i { g := [a] } s fun t s =>
    let m := (s.thread t).g a
    let f := (s.core t.core).tile
    if (maskCodes m).any fun k => decide ((f.target k).owner ≠ some t.thread) then .exc 0x07 0 .scalar
    else if s.tilesQueued t.core m then .block s (.trel m)
    else .done (s.releaseTiles t.core (maskCodes m))

/-- `tempty gd`: the empty flags of the thread's own tiles (R71). -/
def execTempty (i : Iss) (d : Reg) (s : State) : Host.Outcome State Fault Refusal :=
  issue i { wg := [d] } s fun t s =>
    let f := (s.core t.core).tile
    let m := codesMask ((List.range 16).filter fun k =>
      decide ((f.target k).owner = some t.thread) && (f.target k).empty)
    .done (s.modThread t fun th => th.setG d m)

/-- A bank that has been idle for 64 cycles with GATE set loses its power (R164). -/
def execTileBankPowerGate (core : CoreId) (bank : BitVec 5) (s : State) : Host.Outcome State Fault Refusal :=
  .next (
    if s.spireRuns (spireOf core) ∧ s.bankIdle core bank.toNat then
      s.modCore core fun k => { k with tile := { k.tile with gated := k.tile.gated ||| (1#32 <<< bank.toNat) } }
    else s)

/-- A write of `MAT_CTL`: the 64 idle cycles of every bank count from the write that sets GATE (R164, R192). -/
def State.writeMatCtl (s : State) (c : CoreId) (v : Word) : State :=
  let old := s.creg .matCtl c.toNat 0
  let s := s.plainWrite .matCtl c.toNat 0 v
  if ! bit old 1 ∧ bit v 1 then
    s.modCore c fun k =>
      { k with tile := { k.tile with idleFrom := (List.range 32).foldl (fun i b => Store.put i b s.now) k.tile.idleFrom } }
  else s

end Sys2Proof.Machine
end

