-- ==== Sys2Proof/Machine/CtlWrite.lean ====
section
/-! DEFINITION. What a write to a control address does (R11, R13, R118, R209 to R212, R313). -/

namespace Sys2Proof.Machine

open Sys2Proof

/-! ### Registers with a range or a condition of their own -/

/-- A plain write where a field of the value is in its range; other values leave the register. -/
def State.rangeWrite (s : State) (r : CReg) (v : Word) (ok : Bool) : State := if ok then s.plainWrite r 0 0 v else s

/-- A write of `SMR_STAT` clears its W1C bits. -/
def State.writeSmrStat (s : State) (c : CoreId) (v : Word) : State :=
  s.modRouter c fun r =>
    { r with wref := r.wref && ! bit v 16, ovr := r.ovr && ! bit v 17, perr := r.perr && ! bit v 18 }

/-- A write of `CUP_LCFGj` is ignored while the lock is held (R328). -/
def State.writeLcfg (s : State) (sp : Spire) (j : Nat) (v : Word) : State :=
  if (s.lock (sp ++ BitVec.ofNat 8 j)).holder.isSome then s else s.plainWrite .cupLcfg sp.toNat j v

/-- A write of `TICK_STAT` clears its W1C bits; `FAULT_N`'s watchdog source clears with WDT (R368, R516). -/
def State.writeTickStat (s : State) (v : Word) : State :=
  let s := s.plainWrite .tickStat 0 0 v
  if bit v 3 then { s with faultSrc := s.faultSrc &&& ~~~ 4#6 } else s

/-- A write of `SKB_TFI_CTL` or `SKB_TFI_RATE`: ignored while debug access is closed, as is a rate below 16 (R399,
R400). -/
def State.writeTfi (s : State) (r : CReg) (p : Nat) (v : Word) : State :=
  if s.dbgLevel = 0 ∨ (r = .skbTfiRate ∧ v.toNat < 16) then s else s.plainWrite r p 0 v

/-- A write of `COL_INJ_LO`: ignored while debug access is closed (R477). -/
def State.writeInjLo (s : State) (q : Quad) (v : Word) : State :=
  if s.dbgLevel = 0 then s else s.plainWrite .colInjLo q.toNat 0 v

/-- A write of `OCU_CTL`: ignored while debug access is closed (R500). -/
def State.writeOcuCtl (s : State) (v : Word) : State :=
  if s.dbgLevel = 0 then s
  else
    let s := s.plainWrite .ocuCtl 0 0 v
    if bit v 1 then { s with ocuFull := false } else s

/-- A write of `SBD_SLEW`: code 0b11 leaves its field (R517). -/
def State.writeSlew (s : State) (v : Word) : State :=
  s.setCreg .sbdSlew 0 0 (BitVec.ofNat 32 ((List.range 4).foldl (fun a k =>
    let x := fld v (2 * k + 1) (2 * k)
    a + (if x = 3 then fld (s.creg .sbdSlew 0 0) (2 * k + 1) (2 * k) else x) * 2 ^ (2 * k)) 0))

/-- A write of `PWR_TEMP`: TLIM takes 85 to 105 (R459). -/
def State.writePwrTemp (s : State) (v : Word) : State :=
  s.rangeWrite .pwrTemp v (decide (85 ≤ fld v 23 16) && decide (fld v 23 16 ≤ 105))

/-- A write of `KEEP_RST`. -/
def State.writeKeepRst (s : State) (v : Word) : State := if v = 0x5EED then s.resetDevice else s

/-! ### Registers by name -/

/-- The effect of a write that the gate has let through. `p` is the privilege at which it was made. -/
def State.regWritten (s : State) (ag : Agent) (p : Priv) (r : CReg) (u i : Nat) (v : Word) : State :=
  let q : Quad := BitVec.ofNat 2 u
  let sp : Spire := BitVec.ofNat 6 u
  let c : CoreId := BitVec.ofNat 11 u
  let ring : Ring := BitVec.ofNat 8 u
  let mach := decide (p = .machine)
  match r with
  | .bicSrc => s.writeBicSrc q i v
  | .bicEoi => s.writeBicEoi q i v
  | .bicWctr => s.writeBelfryWatch ag q (BitVec.ofNat 9 i) false v
  | .bicWtgt => s.writeBelfryWatch ag q (BitVec.ofNat 9 i) true v
  | .matCtl => s.writeMatCtl c v
  | .drumPp => s.writeDrumPp sp v
  | .pcInv => s.writePcInv sp v
  | .winBaseLo | .winBaseHi | .winLen => s.writeWin r q (BitVec.ofNat 4 i) v
  | .fxbWinvCtl => s.writeWinvCtl q v
  | .smrStat => s.writeSmrStat c v
  | .smrTdlo => s.writeTdlo ag c v
  | .smrTdhi => s.writeTdhi ag c v
  | .smrPready => s.writePready ag c v
  | .smlCtl => s.writeSmlCtl q v
  | .smfSwapctl => s.writeSwapctl v
  | .trtSubLo => s.setCreg .trtSubLo u 0 (v &&& 0xFFFFFFC0#32)
  | .trtSubHi => s.writeTrtSub mach sp v
  | .cupCval => s.writeCval sp (BitVec.ofNat 10 i) v
  | .cupCstat => s.writeCstat sp (BitVec.ofNat 10 i) v
  | .cupLcfg => s.writeLcfg sp i v
  | .cupDctl => s.writeCupDctl sp i v
  | .cupDone => s.writeCupDone ag sp (v.setWidth 6)
  | .cupBreak => s.writeCupBreak sp v
  | .rteCfg => s.writeRteCfg c (BitVec.ofNat 6 i) v
  | .tickCtl => s.writeTickCtl v
  | .tickPeriod => s.writeTickPeriod v
  | .tickMin => s.writeTickMin v
  | .tickMax => s.writeTickMax v
  | .tickStat => s.writeTickStat v
  | .ctWdt => s.writeWdt v
  | .skbCtl => s.writeSkbCtl u v
  | .skbTfiCtl | .skbTfiRate => s.writeTfi r u v
  | .skbDevid | .skbDims | .skbGroup => s.lockWrite r 0 0 v
  | .skbRtctl => s.writeRtctl v
  | .skbCollSubLo => s.setCreg .skbCollSubLo 0 0 (v &&& 0xFFFFFFC0#32)
  | .skbCollSubHi => s.writeCollSub ag v
  | .ringCbaseLo | .ringCbaseHi | .ringQbaseLo | .ringQbaseHi => s.writeRingBase r ring v
  | .ringCfg => s.writeRingCfg ring v
  | .ringDb => s.writeRingDb ring v
  | .ringQhead => s.writeRingQhead ring v
  | .ringStat => s.writeRingStat ring v
  | .pwrCtl => s.writePwrCtl v
  | .pwrTemp => s.writePwrTemp v
  | .pwrWin => s.rangeWrite r v (decide (1 ≤ fld v 9 0) && decide (fld v 9 0 ≤ 1000))
  | .pdmDreq => s.writePdmDreq v
  | .pdmDrain => s.rangeWrite r v (decide (1 ≤ fld v 13 0) && decide (fld v 13 0 ≤ 10000))
  | .pdmRamp => s.rangeWrite r v (decide (2 ≤ fld v 4 0) && decide (fld v 4 0 ≤ 16))
  | .ehWin => s.rangeWrite r v (decide (1 ≤ fld v 13 0) && decide (fld v 13 0 ≤ 10000))
  | .ehPop => s.writePop v
  | .colInjLo => s.writeInjLo q v
  | .colInjHi => s.writeInjHi q v
  | .keepCtl => s.writeKeepCtl v
  | .keepRst => s.writeKeepRst v
  | .keepLcreq => s.writeLcreq v
  | .keepMbctl => s.writeMbctl v
  | .keepMbox => s.writeMbox i v
  | .ocuCtl => s.writeOcuCtl v
  | .ocuHalt => s.writeOcuHalt v
  | .bfcCtl => s.writeBfcCtl q v
  | .sbdSlew => s.writeSlew v
  | _ => s.plainWrite r u i v

/-! ### The Lantern's registers (R118) -/

/-- A write of `LTN_CTL`. -/
def State.writeLtnCtl (s : State) (t : Tid) (v : Word) : State :=
  s.modThread t fun th => th.modLtn fun l => { l with ie := bit v 0, abftf := bit v 1, poisonf := bit v 2 }

/-- A write of `LTN_PRIOk`; in ZN2 compatibility mode bits [5:4] of a field ignore it (R123). -/
def State.writePrio (s : State) (t : Tid) (k : Nat) (v : Word) : State :=
  let legacy := (s.lanternOf t).legacy
  s.modThread t fun th => th.modLtn fun l =>
    { l with prio := (List.range 4).foldl (fun st j =>
        let old := Store.get 63 st (4 * k + j)
        let new : BitVec 6 := v.extractLsb' (8 * j) 6
        Store.set 63 st (4 * k + j) (if legacy then (old &&& 0x30) ||| (new &&& 0x0F) else new)) l.prio }

/-- The effect of a write to a Lantern's register; `mach` tells whether it was made at Machine. -/
def State.lanternWritten (s : State) (mach : Bool) (t : Tid) (off : Nat) (v : Word) : State :=
  if off = 0x000 then s.writeLtnCtl t v
  else if off = 0x008 then s.modThread t fun th => th.modLtn fun l => { l with en := v }
  else if off = 0x00C then s.writeSwset t v
  else if off = 0x010 then s.writePclr t v
  else if off = 0x014 then s.writeEoi t v
  else if off = 0x01C then s.modThread t fun th => th.modLtn fun l => { l with vdt := v.extractLsb' 12 8 }
  else if off = 0x020 then s.modThread t fun th => th.modLtn fun l => { l with vbase := v.extractLsb' 13 19 }
  else if off = 0x024 then s.writeSync mach t v
  else if off = 0x030 then (if bit v 31 then s.resetLockup t else s)
  else if 0x040 ≤ off ∧ off < 0x060 then s.writePrio t ((off - 0x040) / 4) v
  else if 0x060 ≤ off ∧ off < 0x080 then s.writeLtnWatch t (BitVec.ofNat 3 ((off - 0x060) / 4)) v
  else if 0x080 ≤ off ∧ off < 0x0A0 then s.writeLtnWtgt t (BitVec.ofNat 3 ((off - 0x080) / 4)) v
  else s

/-! ### Any address -/

/-- The gate of a write at privilege `p` to a Lantern or to an address that names none (R118, R211). -/
def State.blockGate (s : State) (ag : Agent) (p : Priv) (sp : Option Spire) (mach : Bool) : Gate :=
  let away : Bool := match ag, sp with
    | .belfry b, some x => decide (s.agentPriv ag = .user) && ! s.inPartition (s.bel b).tenant x
    | _, _ => false
  let shut : Bool := match sp with | some x => ! s.domOpen x.toNat | none => false
  if ! s.lanternWay ag then .ignore
  else if away then .ignoreLogged
  else if shut then (if agentIsThread ag then .refuse 0x12 else .ignoreLogged)
  else if mach ∧ p ≠ Priv.machine then (if agentIsThread ag then .refuse 0x02 else .ignore)
  else .ok

/-- Perform a write where a gate lets it through: the state, and the refusal of a posted one (R313). -/
def State.through (s : State) (g : Gate) (ag : Agent) (a : Nat) (f : State → State) : State × Refuse :=
  match g with
  | .ok => (f s, none)
  | .refuse c => (s, some (c, BitVec.ofNat 32 a))
  | .ignore => (s, none)
  | .ignoreLogged => (s.logAccess ag (BitVec.ofNat 64 a), none)

/-- Write a control address at privilege `p`: an address that names no register is ignored and recorded (R211).
[DEDUCED, log 45] -/
def State.writeCtl (s : State) (ag : Agent) (p : Priv) (a : Nat) (v : Word) : State × Refuse :=
  match splLockAt a with
  | some (sp, _) => s.through (s.blockGate ag p (some sp) false) ag a fun s => s
  | none =>
    match lanternAt a with
    | some (t, off) =>
      s.through (s.blockGate ag p (some (spireOf t.core)) (decide (off = 0x030))) ag a fun s =>
        if (s.lanternShown t off).isSome then s.lanternWritten (decide (p = .machine)) t off v
        else s.logAccess ag (BitVec.ofNat 64 a)
    | none =>
      match named a with
      | some (r, u, i) => s.through (s.gate ag p r u) ag a fun s => s.regWritten ag p r u i v
      | none => s.through (s.blockGate ag p (addrSpire a) false) ag a fun s => s.logAccess ag (BitVec.ofNat 64 a)

end Sys2Proof.Machine
end

