-- ==== Sys2Proof/Machine/Control.lean ====
section
/-! DEFINITION. The commands that reach the control space: control reads and writes of threads, of the host's BAR0 and of
JTAG (R11, R12, R81, R209, R211, R313, R406, R492). -/

namespace Sys2Proof.Machine

open Sys2Proof

/-! ### Threads (R81, R313) -/

/-- Whether the target of a control read belongs to a placement that `MIGRATE` has retired (R103). [DEDUCED, log 99] -/
def State.retiredAt (s : State) (a : Nat) : Bool :=
  match lanternAt a with
  | some (t, _) => (s.core t.core).retired.isSome
  | none =>
    match named a with
    | some (r, u, _) =>
      (match r.row.kind with
       | .core => (s.core (BitVec.ofNat 11 u)).retired.isSome
       | .spire => (spireCores (BitVec.ofNat 6 u)).any fun c => (s.core c).retired.isSome
       | _ => false)
    | none => false

/-- The packet of a thread's control read, request or answer, that has reached its router. -/
def State.ctlPacket (s : State) (f : Body → Bool) : Option Packet :=
  s.flight.find? fun p => f p.body && (s.arrived? p.id).isSome

/-- A block answers a control read that has reached it: the value, `DOMAIN_CLOSING` or `STALE_EPOCH` (R79, R103, R447). -/
def State.ctlReadAtBlock (s : State) (p : Packet) : State :=
  match p.body with
  | .ctlRead t tag addr =>
    let s := s.consume p.id
    let a := addr.toNat
    let x : (Word × Refuse) × State :=
      if ! s.addrOpen a then ((0, some (0x12, addr)), s)
      else if s.retiredAt a then ((0, some (0x13, addr)), s)
      else
        let r := s.readCtl (.thread t) a
        ((r.1, none), r.2)
    x.2.send p.dst p.src true true p.tenant (.ctlData t tag x.1.1 x.1.2)
  | _ => s

/-- The answer of a control read has reached its thread: the value is written, or the cause raised at the instruction. -/
def State.ctlrxAnswered (s : State) (p : Packet) : State :=
  match p.body with
  | .ctlData t tag v refuse =>
    let s := s.consume p.id
    match (s.thread t).status with
    | .blocked (.ctlrx d _ k) =>
      if k ≠ tag then s
      else
        match refuse with
        | some (c, a) => s.syncExc t c a (s.thread t).pc .other
        | none => (s.modThread t fun th => th.setG d v).resume t
    | _ => s
  | _ => s

/-- Whether a packet is the answer of a control read of the thread. -/
def ctlDataOf (t : Tid) : Body → Bool
  | .ctlData o _ _ _ => decide (o = t)
  | _ => false

/-- Whether a packet is a control read of the thread, of one address where one is given. -/
def ctlReadOf (t : Tid) (addr : Option Word) : Body → Bool
  | .ctlRead o _ a => decide (o = t) && (match addr with | some x => decide (a = x) | none => true)
  | _ => false

/-- CTLRX_RESPONSE: the answer of the thread's `ctlrx` is taken where it has reached the core, else the block answers a
request that has reached it (R81). [DEDUCED, log 99] -/
def execCtlrxResponse (th : Tid) (s : State) : Host.Outcome State Fault Refusal :=
  .next (
    match s.ctlPacket (ctlDataOf th) with
    | some p => if s.spireRuns (spireOf th.core) then s.ctlrxAnswered p else s
    | none =>
      match s.ctlPacket (ctlReadOf th none) with
      | some p => s.ctlReadAtBlock p
      | none => s)

/-- CONTROL_WRITE_ARRIVAL: the block performs or refuses the write, and acknowledges it; a poisoned value is refused with
ECC_UNCORRECTED (R275). [DESIGN CHOICE, log 29] -/
def execControlWriteArrival (id : Nat) (s : State) : Host.Outcome State Fault Refusal :=
  .next (
    match s.arrived? id with
    | some p =>
      match p.body with
      | .ctlWrite t priv addr v =>
        if p.bad then (s.consume id).send p.dst p.src true false p.tenant (.ack (.thread t) (some (0x05, addr)))
        else
          let x := (s.consume id).writeCtl (.thread t) priv addr.toNat v
          x.1.send p.dst p.src true false p.tenant (.ack (.thread t) x.2)
      | _ => s
    | none => s)

/-! ### Other agents -/

/-- What a read returns goes to the agent that reads: to the host as a completion, to JTAG's data register. -/
def State.deliverRead (s : State) (ag : Agent) (v : Word) : State :=
  match ag with
  | .host _ => s.hostOut (.data (leBytes 4 v.toNat))
  | .jtag =>
    let k : Keep := { s.keep with jtagOut := some v }
    { s with keep := k }
  | _ => s

/-- A control access at an address that is no multiple of 4 reaches no register: a thread or a Belfry core takes
MISALIGNED; the bus of the host and of JTAG makes none (R209). [DESIGN CHOICE, log 15] -/
def State.misalignedCtl (s : State) (ag : Agent) (addr : Word) : State :=
  match ag with
  | .thread t =>
    match (s.thread t).status with
    | .running => s.syncExc t 0x03 addr (s.thread t).pc .other
    | _ => s
  | .belfry b => s.belfryEnter b 0x03 (addr.setWidth 64) 0
  | .host _ | .jtag => s

/-- READ_CLEAR_ACCESS: the register is read, and what the access code clears is cleared (R12). A thread's read is the
request of its `ctlrx`, which has reached the block. [DEDUCED, log 99] -/
def execReadClearAccess (ag : Agent) (addr : BitVec 32) (s : State) : Host.Outcome State Fault Refusal :=
  .next (
    if addr.toNat % 4 ≠ 0 then s.misalignedCtl ag addr
    else
      match ag with
      | .thread t =>
        match s.ctlPacket (ctlReadOf t (some addr)) with
        | some p => s.ctlReadAtBlock p
        | none => s
      | _ =>
        let x := s.readCtl ag addr.toNat
        x.2.deliverRead ag x.1)

/-- REGISTER_WRITE: the register takes the value by its access codes; a thread's refusal is held for it (R11, R313). -/
def execRegisterWrite (ag : Agent) (addr : BitVec 32) (v : Word) (s : State) : Host.Outcome State Fault Refusal :=
  .next (
    if addr.toNat % 4 ≠ 0 then s.misalignedCtl ag addr
    else
      let x := s.writeCtl ag (s.agentPriv ag) addr.toNat v
      match ag with
      | .thread t => x.1.modThread t fun th => th.holdRefusal x.2
      | _ => x.1)

/-- The control address that a BAR0 offset of a function reaches (R405, R406). -/
def bar0Map (fn : BitVec 4) (off : Nat) : Option Nat :=
  if fn ≠ 0 then (if off < 0x1000 then some (0x10000 + 0x1000 * fn.toNat + off) else none)
  else if off < 0x1000000 then some off
  else if off < 0x3000000 then
    some (0x1000000 * ((off - 0x1000000) / 0x800000 + 1) + (off - 0x1000000) % 0x800000)
  else none

/-- BAR0_ACCESS: aligned accesses of 4 bytes alone; above the map a read completes with UR, a write is discarded, and
either is recorded. -/
def execBar0Access (fn : BitVec 4) (off : BitVec 32) (size : Nat) (wr : Option Word) (s : State) :
    Host.Outcome State Fault Refusal :=
  .next (
    let ur (s : State) : State := if wr.isNone then s.hostOut .unsupported else s
    if ! s.domOpen 92 then s
    else if size ≠ 4 ∨ off.toNat % 4 ≠ 0 then ur s
    else
      match bar0Map fn off.toNat with
      | none => ur (s.logBar fn off.toNat)
      | some a =>
        match wr with
        | some v => (s.writeCtl (.host fn) (s.agentPriv (.host fn)) a v).1
        | none =>
          let x := s.readCtl (.host fn) a
          x.2.deliverRead (.host fn) x.1)

/-- Whether debug access lets JTAG reach an address (R492). -/
def State.jtagReaches (s : State) (a : Nat) : Bool :=
  if 0x400000 ≤ a ∧ a < 0x500000 then decide (s.dbgLevel = 2) else decide (s.dbgLevel ≠ 0)

/-- The IDCODE (R492). -/
def idcode : Word :=
  BitVec.ofNat 32 (1 + Config.manufacturer.toNat * 2 + 0x2A04 * 2 ^ 12 + Config.revision.toNat * 2 ^ 28)

/-- JTAG selects an instruction, with the data that its register then holds. -/
def State.jtagSelect (s : State) (j : JtagOp) (out : Option Word) : State :=
  let k : Keep := { s.keep with jtag := j, jtagOut := out }
  { s with keep := k }

/-- JTAG_INSTRUCTION: BYPASS and IDCODE always, boundary scan and the control space with debug access open, the Keep at
FULL; an instruction that is not open selects nothing. -/
def execJtagInstruction (j : JtagOp) (s : State) : Host.Outcome State Fault Refusal :=
  .next (
    if ! s.domOpen 93 then s
    else
      match j with
      | .bypass => s.jtagSelect j none
      | .idcode => s.jtagSelect j (some idcode)
      | .sample => if s.dbgLevel = 0 then s else s.jtagSelect j (some Config.boundary)
      | .extest => if s.dbgLevel = 0 then s else s.jtagSelect j (some Config.boundary)
      | .access addr wr =>
        if addr.toNat % 4 ≠ 0 ∨ ! s.jtagReaches addr.toNat then s
        else
          match wr with
          | some v => ((s.jtagSelect j none).writeCtl .jtag .machine addr.toNat v).1
          | none =>
            let x := s.readCtl .jtag addr.toNat
            (x.2.jtagSelect j (some x.1)))

end Sys2Proof.Machine
end

