-- ==== Sys2Proof/Machine/Ctl.lean ====
section
/-! DEFINITION. The control-register instructions (R41 to R44, R80, R81). -/

namespace Sys2Proof.Machine

open Sys2Proof

/-- The privilege check of a control-register access: the path 0x400 needs Supervisor whatever the register
(R42, R80). -/
def ctlAllowed (p : Priv) (path : Bool) (need : Priv) : Bool :=
  p.atLeast need && (! path || p.atLeast .supervisor)

/-- `ctlr g, #n` of a compute thread (R80). -/
def readCtlReg (i : Iss) (g : Reg) (num : BitVec 12) (s : State) : Host.Outcome State Fault Refusal :=
  issue i { wg := [g] } s fun t s =>
    let x := tregTarget t num
    if ! tregAssigned t num then .exc 0x01 0 .scalar
    else
      match tregPriv x.2.1 with
      | some (need, _) =>
        if ctlAllowed (s.thread t).priv x.2.2 need then
          let r := s.readTreg x.1 t x.2.1
          .done (r.2.modThread t fun th => th.setG g r.1)
        else .exc 0x02 0 .scalar
      | none => .exc 0x01 0 .scalar

/-- A write of a control register by a compute thread: `new` computes the value written from the register and g. A
register without a Write column takes no write at any privilege (R80). -/
def ctlWrite (i : Iss) (g : Reg) (num : BitVec 12) (new : Bool → Word → Word → Word) (s : State) :
    Host.Outcome State Fault Refusal :=
  issue i { g := [g] } s fun t s =>
    let x := tregTarget t num
    if ! tregAssigned t num then .exc 0x01 0 .scalar
    else
      match tregPriv x.2.1 with
      | some (_, some need) =>
        if ctlAllowed (s.thread t).priv x.2.2 need then
          .done (s.writeTreg x.1 x.2.1 (new (decide (x.2.1 = 0x002)) (s.rmwTreg x.1 t x.2.1) ((s.thread t).g g)))
        else .exc 0x02 0 .scalar
      | some (need, none) => if ctlAllowed (s.thread t).priv x.2.2 need then .done s else .exc 0x02 0 .scalar
      | none => .exc 0x01 0 .scalar

/-- `ctlr g, #n` (R80, R121). -/
def execCtlr (who : By) (g : Reg) (num : BitVec 12) (s : State) : Host.Outcome State Fault Refusal :=
  match who with
  | .compute i => readCtlReg i g num s
  | .belfry b => s.belfryReadReg b g num.toNat

/-- `ctlw g, #n` (R80, R121). -/
def execCtlw (who : By) (g : Reg) (num : BitVec 12) (s : State) : Host.Outcome State Fault Refusal :=
  match who with
  | .compute i => ctlWrite i g num (fun _ _ v => v) s
  | .belfry b => s.belfryWriteReg b g num.toNat fun _ v => v

/-- `ctls g, #n` (R80, R121). -/
def execCtls (who : By) (g : Reg) (num : BitVec 12) (s : State) : Host.Outcome State Fault Refusal :=
  match who with
  | .compute i => ctlWrite i g num (fun _ old v => old ||| v) s
  | .belfry b => s.belfryWriteReg b g num.toNat fun old v => old ||| v

/-- `ctlc g, #n`: a W1C field takes the value as a write of it (R80, R121). -/
def execCtlc (who : By) (g : Reg) (num : BitVec 12) (s : State) : Host.Outcome State Fault Refusal :=
  match who with
  | .compute i => ctlWrite i g num (fun w1c old v => if w1c then v else old &&& ~~~ v) s
  | .belfry b => s.belfryWriteReg b g num.toNat fun old v => old &&& ~~~ v

/-- The checks that `ctlrx` and `ctlwx` share: the cause that the instruction raises (R81, R209). -/
def State.ctlxCause (s : State) (t : Tid) (addr : Word) (low : BitVec 7) : Option (BitVec 8 × Word) :=
  if low ≠ 0 then some (0x01, 0)
  else if (s.thread t).priv = .user then some (0x02, 0)
  else if fld addr 1 0 ≠ 0 then some (0x03, addr)
  else none

/-- `ctlrx g, ga`: its request enters the mesh, and the thread blocks until the value returns (R81). -/
def execCtlrx (i : Iss) (g a : Reg) (low : BitVec 7) (s : State) : Host.Outcome State Fault Refusal :=
  issue i { g := [a], wg := [g] } s fun t s =>
    let addr := (s.thread t).g a
    match s.ctlxCause t addr low with
    | some (c, d) => .exc c d .scalar
    | none =>
      let r := s.newId
      .block (r.2.send t.core (addrRouter addr.toNat) false false (s.thread t).tenant (.ctlRead t r.1 addr))
        (.ctlrx g addr r.1)

/-- Whether the core holds a control write until the thread's own work is done: `CUP_DONE`, and `SMR_PREADY` of the
core's own router (R247, R324). -/
def heldWrite (t : Tid) (addr : Word) : Bool :=
  match locate addr.toNat with
  | some (.cupDone, _, _) => true
  | some (.smrPready, u, _) => decide (u = t.core.toNat)
  | _ => false

/-- `ctlwx g, ga`: posted (R81). -/
def execCtlwx (i : Iss) (g a : Reg) (low : BitVec 7) (s : State) : Host.Outcome State Fault Refusal :=
  issue i { g := [g, a] } s fun t s =>
    let addr := (s.thread t).g a
    let v := (s.thread t).g g
    match s.ctlxCause t addr low with
    | some (c, d) => .exc c d .scalar
    | none =>
      if heldWrite t addr ∧ ! s.heldReady t addr then .block s (.cupDone addr v)
      else .done (s.postCtl t addr v)

end Sys2Proof.Machine
end

