-- ==== Sys2Proof/Machine/LoadStore.lean ====
section
/-! DEFINITION. Scalar and vector loads and stores of Local, and the arrival of a load's data (R49, R53 to R55, R64). -/

namespace Sys2Proof.Machine

open Sys2Proof

/-- The common part of a scalar access: the pair rule, alignment, range, poison and range tracking, then the effect at
the address (R40, R49, R214, R228). -/
def scalarAccess (s : State) (t : Tid) (d base : Reg) (size : BitVec 2) (off : BitVec 10) (writes : Bool)
    (go : Nat → Eff) : Eff :=
  let th := s.thread t
  let n := sizeBytes size
  let a := (effAddr (th.g base) off n).toNat
  if size = 3 ∧ ! evenReg d then .exc 0x01 0 .scalar
  else
    match s.localGate t a n n (! writes) writes with
    | .exc c => .exc c (BitVec.ofNat 32 a) .scalar
    | .wait => .stall (s.rtWait t)
    | .go => go a

/-- The words that a scalar load of `n` bytes writes: one register, sign- or zero-extended, or a pair (R49). -/
def loadWrites (m : Mem) (d : Reg) (a n : Nat) (signed : Bool) : List (Reg × Word) :=
  let x := m.readNat a n
  if n = 8 then [(d, BitVec.ofNat 32 x), (d + 1, BitVec.ofNat 32 (x / 2 ^ 32))]
  else if signed then [(d, BitVec.signExtend 32 (BitVec.ofNat (8 * n) x))]
  else [(d, BitVec.ofNat 32 x)]

/-- A load: the value is read now and lands after the second following instruction (R53, R54). -/
def loadOp (i : Iss) (d base : Reg) (size : BitVec 2) (off : BitVec 10) (signed : Bool) (s : State) :
    Host.Outcome State Fault Refusal :=
  issue i { g := [base], wg := if size = 3 then [d, d + 1] else [d] } s fun t s =>
    scalarAccess s t d base size off false fun a =>
      let l : Load := { shadow := (s.thread t).inShadow, g := loadWrites (s.core t.core).mem d a (sizeBytes size) signed,
                        v := none, left := 3, arrived := false }
      .done (s.modThread t fun th => { th with loads := th.loads ++ [l] })

/-- `ld`: sign-extending load (R48, R53). -/
def execLd (i : Iss) (d base : Reg) (size : BitVec 2) (off : BitVec 10) (s : State) :
    Host.Outcome State Fault Refusal := loadOp i d base size off true s

/-- `ldu`: zero-extending load (R48, R53). -/
def execLdu (i : Iss) (d base : Reg) (size : BitVec 2) (off : BitVec 10) (s : State) :
    Host.Outcome State Fault Refusal := loadOp i d base size off false s

/-- `st`: store the low bytes of d, or the pair (R49). -/
def execSt (i : Iss) (d base : Reg) (size : BitVec 2) (off : BitVec 10) (s : State) :
    Host.Outcome State Fault Refusal :=
  issue i { g := if size = 3 then [d, d + 1, base] else [d, base] } s fun t s =>
    scalarAccess s t d base size off true fun a =>
      let th := s.thread t
      let x := if size = 3 then (th.pair d).toNat else (th.g d).toNat
      .done (s.modCore t.core fun k => { k with mem := k.mem.storeNat a (sizeBytes size) x })

/-- The data of load `n` in flight of a thread (0 is the oldest) reaches the core (R54, R55). A load whose thread has
no such load in flight changes nothing; a `fence.l` that waited for it ends (R73). -/
def execLoadDataArrival (th : Tid) (n : Nat) (s : State) : Host.Outcome State Fault Refusal :=
  .next ((s.modThread th fun r =>
    { r with loads := (r.loads.zipIdx).map fun p => if p.2 = n then { p.1 with arrived := true } else p.1 }).poll th)

/-- The common part of a vector access: 64 bytes, or 8 for `vldb` (R64). -/
def vectorAccess (s : State) (t : Tid) (base : Reg) (off : BitVec 10) (n : Nat) (writes : Bool) (go : Nat → Eff) :
    Eff :=
  let a := (effAddr ((s.thread t).g base) off 64).toNat
  match s.localGate t a n n (! writes) writes with
  | .exc c => .exc c (BitVec.ofNat 32 a) .vector
  | .wait => .stall (s.rtWait t)
  | .go => go a

/-- A vector load: the value lands after the third following instruction (R55). -/
def vloadOp (i : Iss) (d base : Reg) (off : BitVec 10) (n : Nat) (value : Nat → VReg) (s : State) :
    Host.Outcome State Fault Refusal :=
  issue i { g := [base] } s fun t s =>
    vectorAccess s t base off n false fun a =>
      let l : Load := { shadow := (s.thread t).inShadow, g := [],
                        v := some (d, value ((s.core t.core).mem.readNat a n)), left := 4, arrived := false }
      .done (s.modThread t fun th => { th with loads := th.loads ++ [l] })

/-- `vld`: load 64 bytes (R64). -/
def execVld (i : Iss) (d base : Reg) (off : BitVec 10) (s : State) : Host.Outcome State Fault Refusal :=
  vloadOp i d base off 64 (BitVec.ofNat 512) s

/-- `vldb`: load one 64-bit word into every 64-bit lane (R64). -/
def execVldb (i : Iss) (d base : Reg) (off : BitVec 10) (s : State) : Host.Outcome State Fault Refusal :=
  vloadOp i d base off 8 (fun x => (BitVec.ofNat 64 x).replicate 8) s

/-- `vst`: store 64 bytes (R64). -/
def execVst (i : Iss) (d base : Reg) (off : BitVec 10) (s : State) : Host.Outcome State Fault Refusal :=
  issue i { g := [base], v := [d] } s fun t s =>
    vectorAccess s t base off 64 true fun a =>
      .done (s.modCore t.core fun k => { k with mem := k.mem.storeNat a 64 ((s.thread t).v d).toNat })

end Sys2Proof.Machine
end

