-- ==== Sys2Proof/Machine/Matrix.lean ====
section
/-! DEFINITION. The issue of the matrix and matrix-vector instructions (R169 to R191): what each checks at issue and what
it places in its queue, and the events of the unit queues. -/

namespace Sys2Proof.Machine

open Sys2Proof

/-- Whether the thread owns a tile or accumulator by its 5-bit code (R72). -/
def State.ownsTile (s : State) (t : Tid) (code : Nat) : Bool :=
  decide (((s.core t.core).tile.target code).owner = some t.thread)

/-- The checks of a copy's Local side (R172): alignment, range, then ownership. -/
def copyCheck (s : State) (t : Tid) (al base stride rows len : Nat) (tiles : List Nat) : Option (BitVec 8 × Word) :=
  if base % al ≠ 0 ∨ stride % al ≠ 0 then some (0x03, BitVec.ofNat 32 base)
  else if 0xC0000 < base + (rows - 1) * stride + len then some (0x04, BitVec.ofNat 32 base)
  else if tiles.all (s.ownsTile t) then none
  else some (0x07, 0)

/-- The stride operand: g31 means rows packed at the row size (R169). -/
def strideOf (th : Thread) (r : Reg) (row : Nat) : Word := if r = 31 then BitVec.ofNat 32 row else th.g r

/-- Enqueue, or raise the cause that a check found. -/
def State.enqueueIf (s : State) (t : Tid) (c : Option (BitVec 8 × Word)) (unit : UnitCode) (u : UnitIns) : Eff :=
  match c with
  | some (k, d) => .exc k d unit
  | none => s.enqueue t u

/-- `mload`: 32 rows from Local into a tile or accumulator (R173). -/
def execMload (i : Iss) (target : BitVec 5) (base stride : Reg) (tr : Bool) (low : BitVec 6) (s : State) :
    Host.Outcome State Fault Refusal :=
  issue i { g := [base, stride] } s fun t s =>
    let th := s.thread t
    let row := if target.toNat < 16 then 64 else 128
    let b := th.g base
    let st := strideOf th stride row
    if 24 ≤ target.toNat ∨ low ≠ 0 ∨ (tr ∧ 16 ≤ target.toNat) then .exc 0x01 0 .matrix
    else s.enqueueIf t (copyCheck s t 64 b.toNat st.toNat 32 row [target.toNat]) .matrix (.mload target b st tr)

/-- Whether the conversion word of an `mstore` fits its source (R137, R138, R174). -/
def mstoreLegal (source : BitVec 5) (x : Word) : Bool :=
  let src := fld x 7 4
  let n := source.toNat
  (cfmt (fld x 3 0)).isSome && ! bit x 9 && decide (fld x 31 22 = 0) &&
  (if n < 16 then decide (src = 2) || decide (src = 3)
   else decide (src = 1) || decide (src = 4) || decide (src = 0) || (decide (src = 7) && decide (n % 2 = 0)))

/-- `mstore`: a tile or accumulator into Local, with conversion where CONV says so (R174). -/
def execMstore (i : Iss) (source : BitVec 5) (base stride gc : Reg) (conv low : Bool) (s : State) :
    Host.Outcome State Fault Refusal :=
  issue i { g := if conv then [base, stride, gc] else [base, stride] } s fun t s =>
    let th := s.thread t
    let x := if conv then th.g gc else 0
    let b := th.g base
    if 24 ≤ source.toNat ∨ low ∨ (conv ∧ ! mstoreLegal source x) then .exc 0x01 0 .matrix
    else
      let row := mstoreRow source x conv
      let st := strideOf th stride row
      let names := (UnitIns.mstore source b st x conv).readsT 0
      s.enqueueIf t (copyCheck s t (if conv then 8 else 64) b.toNat st.toNat (mstoreRows x conv) row names) .matrix
        (.mstore source b st x conv)

/-- `mzero`: every element of a tile or accumulator becomes zero (R175). -/
def execMzero (i : Iss) (target : BitVec 5) (low : BitVec 17) (s : State) : Host.Outcome State Fault Refusal :=
  issue i {} s fun t s =>
    if 24 ≤ target.toNat ∨ low ≠ 0 then .exc 0x01 0 .matrix
    else if ! s.ownsTile t target.toNat then .exc 0x07 0 .matrix
    else s.enqueue t (.mzero target)

/-- Whether an `mma`'s fields are ones that it executes (R169, R170, R176 to R178). -/
def mmaLegal (mpass : BitVec 2) (acc : BitVec 3) (w a fmt : BitVec 4) (pair mx : Bool) (aux : BitVec 4) : Bool :=
  let f := fmt.toNat
  decide (f ≤ 11) && (! mx || (2 ≤ f && f ≤ 9)) && (! pair || (f ≤ 8 && decide (acc.toNat % 2 = 0))) &&
  (if mx then true else if f = 11 then decide (aux.toNat < 2) else decide (aux = 0)) &&
  (f ≠ 11 || decide (w.toNat % 4 = 0)) &&
  (f ≠ 0 || mpass.toNat ≤ 1 || decide (a.toNat % 2 = 0)) && (f ≠ 0 || mpass ≠ 3 || decide (w.toNat % 2 = 0))

/-- Every tile and accumulator that an instruction names, whether it reads or writes it. -/
def UnitIns.allT (u : UnitIns) (mpass : BitVec 2) : List Nat := u.readsT mpass ++ u.writesT

/-- `mma`: C ← C + A·Wᵀ pass by pass (R176 to R181). -/
def execMma (i : Iss) (acc : BitVec 3) (w a fmt : BitVec 4) (pair accz mx : Bool) (aux : BitVec 4) (s : State) :
    Host.Outcome State Fault Refusal :=
  issue i {} s fun t s =>
    let mp := (s.thread t).ctl.mpass
    let u : UnitIns := .mma acc w a fmt pair accz mx aux
    if ! mmaLegal mp acc w a fmt pair mx aux then .exc 0x01 0 .matrix
    else if ! (u.allT mp).all (s.ownsTile t) then .exc 0x07 0 .matrix
    else s.enqueue t u

/-- Whether an `mmas`'s fields are ones that it executes (R170, R178, R182). -/
def mmasLegal (mpass : BitVec 2) (acc : BitVec 3) (w a fmt : BitVec 4) (pair ratio : Bool) (md : BitVec 4) : Bool :=
  let f := fmt.toNat
  let n := if ratio then 4 else 2
  (f ≤ 5 || f = 9) && (! pair || (f ≤ 5 && decide (acc.toNat % 2 = 0))) && decide (a.toNat % n = 0) &&
  (f ≠ 0 || mpass.toNat ≤ 1) && md ≠ w && ! (a.toNat ≤ md.toNat && md.toNat < a.toNat + n)

/-- `mmas`: the product with a structurally sparse W (R182 to R184). -/
def execMmas (i : Iss) (acc : BitVec 3) (w a fmt : BitVec 4) (pair accz ratio : Bool) (md : BitVec 4) (s : State) :
    Host.Outcome State Fault Refusal :=
  issue i {} s fun t s =>
    let mp := (s.thread t).ctl.mpass
    let u : UnitIns := .mmas acc w a fmt pair accz ratio md
    if ! mmasLegal mp acc w a fmt pair ratio md then .exc 0x01 0 .matrix
    else if ! (u.allT mp).all (s.ownsTile t) then .exc 0x07 0 .matrix
    else s.enqueue t u

/-- `mchk`: compare an accumulator with its checksums under a tolerance word (R186 to R188). -/
def execMchk (i : Iss) (d : Reg) (acc : BitVec 3) (p : Bool) (tol : Reg) (low : BitVec 8) (s : State) :
    Host.Outcome State Fault Refusal :=
  issue i { g := [tol], wg := [d] } s fun t s =>
    let x := (s.thread t).g tol
    let u : UnitIns := .mchk d acc p x
    if low ≠ 0 ∨ fld x 31 16 ≠ 0 ∨ (p ∧ acc.toNat % 2 ≠ 0) then .exc 0x01 0 .matrix
    else if ! (u.allT 0).all (s.ownsTile t) then .exc 0x07 0 .matrix
    else s.enqueue t u

/-- Whether an `mvm`'s operands are ones that it executes (R170, R189). [DEDUCED, log 35] -/
def mvmLegal (a : Reg) (x : BitVec 4) (base : DWord) (rows : Word) (fmt : BitVec 4) : Bool :=
  let f := fmt.toNat
  let w := mvmWidth fmt
  let n := fld base 47 32
  let xo := fld rows 31 20
  let y := fld rows 9 0 + fld rows 19 10
  (f ≤ 5 || f = 9 || f = 11) && evenReg a && decide (1 ≤ n) &&
  decide ((xo + n) * w ≤ 8192) && decide (2048 * x.toNat + (xo + n) * w ≤ 2048 * 16) &&
  decide (y < (if f = 11 then 512 else 1024)) && decide (n * w ≤ fld base 63 48)

/-- `mvm`: rows of M in Local times x in the tile file (R189 to R191). [DEDUCED, log 35] -/
def execMvm (i : Iss) (acc : BitVec 3) (x : BitVec 4) (a b : Reg) (fmt : BitVec 4) (accz : Bool) (s : State) :
    Host.Outcome State Fault Refusal :=
  issue i { g := [a, a + 1, b] } s fun t s =>
    let th := s.thread t
    let base := th.pair a
    let rows := th.g b
    let u : UnitIns := .mvm acc x base rows fmt accz
    let lo := fld base 19 0
    let st := fld base 63 48
    if ! mvmLegal a x base rows fmt then .exc 0x01 0 .mv
    else
      s.enqueueIf t (copyCheck s t 8 lo st (fld rows 19 10 + 1) (fld base 47 32 * mvmWidth fmt) (u.allT 0)) .mv u

end Sys2Proof.Machine
end

