-- ==== Sys2Proof/Machine/Scalar.lean ====
section
/-! DEFINITION. The scalar ALU, immediate, compare and predicate instructions (R47, R48, R52, R65). -/

namespace Sys2Proof.Machine

open Sys2Proof

/-- `add`: d = a + b (R65). -/
def execAdd (i : Iss) (f : Bool) (d a b : Reg) (s : State) : Host.Outcome State Fault Refusal :=
  aluOp i f d a b .writes (fun _ x y => addRes x y false) s

/-- `sub`: d = a − b (R65). -/
def execSub (i : Iss) (f : Bool) (d a b : Reg) (s : State) : Host.Outcome State Fault Refusal :=
  aluOp i f d a b .writes (fun _ x y => subRes x y true) s

/-- `adc`: d = a + b + C (R65). -/
def execAdc (i : Iss) (f : Bool) (d a b : Reg) (s : State) : Host.Outcome State Fault Refusal :=
  aluOp i f d a b .writes (fun k x y => addRes x y k.c) s

/-- `sbc`: d = a − b − (1 − C) (R65). -/
def execSbc (i : Iss) (f : Bool) (d a b : Reg) (s : State) : Host.Outcome State Fault Refusal :=
  aluOp i f d a b .writes (fun k x y => subRes x y k.c) s

/-- `and`: bitwise and (R65). -/
def execAnd (i : Iss) (f : Bool) (d a b : Reg) (s : State) : Host.Outcome State Fault Refusal :=
  aluOp i f d a b .writes (fun _ x y => logicRes (x &&& y)) s

/-- `or`: bitwise or (R65). -/
def execOr (i : Iss) (f : Bool) (d a b : Reg) (s : State) : Host.Outcome State Fault Refusal :=
  aluOp i f d a b .writes (fun _ x y => logicRes (x ||| y)) s

/-- `xor`: bitwise exclusive or (R65). -/
def execXor (i : Iss) (f : Bool) (d a b : Reg) (s : State) : Host.Outcome State Fault Refusal :=
  aluOp i f d a b .writes (fun _ x y => logicRes (x ^^^ y)) s

/-- `andn`: a and not b (R65). -/
def execAndn (i : Iss) (f : Bool) (d a b : Reg) (s : State) : Host.Outcome State Fault Refusal :=
  aluOp i f d a b .writes (fun _ x y => logicRes (x &&& ~~~ y)) s

/-- `shl`: shift left by b[4:0] (R52, R65). -/
def execShl (i : Iss) (f : Bool) (d a b : Reg) (s : State) : Host.Outcome State Fault Refusal :=
  aluOp i f d a b .writes (fun _ x y => shlRes x (fld y 4 0)) s

/-- `shr`: logical shift right by b[4:0] (R52, R65). -/
def execShr (i : Iss) (f : Bool) (d a b : Reg) (s : State) : Host.Outcome State Fault Refusal :=
  aluOp i f d a b .writes (fun _ x y => shrRes x (fld y 4 0)) s

/-- `sar`: arithmetic shift right by b[4:0] (R52, R65). -/
def execSar (i : Iss) (f : Bool) (d a b : Reg) (s : State) : Host.Outcome State Fault Refusal :=
  aluOp i f d a b .writes (fun _ x y => sarRes x (fld y 4 0)) s

/-- `rol`: rotate left by b[4:0] (R52, R65). -/
def execRol (i : Iss) (f : Bool) (d a b : Reg) (s : State) : Host.Outcome State Fault Refusal :=
  aluOp i f d a b .writes (fun _ x y => rolRes x (fld y 4 0)) s

/-- `mul`: low word of the product (R52, R65). -/
def execMul (i : Iss) (f : Bool) (d a b : Reg) (s : State) : Host.Outcome State Fault Refusal :=
  aluOp i f d a b .writes (fun _ x y => logicRes (x * y)) s

/-- `mulhs`: high word of the signed product; no flag is written (R52, R65). -/
def execMulhs (i : Iss) (f : Bool) (d a b : Reg) (s : State) : Host.Outcome State Fault Refusal :=
  aluOp i f d a b .keeps (fun _ x y => logicRes (mulhsVal x y)) s

/-- `mulhu`: high word of the unsigned product; no flag is written (R52, R65). -/
def execMulhu (i : Iss) (f : Bool) (d a b : Reg) (s : State) : Host.Outcome State Fault Refusal :=
  aluOp i f d a b .keeps (fun _ x y => logicRes (mulhuVal x y)) s

/-- `div`: signed quotient rounded toward zero (R52). -/
def execDiv (i : Iss) (f : Bool) (d a b : Reg) (s : State) : Host.Outcome State Fault Refusal :=
  aluOp i f d a b .writes (fun _ x y => divRes x y) s

/-- `divu`: unsigned quotient (R52). -/
def execDivu (i : Iss) (f : Bool) (d a b : Reg) (s : State) : Host.Outcome State Fault Refusal :=
  aluOp i f d a b .writes (fun _ x y => divuRes x y) s

/-- `rem`: signed remainder (R52). -/
def execRem (i : Iss) (f : Bool) (d a b : Reg) (s : State) : Host.Outcome State Fault Refusal :=
  aluOp i f d a b .writes (fun _ x y => remRes x y) s

/-- `remu`: unsigned remainder (R52). -/
def execRemu (i : Iss) (f : Bool) (d a b : Reg) (s : State) : Host.Outcome State Fault Refusal :=
  aluOp i f d a b .writes (fun _ x y => remuRes x y) s

/-- `min`: signed minimum; no flag is written (R52, R65). -/
def execMin (i : Iss) (f : Bool) (d a b : Reg) (s : State) : Host.Outcome State Fault Refusal :=
  aluOp i f d a b .keeps (fun _ x y => logicRes (if x.slt y then x else y)) s

/-- `max`: signed maximum; no flag is written (R52, R65). -/
def execMax (i : Iss) (f : Bool) (d a b : Reg) (s : State) : Host.Outcome State Fault Refusal :=
  aluOp i f d a b .keeps (fun _ x y => logicRes (if x.slt y then y else x)) s

/-- `minu`: unsigned minimum; no flag is written (R52, R65). -/
def execMinu (i : Iss) (f : Bool) (d a b : Reg) (s : State) : Host.Outcome State Fault Refusal :=
  aluOp i f d a b .keeps (fun _ x y => logicRes (if x < y then x else y)) s

/-- `maxu`: unsigned maximum; no flag is written (R52, R65). -/
def execMaxu (i : Iss) (f : Bool) (d a b : Reg) (s : State) : Host.Outcome State Fault Refusal :=
  aluOp i f d a b .keeps (fun _ x y => logicRes (if x < y then y else x)) s

/-- `clz`: leading zeros of a; no flag is written (R52, R65). -/
def execClz (i : Iss) (f : Bool) (d a : Reg) (s : State) : Host.Outcome State Fault Refusal :=
  aluOp i f d a 31 .keeps (fun _ x _ => logicRes (clzVal x)) s

/-- `popc`: set bits of a; no flag is written (R52, R65). -/
def execPopc (i : Iss) (f : Bool) (d a : Reg) (s : State) : Host.Outcome State Fault Refusal :=
  aluOp i f d a 31 .keeps (fun _ x _ => logicRes (popcVal x)) s

/-- `sextb`: sign-extend a byte; no flag is written (R52, R65). -/
def execSextb (i : Iss) (f : Bool) (d a : Reg) (s : State) : Host.Outcome State Fault Refusal :=
  aluOp i f d a 31 .keeps (fun _ x _ => logicRes ((x.setWidth 8).signExtend 32)) s

/-- `sexth`: sign-extend a half-word; no flag is written (R52, R65). -/
def execSexth (i : Iss) (f : Bool) (d a : Reg) (s : State) : Host.Outcome State Fault Refusal :=
  aluOp i f d a 31 .keeps (fun _ x _ => logicRes ((x.setWidth 16).signExtend 32)) s

/-- `mov`: d = a; no flag is written (R52, R65). -/
def execMov (i : Iss) (f : Bool) (d a : Reg) (s : State) : Host.Outcome State Fault Refusal :=
  aluOp i f d a 31 .keeps (fun _ x _ => logicRes (x)) s

/-- `addi`: a plus the sign-extended immediate (R47). -/
def execAddi (i : Iss) (d a : Reg) (imm : BitVec 12) (s : State) : Host.Outcome State Fault Refusal :=
  immOp i d a (fun x => x + immS imm) s

/-- `andi`: a and the zero-extended immediate (R47). -/
def execAndi (i : Iss) (d a : Reg) (imm : BitVec 12) (s : State) : Host.Outcome State Fault Refusal :=
  immOp i d a (fun x => x &&& immZ imm) s

/-- `ori`: a or the zero-extended immediate (R47). -/
def execOri (i : Iss) (d a : Reg) (imm : BitVec 12) (s : State) : Host.Outcome State Fault Refusal :=
  immOp i d a (fun x => x ||| immZ imm) s

/-- `xori`: a exclusive or the zero-extended immediate (R47). -/
def execXori (i : Iss) (d a : Reg) (imm : BitVec 12) (s : State) : Host.Outcome State Fault Refusal :=
  immOp i d a (fun x => x ^^^ immZ imm) s

/-- `shli`: shift left by the amount (R48). The class has no F bit, so no flag is written. [DEDUCED, log 16] -/
def execShli (i : Iss) (d a : Reg) (amt : BitVec 5) (s : State) : Host.Outcome State Fault Refusal :=
  immOp i d a (fun x => x <<< amt.toNat) s

/-- `shri`: logical shift right by the amount (R48). No flag is written. [DEDUCED, log 16] -/
def execShri (i : Iss) (d a : Reg) (amt : BitVec 5) (s : State) : Host.Outcome State Fault Refusal :=
  immOp i d a (fun x => x >>> amt.toNat) s

/-- `sari`: arithmetic shift right by the amount (R48). No flag is written. [DEDUCED, log 16] -/
def execSari (i : Iss) (d a : Reg) (amt : BitVec 5) (s : State) : Host.Outcome State Fault Refusal :=
  immOp i d a (fun x => x.sshiftRight amt.toNat) s

/-- `roli`: rotate left by the amount (R48). No flag is written. [DEDUCED, log 16] -/
def execRoli (i : Iss) (d a : Reg) (amt : BitVec 5) (s : State) : Host.Outcome State Fault Refusal :=
  immOp i d a (fun x => x.rotateLeft amt.toNat) s

/-- `cmpi`: flags from a minus the sign-extended immediate (R47, R52). -/
def execCmpi (i : Iss) (a : Reg) (imm : BitVec 12) (s : State) : Host.Outcome State Fault Refusal :=
  flagOp i [a] (fun k => subRes (k.reg a) (immS imm) true) s

/-- `movl`: d takes the zero-extended immediate (R47). -/
def execMovl (i : Iss) (d : Reg) (imm : BitVec 16) (s : State) : Host.Outcome State Fault Refusal :=
  immOp i d 31 (fun _ => imm.setWidth 32) s

/-- `movh`: d[31:16] takes the immediate, d[15:0] is kept (R47). -/
def execMovh (i : Iss) (d : Reg) (imm : BitVec 16) (s : State) : Host.Outcome State Fault Refusal :=
  immOp i d d (fun x => imm ++ x.setWidth 16) s

/-- `cmp`: flags from a − b (R52). -/
def execCmp (i : Iss) (a b : Reg) (s : State) : Host.Outcome State Fault Refusal :=
  flagOp i [a, b] (fun k => subRes (k.reg a) (k.reg b) true) s

/-- `tst`: flags from a and b (R52). -/
def execTst (i : Iss) (a b : Reg) (s : State) : Host.Outcome State Fault Refusal :=
  flagOp i [a, b] (fun k => logicRes (k.reg a &&& k.reg b)) s

/-- `pcmp`: the condition judged on the flags that a − b would produce goes to p[d[0]]; N, Z, C and V stay (R52). -/
def execPcmp (i : Iss) (cnd : BitVec 4) (d a b : Reg) (s : State) : Host.Outcome State Fault Refusal :=
  issue i { g := [a, b] } s fun t s =>
    .done (s.modThread t fun th =>
      let k := th.bank
      th.setBank (k.setP d (condHolds (k.setFlags (subRes (k.reg a) (k.reg b) true)) cnd)))

/-- `pset`: p[d[0]] = (a ≠ 0) (R65). -/
def execPset (i : Iss) (d a : Reg) (s : State) : Host.Outcome State Fault Refusal :=
  issue i { g := [a] } s fun t s =>
    .done (s.modThread t fun th => th.setBank (th.bank.setP d (decide (th.g a ≠ 0))))

/-- `pnot`: inverts p[d[0]] (R65). -/
def execPnot (i : Iss) (d : Reg) (s : State) : Host.Outcome State Fault Refusal :=
  issue i {} s fun t s => .done (s.modThread t fun th => th.setBank (th.bank.setP d (! th.bank.getP d)))

/-- `pmov`: d = p0 + 2·p1 (R65). -/
def execPmov (i : Iss) (d : Reg) (s : State) : Host.Outcome State Fault Refusal :=
  issue i { wg := [d] } s fun t s =>
    .done (s.modThread t fun th => th.setG d (BitVec.ofNat 32 (b2n th.bank.p0 + 2 * b2n th.bank.p1)))

end Sys2Proof.Machine
end

