-- ==== Sys2Proof/Machine/Units.lean ====
section
/-! DEFINITION. What the vector, matrix and matrix-vector units do with their queues (R38, R110, R171). -/

namespace Sys2Proof.Machine

open Sys2Proof

/-- The next instruction of a unit's queue dispatches, where its interlocks allow it (R38, R171, R179, R180). -/
def execUnitQueueDispatch (core : CoreId) (u : UnitQ) (s : State) : Host.Outcome State Fault Refusal :=
  .next (if s.spireRuns (spireOf core) then s.dispatch core u else s)

/-- Whether entry `k` of a queue may complete: it is dispatched, and no instruction before it that the same engine
executes is still there. -/
def mayComplete (q : List UnitOp) (k : Nat) : Option UnitOp :=
  match q[k]? with
  | some u =>
    if u.dispatched && ! ((q.take k).any fun v => decide (v.ins.engine = u.ins.engine)) then some u else none
  | none => none

/-- A dispatched instruction, the `k`-th of its queue, completes: its results, flags and counts are written, or it
raises its cause (R38, R110, R153, R171); then whatever waited for it goes on. -/
def execUnitInstructionComplete (core : CoreId) (u : UnitQ) (k : Nat) (s : State) : Host.Outcome State Fault Refusal :=
  .next (
    if ! s.spireRuns (spireOf core) then s
    else
      match mayComplete ((s.core core).unitQueue u) k with
      | some op => (s.completeUnit { core := core, thread := op.thread } op).pollCore core
      | none => s)

end Sys2Proof.Machine
end

