-- ==== Sys2Proof/Machine/Vector.lean ====
section
/-! DEFINITION. The issue of the vector instructions (R62 to R65, R137, R335): what each checks at issue and what it
places in the vector queue. `VOp.compute`, `State.runGather` and `State.runTopk` say what each computes. -/

namespace Sys2Proof.Machine

open Sys2Proof

/-- Issue a vector instruction whose operands are v registers: `ILLEGAL_INSTR` for a type it does not take (R62). -/
def vecOp (i : Iss) (op : VOp) (ty : BitVec 3) (d a b : Reg) (s : State) : Host.Outcome State Fault Refusal :=
  issue i {} s fun t s =>
    if op.badType ty then .exc 0x01 0 .vector else s.enqueue t (.vec op ty d a b 0)

/-- `vadd`: add (R65). -/
def execVadd (i : Iss) (ty : BitVec 3) (d a b : Reg) (s : State) : Host.Outcome State Fault Refusal :=
  vecOp i .add ty d a b s

/-- `vsub`: subtract (R65). -/
def execVsub (i : Iss) (ty : BitVec 3) (d a b : Reg) (s : State) : Host.Outcome State Fault Refusal :=
  vecOp i .sub ty d a b s

/-- `vmul`: multiply (R65). -/
def execVmul (i : Iss) (ty : BitVec 3) (d a b : Reg) (s : State) : Host.Outcome State Fault Refusal :=
  vecOp i .mul ty d a b s

/-- `vdiv`: divide (R65). -/
def execVdiv (i : Iss) (ty : BitVec 3) (d a b : Reg) (s : State) : Host.Outcome State Fault Refusal :=
  vecOp i .div ty d a b s

/-- `vmin`: minimum (R65). -/
def execVmin (i : Iss) (ty : BitVec 3) (d a b : Reg) (s : State) : Host.Outcome State Fault Refusal :=
  vecOp i .min ty d a b s

/-- `vmax`: maximum (R65). -/
def execVmax (i : Iss) (ty : BitVec 3) (d a b : Reg) (s : State) : Host.Outcome State Fault Refusal :=
  vecOp i .max ty d a b s

/-- `vand`: bitwise and (R65). -/
def execVand (i : Iss) (ty : BitVec 3) (d a b : Reg) (s : State) : Host.Outcome State Fault Refusal :=
  vecOp i .and ty d a b s

/-- `vor`: bitwise or (R65). -/
def execVor (i : Iss) (ty : BitVec 3) (d a b : Reg) (s : State) : Host.Outcome State Fault Refusal :=
  vecOp i .or ty d a b s

/-- `vxor`: bitwise exclusive or (R65). -/
def execVxor (i : Iss) (ty : BitVec 3) (d a b : Reg) (s : State) : Host.Outcome State Fault Refusal :=
  vecOp i .xor ty d a b s

/-- `vshl`: shift left (R65). -/
def execVshl (i : Iss) (ty : BitVec 3) (d a b : Reg) (s : State) : Host.Outcome State Fault Refusal :=
  vecOp i .shl ty d a b s

/-- `vshr`: logical shift right (R65). -/
def execVshr (i : Iss) (ty : BitVec 3) (d a b : Reg) (s : State) : Host.Outcome State Fault Refusal :=
  vecOp i .shr ty d a b s

/-- `vsar`: arithmetic shift right (R65). -/
def execVsar (i : Iss) (ty : BitVec 3) (d a b : Reg) (s : State) : Host.Outcome State Fault Refusal :=
  vecOp i .sar ty d a b s

/-- `vsqrt`: square root of va (R65). -/
def execVsqrt (i : Iss) (ty : BitVec 3) (d a b : Reg) (s : State) : Host.Outcome State Fault Refusal :=
  vecOp i .sqrt ty d a b s

/-- `vabs`: absolute value of va (R65). -/
def execVabs (i : Iss) (ty : BitVec 3) (d a b : Reg) (s : State) : Host.Outcome State Fault Refusal :=
  vecOp i .abs ty d a b s

/-- `vneg`: negation of va (R65). -/
def execVneg (i : Iss) (ty : BitVec 3) (d a b : Reg) (s : State) : Host.Outcome State Fault Refusal :=
  vecOp i .neg ty d a b s

/-- `vfma`: vd = va·vb + vd (R65). -/
def execVfma (i : Iss) (ty : BitVec 3) (d a b : Reg) (s : State) : Host.Outcome State Fault Refusal :=
  vecOp i .fma ty d a b s

/-- `vfms`: vd = va·vb − vd (R65). -/
def execVfms (i : Iss) (ty : BitVec 3) (d a b : Reg) (s : State) : Host.Outcome State Fault Refusal :=
  vecOp i .fms ty d a b s

/-- `vfnma`: vd = −va·vb + vd (R65). -/
def execVfnma (i : Iss) (ty : BitVec 3) (d a b : Reg) (s : State) : Host.Outcome State Fault Refusal :=
  vecOp i .fnma ty d a b s

/-- `vfma.p`: pair accumulation by R149 (R149). -/
def execVfmaP (i : Iss) (ty : BitVec 3) (d a b : Reg) (s : State) : Host.Outcome State Fault Refusal :=
  vecOp i .fmaP ty d a b s

/-- `vceq`: lanes equal (R65). -/
def execVceq (i : Iss) (ty : BitVec 3) (d a b : Reg) (s : State) : Host.Outcome State Fault Refusal :=
  vecOp i .ceq ty d a b s

/-- `vcne`: lanes not equal (R65). -/
def execVcne (i : Iss) (ty : BitVec 3) (d a b : Reg) (s : State) : Host.Outcome State Fault Refusal :=
  vecOp i .cne ty d a b s

/-- `vclt`: lanes less (R65). -/
def execVclt (i : Iss) (ty : BitVec 3) (d a b : Reg) (s : State) : Host.Outcome State Fault Refusal :=
  vecOp i .clt ty d a b s

/-- `vcle`: lanes less or equal (R65). -/
def execVcle (i : Iss) (ty : BitVec 3) (d a b : Reg) (s : State) : Host.Outcome State Fault Refusal :=
  vecOp i .cle ty d a b s

/-- `vcun`: lanes unordered (R65). -/
def execVcun (i : Iss) (ty : BitVec 3) (d a b : Reg) (s : State) : Host.Outcome State Fault Refusal :=
  vecOp i .cun ty d a b s

/-- `vsel`: vd = vd-mask ? va : vb (R65). -/
def execVsel (i : Iss) (ty : BitVec 3) (d a b : Reg) (s : State) : Host.Outcome State Fault Refusal :=
  vecOp i .sel ty d a b s

/-- `vperm`: lanes of va by the indices in vb (R65). -/
def execVperm (i : Iss) (ty : BitVec 3) (d a b : Reg) (s : State) : Host.Outcome State Fault Refusal :=
  vecOp i .perm ty d a b s

/-- `vrot`: lanes of va rotated by vb[5:0] (R65). -/
def execVrot (i : Iss) (ty : BitVec 3) (d a b : Reg) (s : State) : Host.Outcome State Fault Refusal :=
  vecOp i .rot ty d a b s

/-- `vzip`: interleave (R65). -/
def execVzip (i : Iss) (ty : BitVec 3) (d a b : Reg) (s : State) : Host.Outcome State Fault Refusal :=
  vecOp i .zip ty d a b s

/-- `vunzip`: deinterleave (R65). -/
def execVunzip (i : Iss) (ty : BitVec 3) (d a b : Reg) (s : State) : Host.Outcome State Fault Refusal :=
  vecOp i .unzip ty d a b s

/-- `vmov`: vd = va (R65). -/
def execVmov (i : Iss) (ty : BitVec 3) (d a b : Reg) (s : State) : Host.Outcome State Fault Refusal :=
  vecOp i .mov ty d a b s

/-- `vzero`: vd = 0 (R65). -/
def execVzero (i : Iss) (ty : BitVec 3) (d a b : Reg) (s : State) : Host.Outcome State Fault Refusal :=
  vecOp i .zero ty d a b s

/-- `vradd`: sum of the lanes of va by the tree (R65). -/
def execVradd (i : Iss) (ty : BitVec 3) (d a b : Reg) (s : State) : Host.Outcome State Fault Refusal :=
  vecOp i .radd ty d a b s

/-- `vrmax`: maximum of the lanes of va (R65). -/
def execVrmax (i : Iss) (ty : BitVec 3) (d a b : Reg) (s : State) : Host.Outcome State Fault Refusal :=
  vecOp i .rmax ty d a b s

/-- `vrmin`: minimum of the lanes of va (R65). -/
def execVrmin (i : Iss) (ty : BitVec 3) (d a b : Reg) (s : State) : Host.Outcome State Fault Refusal :=
  vecOp i .rmin ty d a b s

/-- `vdot`: products of va and vb summed by the tree (R65). -/
def execVdot (i : Iss) (ty : BitVec 3) (d a b : Reg) (s : State) : Host.Outcome State Fault Refusal :=
  vecOp i .dot ty d a b s

/-- `vgather`: Local elements by the addresses in va (R63, R110). -/
def execVgather (i : Iss) (ty : BitVec 3) (d a b : Reg) (s : State) : Host.Outcome State Fault Refusal :=
  vecOp i .gather ty d a b s

/-- `vscatter`: the lanes of vd to the Local addresses in va (R63, R110). -/
def execVscatter (i : Iss) (ty : BitVec 3) (d a b : Reg) (s : State) : Host.Outcome State Fault Refusal :=
  vecOp i .scatter ty d a b s

/-- `vbcast`: g register va into every lane, read at issue (R65). -/
def execVbcast (i : Iss) (ty : BitVec 3) (d a b : Reg) (s : State) : Host.Outcome State Fault Refusal :=
  issue i { g := [a] } s fun t s => s.enqueue t (.vec .bcast ty d a b ((s.thread t).g a))

/-- `vins`: g register va into lane vb[5:0] of vd (R65). -/
def execVins (i : Iss) (ty : BitVec 3) (d a b : Reg) (s : State) : Host.Outcome State Fault Refusal :=
  issue i { g := [a] } s fun t s => s.enqueue t (.vec .ins ty d a b ((s.thread t).g a))

/-- `vext`: lane vb[5:0] of va to g register vd (R65). -/
def execVext (i : Iss) (ty : BitVec 3) (d a b : Reg) (s : State) : Host.Outcome State Fault Refusal :=
  issue i {} s fun t s => s.enqueue t (.vec .ext ty d a b 0)

/-- `vcvt`: conversion under the word in gc, read at issue (R137 to R146). -/
def execVcvt (i : Iss) (ty : BitVec 3) (d a gc : Reg) (s : State) : Host.Outcome State Fault Refusal :=
  issue i { g := [gc] } s fun t s =>
    let x := (s.thread t).g gc
    if VOp.cvt.badType ty || ! cvtLegal x then .exc 0x01 0 .vector else s.enqueue t (.vec .cvt ty d a gc x)

/-- Whether `vtopk`'s operands are ones that it executes (R335). -/
def topkLegal (ty : BitVec 3) (a : Reg) (low : BitVec 5) (sb ob ctl : Word) : Bool :=
  (ty = 1 || ty = 2 || ty = 3) && decide (low = 0) && evenReg a && decide (fld sb 31 20 = 0) && decide (fld ob 31 20 = 0) &&
  decide (1 ≤ fld ctl 3 0) && decide (fld ctl 3 0 ≤ 8) && decide (1 ≤ fld ctl 10 4) && decide (fld ctl 10 4 ≤ 64) &&
  ! bit ctl 11 && decide (1 ≤ fld ctl 23 12) && decide (fld ctl 31 25 = 0)

/-- `vtopk`: the K best experts of each token, with capacity slots where ROUTE says so (R335 to R340). -/
def execVtopk (i : Iss) (ty : BitVec 3) (a b : Reg) (low : BitVec 5) (s : State) : Host.Outcome State Fault Refusal :=
  issue i { g := [a, a + 1, b] } s fun t s =>
    let th := s.thread t
    let sb := th.g a
    let ob := th.g (a + 1)
    let ctl := th.g b
    if ! topkLegal ty a low sb ob ctl then .exc 0x01 0 .vector
    else if fld sb 5 0 ≠ 0 then .exc 0x03 sb .vector
    else if fld ob 5 0 ≠ 0 then .exc 0x03 ob .vector
    else s.enqueue t (.topk ty sb ob ctl)

end Sys2Proof.Machine
end

