-- ==== Sys2Proof/Machine/Dispatch.lean ====
section
/-! DEFINITION. One arm per command: each calls its meaning, or is rejected by name. -/

namespace Sys2Proof.Machine

open Sys2Proof

/-- The effect of a command on everything but the queue of waiting commands. -/
def exec (i : Instr) (s : State) : Host.Outcome State Fault Refusal :=
  match i with
  | .add iss f d a b => Sys2Proof.Machine.execAdd iss f d a b s
  | .sub iss f d a b => Sys2Proof.Machine.execSub iss f d a b s
  | .adc iss f d a b => Sys2Proof.Machine.execAdc iss f d a b s
  | .sbc iss f d a b => Sys2Proof.Machine.execSbc iss f d a b s
  | .andOp iss f d a b => Sys2Proof.Machine.execAnd iss f d a b s
  | .orOp iss f d a b => Sys2Proof.Machine.execOr iss f d a b s
  | .xor iss f d a b => Sys2Proof.Machine.execXor iss f d a b s
  | .andn iss f d a b => Sys2Proof.Machine.execAndn iss f d a b s
  | .shl iss f d a b => Sys2Proof.Machine.execShl iss f d a b s
  | .shr iss f d a b => Sys2Proof.Machine.execShr iss f d a b s
  | .sar iss f d a b => Sys2Proof.Machine.execSar iss f d a b s
  | .rol iss f d a b => Sys2Proof.Machine.execRol iss f d a b s
  | .mul iss f d a b => Sys2Proof.Machine.execMul iss f d a b s
  | .mulhs iss f d a b => Sys2Proof.Machine.execMulhs iss f d a b s
  | .mulhu iss f d a b => Sys2Proof.Machine.execMulhu iss f d a b s
  | .div iss f d a b => Sys2Proof.Machine.execDiv iss f d a b s
  | .divu iss f d a b => Sys2Proof.Machine.execDivu iss f d a b s
  | .rem iss f d a b => Sys2Proof.Machine.execRem iss f d a b s
  | .remu iss f d a b => Sys2Proof.Machine.execRemu iss f d a b s
  | .min iss f d a b => Sys2Proof.Machine.execMin iss f d a b s
  | .max iss f d a b => Sys2Proof.Machine.execMax iss f d a b s
  | .minu iss f d a b => Sys2Proof.Machine.execMinu iss f d a b s
  | .maxu iss f d a b => Sys2Proof.Machine.execMaxu iss f d a b s
  | .clz iss f d a => Sys2Proof.Machine.execClz iss f d a s
  | .popc iss f d a => Sys2Proof.Machine.execPopc iss f d a s
  | .sextb iss f d a => Sys2Proof.Machine.execSextb iss f d a s
  | .sexth iss f d a => Sys2Proof.Machine.execSexth iss f d a s
  | .mov iss f d a => Sys2Proof.Machine.execMov iss f d a s
  | .addi iss d a imm => Sys2Proof.Machine.execAddi iss d a imm s
  | .andi iss d a imm => Sys2Proof.Machine.execAndi iss d a imm s
  | .ori iss d a imm => Sys2Proof.Machine.execOri iss d a imm s
  | .xori iss d a imm => Sys2Proof.Machine.execXori iss d a imm s
  | .shli iss d a amt => Sys2Proof.Machine.execShli iss d a amt s
  | .shri iss d a amt => Sys2Proof.Machine.execShri iss d a amt s
  | .sari iss d a amt => Sys2Proof.Machine.execSari iss d a amt s
  | .roli iss d a amt => Sys2Proof.Machine.execRoli iss d a amt s
  | .cmpi iss a imm => Sys2Proof.Machine.execCmpi iss a imm s
  | .movl iss d imm => Sys2Proof.Machine.execMovl iss d imm s
  | .movh iss d imm => Sys2Proof.Machine.execMovh iss d imm s
  | .cmp iss a b => Sys2Proof.Machine.execCmp iss a b s
  | .tst iss a b => Sys2Proof.Machine.execTst iss a b s
  | .pcmp iss cnd d a b => Sys2Proof.Machine.execPcmp iss cnd d a b s
  | .pset iss d a => Sys2Proof.Machine.execPset iss d a s
  | .pnot iss d => Sys2Proof.Machine.execPnot iss d s
  | .pmov iss d => Sys2Proof.Machine.execPmov iss d s
  | .ld iss d base size off => Sys2Proof.Machine.execLd iss d base size off s
  | .ldu iss d base size off => Sys2Proof.Machine.execLdu iss d base size off s
  | .st iss d base size off => Sys2Proof.Machine.execSt iss d base size off s
  | .loadDataArrival th n => Sys2Proof.Machine.execLoadDataArrival th n s
  | .aswap iss wide scope d a b => Sys2Proof.Machine.execAswap iss wide scope d a b s
  | .acas iss wide scope d a b => Sys2Proof.Machine.execAcas iss wide scope d a b s
  | .aadd iss wide scope d a b => Sys2Proof.Machine.execAadd iss wide scope d a b s
  | .aand iss wide scope d a b => Sys2Proof.Machine.execAand iss wide scope d a b s
  | .aor iss wide scope d a b => Sys2Proof.Machine.execAor iss wide scope d a b s
  | .axor iss wide scope d a b => Sys2Proof.Machine.execAxor iss wide scope d a b s
  | .amin iss wide scope d a b => Sys2Proof.Machine.execAmin iss wide scope d a b s
  | .amax iss wide scope d a b => Sys2Proof.Machine.execAmax iss wide scope d a b s
  | .aminu iss wide scope d a b => Sys2Proof.Machine.execAminu iss wide scope d a b s
  | .amaxu iss wide scope d a b => Sys2Proof.Machine.execAmaxu iss wide scope d a b s
  | .aload iss wide scope d a b => Sys2Proof.Machine.execAload iss wide scope d a b s
  | .astore iss wide scope d a b => Sys2Proof.Machine.execAstore iss wide scope d a b s
  | .afadd iss wide scope d a b => Sys2Proof.Machine.execAfadd iss wide scope d a b s
  | .atomicResponse id => Sys2Proof.Machine.execAtomicResponse id s
  | .b iss off => Sys2Proof.Machine.execB iss off s
  | .bl iss off => Sys2Proof.Machine.execBl iss off s
  | .jr iss a => Sys2Proof.Machine.execJr iss a s
  | .jalr iss a => Sys2Proof.Machine.execJalr iss a s
  | .ret iss => Sys2Proof.Machine.execRet iss s
  | .loop iss cnt len => Sys2Proof.Machine.execLoop iss cnt len s
  | .nop iss => Sys2Proof.Machine.execNop iss s
  | .wait iss d => Sys2Proof.Machine.execWait iss d s
  | .waitWake th => Sys2Proof.Machine.execWaitWake th s
  | .tickEnd iss => Sys2Proof.Machine.execTickEnd iss s
  | .trap iss n low => Sys2Proof.Machine.execTrap iss n low s
  | .eret iss => Sys2Proof.Machine.execEret iss s
  | .saveshadow iss => Sys2Proof.Machine.execSaveshadow iss s
  | .descSync iss a => Sys2Proof.Machine.execDescSync iss a s
  | .ipreload iss d a b => Sys2Proof.Machine.execIpreload iss d a b s
  | .fenceL iss => Sys2Proof.Machine.execFenceL iss s
  | .fenceS iss => Sys2Proof.Machine.execFenceS iss s
  | .fenceD iss => Sys2Proof.Machine.execFenceD iss s
  | .brk iss => Sys2Proof.Machine.execBrk iss s
  | .halt iss => Sys2Proof.Machine.execHalt iss s
  | .ctlr iss g num => Sys2Proof.Machine.execCtlr iss g num s
  | .ctlw iss g num => Sys2Proof.Machine.execCtlw iss g num s
  | .ctls iss g num => Sys2Proof.Machine.execCtls iss g num s
  | .ctlc iss g num => Sys2Proof.Machine.execCtlc iss g num s
  | .ctlrx iss g a low => Sys2Proof.Machine.execCtlrx iss g a low s
  | .ctlwx iss g a low => Sys2Proof.Machine.execCtlwx iss g a low s
  | .ctlrxResponse th => Sys2Proof.Machine.execCtlrxResponse th s
  | .controlWriteArrival id => Sys2Proof.Machine.execControlWriteArrival id s
  | .chopen iss d a b => Sys2Proof.Machine.execChopen iss d a b s
  | .chopenRequest id => Sys2Proof.Machine.execChopenRequest id s
  | .chopenReply id => Sys2Proof.Machine.execChopenReply id s
  | .chclose iss d a b => Sys2Proof.Machine.execChclose iss d a b s
  | .send iss d a b => Sys2Proof.Machine.execSend iss d a b s
  | .sendv iss d a b => Sys2Proof.Machine.execSendv iss d a b s
  | .sendTimeoutExpiry th => Sys2Proof.Machine.execSendTimeoutExpiry th s
  | .recv iss d a b => Sys2Proof.Machine.execRecv iss d a b s
  | .recvNb iss d a b => Sys2Proof.Machine.execRecvNb iss d a b s
  | .recvv iss d a b => Sys2Proof.Machine.execRecvv iss d a b s
  | .channelMessageArrival id => Sys2Proof.Machine.execChannelMessageArrival id s
  | .creditReturn id => Sys2Proof.Machine.execCreditReturn id s
  | .epcfgDisable th n => Sys2Proof.Machine.execEpcfgDisable th n s
  | .closeNotice id => Sys2Proof.Machine.execCloseNotice id s
  | .dmeshAckArrival id => Sys2Proof.Machine.execDmeshAckArrival id s
  | .postedRefusal th => Sys2Proof.Machine.execPostedRefusal th s
  | .dmeshPacketHop id err => Sys2Proof.Machine.execDmeshPacketHop id err s
  | .sig iss d a b => Sys2Proof.Machine.execSig iss d a b s
  | .sigp iss d a b => Sys2Proof.Machine.execSigp iss d a b s
  | .swait iss d a b => Sys2Proof.Machine.execSwait iss d a b s
  | .lock iss d a b => Sys2Proof.Machine.execLock iss d a b s
  | .unlock iss d a b => Sys2Proof.Machine.execUnlock iss d a b s
  | .counterSignal id => Sys2Proof.Machine.execCounterSignal id s
  | .swaitRequest id => Sys2Proof.Machine.execSwaitRequest id s
  | .swaitRetry who => Sys2Proof.Machine.execSwaitRetry who s
  | .swaitAnswer id => Sys2Proof.Machine.execSwaitAnswer id s
  | .swaitTimeout th => Sys2Proof.Machine.execSwaitTimeout th s
  | .waiterWithdrawal id => Sys2Proof.Machine.execWaiterWithdrawal id s
  | .lockRequest id => Sys2Proof.Machine.execLockRequest id s
  | .unlockRequest id => Sys2Proof.Machine.execUnlockRequest id s
  | .lockGrant id => Sys2Proof.Machine.execLockGrant id s
  | .lockTimeout th => Sys2Proof.Machine.execLockTimeout th s
  | .watchRegistration id => Sys2Proof.Machine.execWatchRegistration id s
  | .watchEvent id => Sys2Proof.Machine.execWatchEvent id s
  | .dispatchSlotStart sp => Sys2Proof.Machine.execDispatchSlotStart sp s
  | .cupDoneWrite th sp slot => Sys2Proof.Machine.execCupDoneWrite th sp slot s
  | .cupDctlValid ag sp slot v => Sys2Proof.Machine.execCupDctlValid ag sp slot v s
  | .cupDctlCancel ag sp slot v => Sys2Proof.Machine.execCupDctlCancel ag sp slot v s
  | .cupBreakGo ag sp v => Sys2Proof.Machine.execCupBreakGo ag sp v s
  | .cupCvalWrite ag sp n v => Sys2Proof.Machine.execCupCvalWrite ag sp n v s
  | .cupCstatPoisonClear ag sp n v => Sys2Proof.Machine.execCupCstatPoisonClear ag sp n v s
  | .belfryWatchWrite ag q n tgt v => Sys2Proof.Machine.execBelfryWatchWrite ag q n tgt v s
  | .sissue iss d a => Sys2Proof.Machine.execSissue iss d a s
  | .sstat iss d a => Sys2Proof.Machine.execSstat iss d a s
  | .scancel iss a => Sys2Proof.Machine.execScancel iss a s
  | .streamReadData e row => Sys2Proof.Machine.execStreamReadData e row s
  | .gatherListRead e => Sys2Proof.Machine.execGatherListRead e s
  | .streamWriteAck e row => Sys2Proof.Machine.execStreamWriteAck e row s
  | .streamTimeout e => Sys2Proof.Machine.execStreamTimeout e s
  | .windowTableRead cache tenant granule => Sys2Proof.Machine.execWindowTableRead cache tenant granule s
  | .talloc iss d a => Sys2Proof.Machine.execTalloc iss d a s
  | .trel iss a => Sys2Proof.Machine.execTrel iss a s
  | .tempty iss d => Sys2Proof.Machine.execTempty iss d s
  | .tileBankPowerGate core bank => Sys2Proof.Machine.execTileBankPowerGate core bank s
  | .vadd iss ty d a b => Sys2Proof.Machine.execVadd iss ty d a b s
  | .vsub iss ty d a b => Sys2Proof.Machine.execVsub iss ty d a b s
  | .vmul iss ty d a b => Sys2Proof.Machine.execVmul iss ty d a b s
  | .vdiv iss ty d a b => Sys2Proof.Machine.execVdiv iss ty d a b s
  | .vsqrt iss ty d a b => Sys2Proof.Machine.execVsqrt iss ty d a b s
  | .vmin iss ty d a b => Sys2Proof.Machine.execVmin iss ty d a b s
  | .vmax iss ty d a b => Sys2Proof.Machine.execVmax iss ty d a b s
  | .vabs iss ty d a b => Sys2Proof.Machine.execVabs iss ty d a b s
  | .vneg iss ty d a b => Sys2Proof.Machine.execVneg iss ty d a b s
  | .vand iss ty d a b => Sys2Proof.Machine.execVand iss ty d a b s
  | .vor iss ty d a b => Sys2Proof.Machine.execVor iss ty d a b s
  | .vxor iss ty d a b => Sys2Proof.Machine.execVxor iss ty d a b s
  | .vshl iss ty d a b => Sys2Proof.Machine.execVshl iss ty d a b s
  | .vshr iss ty d a b => Sys2Proof.Machine.execVshr iss ty d a b s
  | .vsar iss ty d a b => Sys2Proof.Machine.execVsar iss ty d a b s
  | .vfma iss ty d a b => Sys2Proof.Machine.execVfma iss ty d a b s
  | .vfms iss ty d a b => Sys2Proof.Machine.execVfms iss ty d a b s
  | .vfnma iss ty d a b => Sys2Proof.Machine.execVfnma iss ty d a b s
  | .vfmaP iss ty d a b => Sys2Proof.Machine.execVfmaP iss ty d a b s
  | .vceq iss ty d a b => Sys2Proof.Machine.execVceq iss ty d a b s
  | .vcne iss ty d a b => Sys2Proof.Machine.execVcne iss ty d a b s
  | .vclt iss ty d a b => Sys2Proof.Machine.execVclt iss ty d a b s
  | .vcle iss ty d a b => Sys2Proof.Machine.execVcle iss ty d a b s
  | .vcun iss ty d a b => Sys2Proof.Machine.execVcun iss ty d a b s
  | .vsel iss ty d a b => Sys2Proof.Machine.execVsel iss ty d a b s
  | .vbcast iss ty d a b => Sys2Proof.Machine.execVbcast iss ty d a b s
  | .vext iss ty d a b => Sys2Proof.Machine.execVext iss ty d a b s
  | .vins iss ty d a b => Sys2Proof.Machine.execVins iss ty d a b s
  | .vperm iss ty d a b => Sys2Proof.Machine.execVperm iss ty d a b s
  | .vrot iss ty d a b => Sys2Proof.Machine.execVrot iss ty d a b s
  | .vzip iss ty d a b => Sys2Proof.Machine.execVzip iss ty d a b s
  | .vunzip iss ty d a b => Sys2Proof.Machine.execVunzip iss ty d a b s
  | .vmov iss ty d a b => Sys2Proof.Machine.execVmov iss ty d a b s
  | .vzero iss ty d a b => Sys2Proof.Machine.execVzero iss ty d a b s
  | .vld iss d base off => Sys2Proof.Machine.execVld iss d base off s
  | .vst iss d base off => Sys2Proof.Machine.execVst iss d base off s
  | .vldb iss d base off => Sys2Proof.Machine.execVldb iss d base off s
  | .vgather iss ty d a b => Sys2Proof.Machine.execVgather iss ty d a b s
  | .vscatter iss ty d a b => Sys2Proof.Machine.execVscatter iss ty d a b s
  | .vcvt iss ty d a gc => Sys2Proof.Machine.execVcvt iss ty d a gc s
  | .vtopk iss ty a b low => Sys2Proof.Machine.execVtopk iss ty a b low s
  | .vradd iss ty d a b => Sys2Proof.Machine.execVradd iss ty d a b s
  | .vrmax iss ty d a b => Sys2Proof.Machine.execVrmax iss ty d a b s
  | .vrmin iss ty d a b => Sys2Proof.Machine.execVrmin iss ty d a b s
  | .vdot iss ty d a b => Sys2Proof.Machine.execVdot iss ty d a b s
  | .unitQueueDispatch core u => Sys2Proof.Machine.execUnitQueueDispatch core u s
  | .mload iss target base stride tr low => Sys2Proof.Machine.execMload iss target base stride tr low s
  | .mstore iss source base stride gc conv low => Sys2Proof.Machine.execMstore iss source base stride gc conv low s
  | .mzero iss target low => Sys2Proof.Machine.execMzero iss target low s
  | .mma iss acc w a fmt pair accz mx aux => Sys2Proof.Machine.execMma iss acc w a fmt pair accz mx aux s
  | .mmas iss acc w a fmt pair accz ratio md => Sys2Proof.Machine.execMmas iss acc w a fmt pair accz ratio md s
  | .mchk iss d acc p tol low => Sys2Proof.Machine.execMchk iss d acc p tol low s
  | .mvm iss acc x a b fmt accz => Sys2Proof.Machine.execMvm iss acc x a b fmt accz s
  | .cleanRange who a b lines => Sys2Proof.Machine.execCleanRange who a b lines s
  | .invalRange who a b lines => Sys2Proof.Machine.execInvalRange who a b lines s
  | .icacheFill th => Sys2Proof.Machine.execIcacheFill th s
  | .interruptDelivery th units => Sys2Proof.Machine.execInterruptDelivery th units s
  | .slotUnderrunDelivery th units => Sys2Proof.Machine.execSlotUnderrunDelivery th units s
  | .atomicSectionExpiry th => Sys2Proof.Machine.execAtomicSectionExpiry th s
  | .compareTimerFire th => Sys2Proof.Machine.execCompareTimerFire th s
  | .ltnEoiWrite ag th v => Sys2Proof.Machine.execLtnEoiWrite ag th v s
  | .ltnSwsetWrite ag th v => Sys2Proof.Machine.execLtnSwsetWrite ag th v s
  | .ltnPclrWrite ag th v => Sys2Proof.Machine.execLtnPclrWrite ag th v s
  | .ltnSyncWrite ag th v => Sys2Proof.Machine.execLtnSyncWrite ag th v s
  | .ltnLockupReset ag th => Sys2Proof.Machine.execLtnLockupReset ag th s
  | .ltnWatchWrite ag th k v => Sys2Proof.Machine.execLtnWatchWrite ag th k v s
  | .ltnWtgtWrite ag th k v => Sys2Proof.Machine.execLtnWtgtWrite ag th k v s
  | .threadEnWrite ag core v => Sys2Proof.Machine.execThreadEnWrite ag core v s
  | .tcfgWrite ag th v => Sys2Proof.Machine.execTcfgWrite ag th v s
  | .cmpLoWrite th v => Sys2Proof.Machine.execCmpLoWrite th v s
  | .cmpHiWrite th v => Sys2Proof.Machine.execCmpHiWrite th v s
  | .cycLoRead th => Sys2Proof.Machine.execCycLoRead th s
  | .icctlWrite ag core v => Sys2Proof.Machine.execIcctlWrite ag core v s
  | .bicEoiWrite ag q k v => Sys2Proof.Machine.execBicEoiWrite ag q k v s
  | .bicSrcSetWrite ag q n => Sys2Proof.Machine.execBicSrcSetWrite ag q n s
  | .belfryInterruptDelivery bf => Sys2Proof.Machine.execBelfryInterruptDelivery bf s
  | .drumPpWrite ag sp v => Sys2Proof.Machine.execDrumPpWrite ag sp v s
  | .pcInvWrite ag sp v => Sys2Proof.Machine.execPcInvWrite ag sp v s
  | .winvGo ag q v => Sys2Proof.Machine.execWinvGo ag q v s
  | .winvDrainComplete q => Sys2Proof.Machine.execWinvDrainComplete q s
  | .memoryScrub loc uncorrectable => Sys2Proof.Machine.execMemoryScrub loc uncorrectable s
  | .scheduleEntryExpiry core => Sys2Proof.Machine.execScheduleEntryExpiry core s
  | .smeshFlitArrival core ins => Sys2Proof.Machine.execSmeshFlitArrival core ins s
  | .corePortDelivery core => Sys2Proof.Machine.execCorePortDelivery core s
  | .smrTdhiWrite ag core v => Sys2Proof.Machine.execSmrTdhiWrite ag core v s
  | .smrTdloWrite ag core v => Sys2Proof.Machine.execSmrTdloWrite ag core v s
  | .smrTdloRead ag core => Sys2Proof.Machine.execSmrTdloRead ag core s
  | .smrPreadySet ag core v => Sys2Proof.Machine.execSmrPreadySet ag core v s
  | .scheduleLoadGo ag q v => Sys2Proof.Machine.execScheduleLoadGo ag q v s
  | .scheduleBlockLoaded q => Sys2Proof.Machine.execScheduleBlockLoaded q s
  | .swapArm ag v => Sys2Proof.Machine.execSwapArm ag v s
  | .swapCancel ag v => Sys2Proof.Machine.execSwapCancel ag v s
  | .turretSubmit ag sp v => Sys2Proof.Machine.execTurretSubmit ag sp v s
  | .turretStreamComplete sp n => Sys2Proof.Machine.execTurretStreamComplete sp n s
  | .rteCfgWrite ag core e v => Sys2Proof.Machine.execRteCfgWrite ag core e v s
  | .routeCtlWrite ag core v => Sys2Proof.Machine.execRouteCtlWrite ag core v s
  | .dozeEntry sp => Sys2Proof.Machine.execDozeEntry sp s
  | .dozeExit sp cause => Sys2Proof.Machine.execDozeExit sp cause s
  | .edgeNotice => Sys2Proof.Machine.execEdgeNotice s
  | .tickMaxExpiry => Sys2Proof.Machine.execTickMaxExpiry s
  | .tickEdge => Sys2Proof.Machine.execTickEdge s
  | .tickCtlEnSet ag v => Sys2Proof.Machine.execTickCtlEnSet ag v s
  | .tickCtlEnClear ag v => Sys2Proof.Machine.execTickCtlEnClear ag v s
  | .tickPeriodWrite ag v => Sys2Proof.Machine.execTickPeriodWrite ag v s
  | .tickMinWrite ag v => Sys2Proof.Machine.execTickMinWrite ag v s
  | .tickMaxWrite ag v => Sys2Proof.Machine.execTickMaxWrite ag v s
  | .ctTimeLoRead ag => Sys2Proof.Machine.execCtTimeLoRead ag s
  | .edgeMessageSend => Sys2Proof.Machine.execEdgeMessageSend s
  | .deviceReadyReport => Sys2Proof.Machine.execDeviceReadyReport s
  | .tickInEdge => Sys2Proof.Machine.execTickInEdge s
  | .tickLoss => Sys2Proof.Machine.execTickLoss s
  | .watchdogSample => Sys2Proof.Machine.execWatchdogSample s
  | .watchdogKick ag => Sys2Proof.Machine.execWatchdogKick ag s
  | .watchdogExpiry => Sys2Proof.Machine.execWatchdogExpiry s
  | .readClearAccess ag addr => Sys2Proof.Machine.execReadClearAccess ag addr s
  | .registerWrite ag addr v => Sys2Proof.Machine.execRegisterWrite ag addr v s
  | .portEnable ag p v => Sys2Proof.Machine.execPortEnable ag p v s
  | .portRetrain ag p v => Sys2Proof.Machine.execPortRetrain ag p v s
  | .portClearFail ag p v => Sys2Proof.Machine.execPortClearFail ag p v s
  | .trainingComplete p peer latNs narrow => Sys2Proof.Machine.execTrainingComplete p peer latNs narrow s
  | .trainingFailed p => Sys2Proof.Machine.execTrainingFailed p s
  | .skbFlitReceive p flit fecOk => Sys2Proof.Machine.execSkbFlitReceive p flit fecOk s
  | .nak p expected => Sys2Proof.Machine.execNak p expected s
  | .ackTimeout p => Sys2Proof.Machine.execAckTimeout p s
  | .packetForward p pkt => Sys2Proof.Machine.execPacketForward p pkt s
  | .read pkt => Sys2Proof.Machine.execRead pkt s
  | .write pkt => Sys2Proof.Machine.execWrite pkt s
  | .writeAck pkt => Sys2Proof.Machine.execWriteAck pkt s
  | .readData pkt => Sys2Proof.Machine.execReadData pkt s
  | .atomic pkt => Sys2Proof.Machine.execAtomic pkt s
  | .atomicRsp pkt => Sys2Proof.Machine.execAtomicRsp pkt s
  | .counterOp pkt => Sys2Proof.Machine.execCounterOp pkt s
  | .counterRsp pkt => Sys2Proof.Machine.execCounterRsp pkt s
  | .collectiveSegment pkt => Sys2Proof.Machine.execCollectiveSegment pkt s
  | .command pkt => Sys2Proof.Machine.execCommand pkt s
  | .commandReply pkt => Sys2Proof.Machine.execCommandReply pkt s
  | .errorRecord pkt => Sys2Proof.Machine.execErrorRecord pkt s
  | .heartbeat pkt => Sys2Proof.Machine.execHeartbeat pkt s
  | .path pkt => Sys2Proof.Machine.execPath pkt s
  | .edge pkt => Sys2Proof.Machine.execEdge pkt s
  | .ready pkt => Sys2Proof.Machine.execReady pkt s
  | .routingEnable ag v => Sys2Proof.Machine.execRoutingEnable ag v s
  | .collectiveSubmit ag v => Sys2Proof.Machine.execCollectiveSubmit ag v s
  | .collectiveTimeout n => Sys2Proof.Machine.execCollectiveTimeout n s
  | .workerLost dev => Sys2Proof.Machine.execWorkerLost dev s
  | .fanoutTimeout id => Sys2Proof.Machine.execFanoutTimeout id s
  | .ringDbWrite ag ring v => Sys2Proof.Machine.execRingDbWrite ag ring v s
  | .ringCfgWrite ag ring v => Sys2Proof.Machine.execRingCfgWrite ag ring v s
  | .ringQheadWrite ag ring v => Sys2Proof.Machine.execRingQheadWrite ag ring v s
  | .commandFetch ring hd blk => Sys2Proof.Machine.execCommandFetch ring hd blk s
  | .nopCommand id => Sys2Proof.Machine.execNopCommand id s
  | .queryCaps id => Sys2Proof.Machine.execQueryCaps id s
  | .readErrlog id => Sys2Proof.Machine.execReadErrlog id s
  | .partition id => Sys2Proof.Machine.execPartition id s
  | .setPower id => Sys2Proof.Machine.execSetPower id s
  | .setPowerRetain id => Sys2Proof.Machine.execSetPowerRetain id s
  | .setTick id => Sys2Proof.Machine.execSetTick id s
  | .debugStatus id => Sys2Proof.Machine.execDebugStatus id s
  | .debugPassword id hd => Sys2Proof.Machine.execDebugPassword id hd s
  | .debugChallenge id => Sys2Proof.Machine.execDebugChallenge id s
  | .debugToken id hd => Sys2Proof.Machine.execDebugToken id hd s
  | .debugClose id => Sys2Proof.Machine.execDebugClose id s
  | .debugSetpw id hd => Sys2Proof.Machine.execDebugSetpw id hd s
  | .allocCounters id => Sys2Proof.Machine.execAllocCounters id s
  | .freeCounters id => Sys2Proof.Machine.execFreeCounters id s
  | .allocLocks id => Sys2Proof.Machine.execAllocLocks id s
  | .freeLocks id => Sys2Proof.Machine.execFreeLocks id s
  | .setWindow id => Sys2Proof.Machine.execSetWindow id s
  | .winv id => Sys2Proof.Machine.execWinv id s
  | .copy id => Sys2Proof.Machine.execCopy id s
  | .fill id => Sys2Proof.Machine.execFill id s
  | .dmaComplete id hd => Sys2Proof.Machine.execDmaComplete id hd s
  | .loadImage id hd => Sys2Proof.Machine.execLoadImage id hd s
  | .unloadImage id => Sys2Proof.Machine.execUnloadImage id s
  | .runTicks id => Sys2Proof.Machine.execRunTicks id s
  | .runTicksComplete id => Sys2Proof.Machine.execRunTicksComplete id s
  | .stop id => Sys2Proof.Machine.execStop id s
  | .cancel id => Sys2Proof.Machine.execCancel id s
  | .cancelDispatch id => Sys2Proof.Machine.execCancelDispatch id s
  | .migrate id => Sys2Proof.Machine.execMigrate id s
  | .migrateDrained id => Sys2Proof.Machine.execMigrateDrained id s
  | .migrateTimeout id => Sys2Proof.Machine.execMigrateTimeout id s
  | .dispatch id => Sys2Proof.Machine.execDispatch id s
  | .vfFlr t => Sys2Proof.Machine.execVfFlr t s
  | .pfFlr => Sys2Proof.Machine.execPfFlr s
  | .bar0Access fn off size wr => Sys2Proof.Machine.execBar0Access fn off size wr s
  | .bar2Read fn off size => Sys2Proof.Machine.execBar2Read fn off size s
  | .bar2Write fn off data => Sys2Proof.Machine.execBar2Write fn off data s
  | .atsInvalidation tag => Sys2Proof.Machine.execAtsInvalidation tag s
  | .domainOnRequest ag n => Sys2Proof.Machine.execDomainOnRequest ag n s
  | .domainOffRequest ag n => Sys2Proof.Machine.execDomainOffRequest ag n s
  | .domainClear ag n => Sys2Proof.Machine.execDomainClear ag n s
  | .rampStageEnd n mv => Sys2Proof.Machine.execRampStageEnd n mv s
  | .rampAbort n mv => Sys2Proof.Machine.execRampAbort n mv s
  | .domainInitComplete n cal => Sys2Proof.Machine.execDomainInitComplete n cal s
  | .domainDrained n => Sys2Proof.Machine.execDomainDrained n s
  | .drainTimeout n => Sys2Proof.Machine.execDrainTimeout n s
  | .spireIdleTimeout sp => Sys2Proof.Machine.execSpireIdleTimeout sp s
  | .retainEntry => Sys2Proof.Machine.execRetainEntry s
  | .wakeAddressMatch => Sys2Proof.Machine.execWakeAddressMatch s
  | .wakeComplete => Sys2Proof.Machine.execWakeComplete s
  | .vrGoodFall => Sys2Proof.Machine.execVrGoodFall s
  | .thermtrip => Sys2Proof.Machine.execThermtrip s
  | .pwrCtlWrite ag v => Sys2Proof.Machine.execPwrCtlWrite ag v s
  | .powerWindowEnd watts tj => Sys2Proof.Machine.execPowerWindowEnd watts tj s
  | .avsComplete => Sys2Proof.Machine.execAvsComplete s
  | .errorReport q => Sys2Proof.Machine.execErrorReport q s
  | .coalescingWindowEnd q k => Sys2Proof.Machine.execCoalescingWindowEnd q k s
  | .groupWindowEnd k => Sys2Proof.Machine.execGroupWindowEnd k s
  | .systemWindowEnd k => Sys2Proof.Machine.execSystemWindowEnd k s
  | .ehPop ag => Sys2Proof.Machine.execEhPop ag s
  | .ehRec0Read ag => Sys2Proof.Machine.execEhRec0Read ag s
  | .colInjGo ag q v => Sys2Proof.Machine.execColInjGo ag q v s
  | .coldBoot straps flash => Sys2Proof.Machine.execColdBoot straps flash s
  | .perstNAssert => Sys2Proof.Machine.execPerstNAssert s
  | .deviceReset ag key => Sys2Proof.Machine.execDeviceReset ag key s
  | .clusterReset ag q v => Sys2Proof.Machine.execClusterReset ag q v s
  | .bfcHoldWrite ag q v => Sys2Proof.Machine.execBfcHoldWrite ag q v s
  | .svnCommit ag => Sys2Proof.Machine.execSvnCommit ag s
  | .flashProgram ag v => Sys2Proof.Machine.execFlashProgram ag v s
  | .flashProgramDone => Sys2Proof.Machine.execFlashProgramDone s
  | .lifecycleTransition ag v => Sys2Proof.Machine.execLifecycleTransition ag v s
  | .getVersion => Sys2Proof.Machine.execGetVersion s
  | .getCapabilities => Sys2Proof.Machine.execGetCapabilities s
  | .negotiateAlgorithms => Sys2Proof.Machine.execNegotiateAlgorithms s
  | .getDigests => Sys2Proof.Machine.execGetDigests s
  | .getCertificate off len => Sys2Proof.Machine.execGetCertificate off len s
  | .challenge nonce => Sys2Proof.Machine.execChallenge nonce s
  | .getMeasurements ix => Sys2Proof.Machine.execGetMeasurements ix s
  | .ocuHaltWrite ag v => Sys2Proof.Machine.execOcuHaltWrite ag v s
  | .jtagInstruction j => Sys2Proof.Machine.execJtagInstruction j s
  | .scanModeEntry => Sys2Proof.Machine.execScanModeEntry s
  | .smbusBlockRead addr ask => Sys2Proof.Machine.execSmbusBlockRead addr ask s
  | .smbusBusTimeout => Sys2Proof.Machine.execSmbusBusTimeout s
  | .unassignedEncoding iss w => Sys2Proof.Machine.execUnassignedEncoding iss w s
  | .unitInstructionComplete core u k => Sys2Proof.Machine.execUnitInstructionComplete core u k s
  | .atomicAtHome id => Sys2Proof.Machine.execAtomicAtHome id s
  | .failsInService f => Sys2Proof.Machine.execFailsInService f s
  | .vrGoodRise => Sys2Proof.Machine.execVrGoodRise s
  | .alwaysOnRailsFall => Sys2Proof.Machine.execAlwaysOnRailsFall s
  | .linkSignalLoss p => Sys2Proof.Machine.execLinkSignalLoss p s
  | .hostL1Exit => Sys2Proof.Machine.execHostL1Exit s
  | .configurationRequest fn reg wr => Sys2Proof.Machine.execConfigurationRequest fn reg wr s
  | .hostLinkTraining gen width => Sys2Proof.Machine.execHostLinkTraining gen width s

end Sys2Proof.Machine
end

