-- ==== Sys2Proof/WellFormed.lean ====
section
/-! DEFINITION. Which commands are well formed. The types of the operands bound them; what a type does not say is said
here. No command stops the machine: one that breaks this changes nothing. -/

namespace Sys2Proof

/-- Whether a command's operands are ones that a sender can form: the word of an unassigned encoding is one that the
decoder gives to no instruction, and carries its condition (R46). [DESIGN CHOICE, log 15] -/
def Instr.wf : Instr → Bool
  | .unassignedEncoding i w => unassignedWord w && decide (i.cond = w.extractLsb' 28 4)
  | _ => true

end Sys2Proof
end

