-- ==== Sys2Proof/Safety.lean ====
section
/-! DEFINITION. The terms in which the statements speak: what a safe step is, the canonical form of the memories and
stores, when an instruction fires, and what its effect leaves alone. -/

namespace Sys2Proof.Machine

open Sys2Proof

/-! ### Safe steps and the canonical form -/

/-- The step goes on: it neither faults nor is refused. -/
def Goes (o : Host.Outcome State Fault Refusal) : Prop := ∃ t, o = .next t

/-- Every command that waits is well formed. -/
def State.queueWf (s : State) : Prop := ∀ c ∈ s.pending, c.wf = true

/-- The canonical form of a state: every store of records and of registers lists its keys in rising order, and every
memory (Far, the Oculus buffer, each Local and each Drum) lists its bytes in rising order, each different from what an
unlisted byte reads as. -/
structure State.Canonical (s : State) : Prop where
  threads : Store.rising s.threads = true
  cores : Store.rising s.cores = true
  spires : Store.rising s.spires = true
  quads : Store.rising s.quads = true
  regs : Store.rising s.regs = true
  doms : Store.rising s.doms = true
  belfry : Store.rising s.belfry = true
  far : s.far.wf = true
  ocu : s.ocu.wf = true
  locals : ∀ c, (s.core c).mem.wf = true
  drums : ∀ sp, (s.spire sp).drum.wf = true

/-! ### Instructions -/

/-- The thread that an instruction command names. -/
def tidOf (i : Iss) : Tid := { core := i.core, thread := i.thread }

/-- The instruction commands and the thread that issues them; every other command is an event or an access. -/
def issuedBy : Instr → Option Iss
  | .add i _ _ _ _ => some i
  | .sub i _ _ _ _ => some i
  | .adc i _ _ _ _ => some i
  | .sbc i _ _ _ _ => some i
  | .andOp i _ _ _ _ => some i
  | .orOp i _ _ _ _ => some i
  | .xor i _ _ _ _ => some i
  | .andn i _ _ _ _ => some i
  | .shl i _ _ _ _ => some i
  | .shr i _ _ _ _ => some i
  | .sar i _ _ _ _ => some i
  | .rol i _ _ _ _ => some i
  | .mul i _ _ _ _ => some i
  | .mulhs i _ _ _ _ => some i
  | .mulhu i _ _ _ _ => some i
  | .div i _ _ _ _ => some i
  | .divu i _ _ _ _ => some i
  | .rem i _ _ _ _ => some i
  | .remu i _ _ _ _ => some i
  | .min i _ _ _ _ => some i
  | .max i _ _ _ _ => some i
  | .minu i _ _ _ _ => some i
  | .maxu i _ _ _ _ => some i
  | .clz i _ _ _ => some i
  | .popc i _ _ _ => some i
  | .sextb i _ _ _ => some i
  | .sexth i _ _ _ => some i
  | .mov i _ _ _ => some i
  | .addi i _ _ _ => some i
  | .andi i _ _ _ => some i
  | .ori i _ _ _ => some i
  | .xori i _ _ _ => some i
  | .shli i _ _ _ => some i
  | .shri i _ _ _ => some i
  | .sari i _ _ _ => some i
  | .roli i _ _ _ => some i
  | .cmpi i _ _ => some i
  | .movl i _ _ => some i
  | .movh i _ _ => some i
  | .cmp i _ _ => some i
  | .tst i _ _ => some i
  | .pcmp i _ _ _ _ => some i
  | .pset i _ _ => some i
  | .pnot i _ => some i
  | .pmov i _ => some i
  | .ld i _ _ _ _ => some i
  | .ldu i _ _ _ _ => some i
  | .st i _ _ _ _ => some i
  | .aswap (.compute i) _ _ _ _ _ => some i
  | .acas (.compute i) _ _ _ _ _ => some i
  | .aadd (.compute i) _ _ _ _ _ => some i
  | .aand (.compute i) _ _ _ _ _ => some i
  | .aor (.compute i) _ _ _ _ _ => some i
  | .axor (.compute i) _ _ _ _ _ => some i
  | .amin (.compute i) _ _ _ _ _ => some i
  | .amax (.compute i) _ _ _ _ _ => some i
  | .aminu (.compute i) _ _ _ _ _ => some i
  | .amaxu (.compute i) _ _ _ _ _ => some i
  | .aload (.compute i) _ _ _ _ _ => some i
  | .astore (.compute i) _ _ _ _ _ => some i
  | .afadd (.compute i) _ _ _ _ _ => some i
  | .b i _ => some i
  | .bl i _ => some i
  | .jr i _ => some i
  | .jalr i _ => some i
  | .ret i => some i
  | .loop i _ _ => some i
  | .nop i => some i
  | .wait i _ => some i
  | .tickEnd i => some i
  | .trap (.compute i) _ _ => some i
  | .eret (.compute i) => some i
  | .saveshadow i => some i
  | .descSync i _ => some i
  | .ipreload i _ _ _ => some i
  | .fenceL i => some i
  | .fenceS i => some i
  | .fenceD i => some i
  | .brk (.compute i) => some i
  | .halt i => some i
  | .ctlr (.compute i) _ _ => some i
  | .ctlw (.compute i) _ _ => some i
  | .ctls (.compute i) _ _ => some i
  | .ctlc (.compute i) _ _ => some i
  | .ctlrx i _ _ _ => some i
  | .ctlwx i _ _ _ => some i
  | .chopen i _ _ _ => some i
  | .chclose i _ _ _ => some i
  | .send i _ _ _ => some i
  | .sendv i _ _ _ => some i
  | .recv i _ _ _ => some i
  | .recvNb i _ _ _ => some i
  | .recvv i _ _ _ => some i
  | .sig (.compute i) _ _ _ => some i
  | .sigp (.compute i) _ _ _ => some i
  | .swait (.compute i) _ _ _ => some i
  | .lock (.compute i) _ _ _ => some i
  | .unlock (.compute i) _ _ _ => some i
  | .sissue i _ _ => some i
  | .sstat i _ _ => some i
  | .scancel i _ => some i
  | .talloc i _ _ => some i
  | .trel i _ => some i
  | .tempty i _ => some i
  | .vadd i _ _ _ _ => some i
  | .vsub i _ _ _ _ => some i
  | .vmul i _ _ _ _ => some i
  | .vdiv i _ _ _ _ => some i
  | .vsqrt i _ _ _ _ => some i
  | .vmin i _ _ _ _ => some i
  | .vmax i _ _ _ _ => some i
  | .vabs i _ _ _ _ => some i
  | .vneg i _ _ _ _ => some i
  | .vand i _ _ _ _ => some i
  | .vor i _ _ _ _ => some i
  | .vxor i _ _ _ _ => some i
  | .vshl i _ _ _ _ => some i
  | .vshr i _ _ _ _ => some i
  | .vsar i _ _ _ _ => some i
  | .vfma i _ _ _ _ => some i
  | .vfms i _ _ _ _ => some i
  | .vfnma i _ _ _ _ => some i
  | .vfmaP i _ _ _ _ => some i
  | .vceq i _ _ _ _ => some i
  | .vcne i _ _ _ _ => some i
  | .vclt i _ _ _ _ => some i
  | .vcle i _ _ _ _ => some i
  | .vcun i _ _ _ _ => some i
  | .vsel i _ _ _ _ => some i
  | .vbcast i _ _ _ _ => some i
  | .vext i _ _ _ _ => some i
  | .vins i _ _ _ _ => some i
  | .vperm i _ _ _ _ => some i
  | .vrot i _ _ _ _ => some i
  | .vzip i _ _ _ _ => some i
  | .vunzip i _ _ _ _ => some i
  | .vmov i _ _ _ _ => some i
  | .vzero i _ _ _ _ => some i
  | .vld i _ _ _ => some i
  | .vst i _ _ _ => some i
  | .vldb i _ _ _ => some i
  | .vgather i _ _ _ _ => some i
  | .vscatter i _ _ _ _ => some i
  | .vcvt i _ _ _ _ => some i
  | .vtopk i _ _ _ _ => some i
  | .vradd i _ _ _ _ => some i
  | .vrmax i _ _ _ _ => some i
  | .vrmin i _ _ _ _ => some i
  | .vdot i _ _ _ _ => some i
  | .mload i _ _ _ _ _ => some i
  | .mstore i _ _ _ _ _ _ => some i
  | .mzero i _ _ => some i
  | .mma i _ _ _ _ _ _ _ _ => some i
  | .mmas i _ _ _ _ _ _ _ _ => some i
  | .mchk i _ _ _ _ _ => some i
  | .mvm i _ _ _ _ _ _ => some i
  | .unassignedEncoding i _ => some i
  | .cleanRange (.compute i) _ _ _ => some i
  | .invalRange (.compute i) _ _ _ => some i
  | _ => none

/-- The state in which an instruction finds its thread: the loads that are due have landed (R54). -/
def State.atIssue (s : State) (i : Iss) : State := s.landed (tidOf i)

/-- The thread's record as an instruction finds it. -/
def State.issuer (s : State) (i : Iss) : Thread := (s.atIssue i).thread (tidOf i)

/-- An instruction fires: its thread is ready, with the registers that it names free of the units' results, its
condition holds, and the registers that it reads have right parity (R36, R50, R228). -/
abbrev Fires (s : State) (i : Iss) (u : Uses) : Prop :=
  s.ready (tidOf i) u = true ∧ condHolds (s.issuer i).bank i.cond = true ∧ (s.issuer i).spoilt u = false

/-- A firing instruction that meets `pre` completes: its effect `eff`, and its thread goes on at the next instruction. -/
def Completes (c : Instr) (i : Iss) (u : Uses) (pre : State → Prop) (eff : State → State) : Prop :=
  ∀ s, Fires s i u → pre (s.atIssue i) → exec c s = .next ((eff (s.atIssue i)).retired (tidOf i))

/-- A firing instruction that meets `pre` has its effect `eff` and holds its thread until what `b` names comes. -/
def Waits (c : Instr) (i : Iss) (u : Uses) (pre : State → Prop) (eff : State → State) (b : State → Block) : Prop :=
  ∀ s, Fires s i u → pre (s.atIssue i) →
    exec c s = .next (((eff (s.atIssue i)).accounted (tidOf i)).modThread (tidOf i) fun th =>
      { th with status := .blocked (b (s.atIssue i)) })

/-- A firing instruction that meets `pre` raises a synchronous exception at itself and does nothing else. -/
def Raises (c : Instr) (i : Iss) (u : Uses) (pre : State → Prop) (cause : BitVec 8) (detail : State → Word)
    (unit : UnitCode) : Prop :=
  ∀ s, Fires s i u → pre (s.atIssue i) →
    exec c s = .next ((s.atIssue i).syncExc (tidOf i) cause (detail (s.atIssue i)) (s.issuer i).pc unit)

/-- Nothing outside a thread's own record differs, but for its core's note of who issued last. -/
def OnlyThread (s t : State) (x : Tid) : Prop :=
  { t with threads := s.threads, cores := s.cores } = s ∧ (∀ y, y ≠ x → t.thread y = s.thread y) ∧
  ∀ c, { t.core c with lastIssue := (s.core c).lastIssue } = s.core c

/-- Of a thread's record nothing differs but the bank in use, the address of the next instruction and the accounts of
issue: the load delay, `ISSUED` and the activity bit. -/
def OnlyBank (th th' : Thread) : Prop :=
  { th' with
      main := th.main
      shadow := th.shadow
      pc := th.pc
      loads := th.loads
      act := th.act
      ctl := th.ctl } = th ∧
  { th'.ctl with issued := th.ctl.issued } = th.ctl ∧
  (if th.inShadow then th'.main = th.main else th'.shadow = th.shadow)

/-- A command completes as a scalar instruction: register `d` takes `v` unless it is g31, which reads as zero, every
other register keeps its value, N and Z follow the result and C and V are those given where flags are written, else all
four stay; the predicates stay, and nothing else differs (R40, R52). -/
def WritesReg (s : State) (i : Iss) (c : Instr) (d : Reg) (v : Word) (flags : Option (Word × Bool × Bool)) : Prop :=
  ∃ t, exec c s = .next t ∧ OnlyThread (s.atIssue i) t (tidOf i) ∧ OnlyBank (s.issuer i) (t.thread (tidOf i)) ∧
    (∀ r, (t.thread (tidOf i)).g r = if r = 31 then 0 else if r = d then v else (s.issuer i).g r) ∧
    (let k := (t.thread (tidOf i)).bank
     k.p0 = (s.issuer i).bank.p0 ∧ k.p1 = (s.issuer i).bank.p1 ∧
     match flags with
     | some (r, cf, vf) => k.n = r.msb ∧ k.z = decide (r = 0) ∧ k.c = cf ∧ k.v = vf
     | none =>
       k.n = (s.issuer i).bank.n ∧ k.z = (s.issuer i).bank.z ∧ k.c = (s.issuer i).bank.c ∧ k.v = (s.issuer i).bank.v)

/-- The atomic instruction of an operation (R77). -/
def atomicInstr (op : AOp) (who : By) (wide : Bool) (scope : BitVec 3) (d a b : Reg) : Instr :=
  match op with
  | .swap => .aswap who wide scope d a b
  | .cas => .acas who wide scope d a b
  | .add => .aadd who wide scope d a b
  | .and => .aand who wide scope d a b
  | .or => .aor who wide scope d a b
  | .xor => .axor who wide scope d a b
  | .min => .amin who wide scope d a b
  | .max => .amax who wide scope d a b
  | .minu => .aminu who wide scope d a b
  | .maxu => .amaxu who wide scope d a b
  | .load => .aload who wide scope d a b
  | .store => .astore who wide scope d a b
  | .fadd => .afadd who wide scope d a b

/-- The general registers that a vector instruction of an operation names. -/
def vecUses (op : VOp) (a b : Reg) : List Reg :=
  match op with
  | .bcast => [a]
  | .ins => [a]
  | .cvt => [b]
  | _ => []

/-! ### Instructions of a Belfry core -/

/-- A Belfry core executes an instruction: it is not halted, held or waiting, and its quadrant has power. -/
abbrev BelRuns (s : State) (b : BCore) : Prop :=
  (s.bel b).halted = false ∧ (s.bel b).held = false ∧ (s.bel b).block = none ∧
    s.domCarries (64 + (belQuad b).toNat) = true

/-! ### Commands of the host -/

/-- A command has started and is served: Duboette runs, no answer is awaited and the device has no fault. -/
abbrev Serves (s : State) (id op : Nat) (c : Cmd) : Prop :=
  s.cmd id = some c ∧ c.op = op ∧ c.st = .started ∧ c.waitFor = [] ∧ s.keep.duboette = true ∧ s.devFault = false

end Sys2Proof.Machine
end

