-- ==== Sys2Proof/Certificates/Slice0/Obligations.lean ====
section
/-! DEFINITION. The statements for the provers. -/

open Sys2Proof Sys2Proof.Machine



/-- A step runs the command at the front of the queue on the state with the queue's rest. -/
def Obligations.StepRunsFrontCommand : Prop :=
  ∀ (s : State) (c : Instr) (rest : List Instr), s.pending = c :: rest → step s = exec c { s with pending := rest }

/-- On an empty queue a cycle of CCLK passes (the model's choice, log 2): with CCLK running, a device without threads
and packets, without Skybridge traffic and without trace is one cycle and 1000/MHz ns later, at half rate while its time is ahead
of the master's, and the rest is as it was. -/
def Obligations.IdleStepIsOneCycle : Prop :=
  ∀ s : State, s.pending = [] → s.power.phase = .on → 0 < s.cclk → s.threads = [] → s.ports = [] → s.flight = [] →
    bit (s.creg .skbRtctl 0 0) 0 = false →
    ∃ t, step s = .next t ∧ t.now = s.now + 1 ∧
      t.ns = s.ns + (s.ct.nsFrac + if s.ct.ahead = 0 then 1000 else 500) / s.cclk ∧
      { t with now := s.now, ns := s.ns, ct := { t.ct with nsFrac := s.ct.nsFrac, ahead := s.ct.ahead } } = s

/-- Before power is applied nothing waits, no domain is powered, Clocktower time is 0 and stopped, and the registers
read as their tables give them: here `TICK_PERIOD`, `TICK_MIN`, `TICK_MAX`, `TICK_LEAD` and `CT_WDT` (R368),
`PWR_CCLK` (R459), `CUP_CLIMi` (R328), `MAT_CTL` (R192), `LTN_PRIO` (R118), `TCFG` and `CMP` (R42). The device before
power is in canonical form. -/
def Obligations.ResetState : Prop :=
  (State.reset.pending = [] ∧ State.reset.ns = 0 ∧ State.reset.ct.tick = 0 ∧ State.reset.ct.running = false ∧
   (∀ n, (State.reset.dom n).st = .off) ∧
   State.reset.creg .tickPeriod 0 0 = 0x000186A0 ∧ State.reset.creg .tickMin 0 0 = 0x00002710 ∧
   State.reset.creg .tickMax 0 0 = 0x000F4240 ∧ State.reset.creg .tickLead 0 0 = 0x1F40 ∧
   State.reset.creg .ctWdt 0 0 = 10 ∧ State.reset.creg .pwrCclk 0 0 = 0x05780578 ∧
   (∀ sp i, State.reset.creg .cupClim sp i = 0xFFFFFFFF) ∧ (∀ c, State.reset.creg .matCtl c 0 = 3) ∧
   ∀ t : Tid, (State.reset.thread t).status = .disabled ∧ (State.reset.thread t).priv = .user ∧
     (∀ n, (State.reset.thread t).ltn.prioOf n = 63) ∧ (State.reset.thread t).ctl.bound = true ∧
     (State.reset.thread t).ctl.cmp = BitVec.allOnes 64) ∧
  (State.reset.Canonical)

/-- Every step keeps the canonical form of the memories and stores, and takes no command from the queue but the one it
runs. -/
def Obligations.StepKeepsCanonicalForm : Prop :=
  ∀ s t : State, s.Canonical → step s = .next t → t.Canonical ∧ t.pending = s.pending.tail

/-- No command stops the machine: from every state every command answers a next state, and so does every step; the
commands that still wait stay well formed. A command of an unassigned encoding whose word an instruction has changes
nothing (the model's choice, log 15). -/
def Obligations.NoCommandStops : Prop :=
  (∀ (c : Instr) (s : State), ∃ t, exec c s = .next t) ∧
  (∀ s : State, ∃ t, step s = .next t ∧ (s.queueWf → t.queueWf)) ∧
  (∀ (i : Iss) (w : Word) (s : State), unassignedWord w = false → exec (.unassignedEncoding i w) s = .next s)

/-- Waiting commands are all served: after as many steps as commands wait, the queue is empty and nothing has stopped.
-/
def Obligations.QueueIsServed : Prop :=
  ∀ s : State, ∃ t, Host.Core.run Sys2Proof.core s.pending.length s = .next t ∧ t.pending = []

/-- An instruction whose condition is false has no effect: its thread's loads that were due have landed, it counts for
the load delay and as issued, and its thread goes on; where the thread is not ready nothing happens (R51). -/
def Obligations.FalseConditionHasNoEffect : Prop :=
  ∀ (c : Instr) (i : Iss) (s : State), issuedBy c = some i → c.wf = true → condHolds (s.issuer i).bank i.cond = false →
    let every := (List.range 32).map (BitVec.ofNat 5)
    (s.ready (tidOf i)
        { g := every
          v := every } = true → exec c s = .next ((s.atIssue i).retired (tidOf i))) ∧
    (exec c s = .next s ∨ exec c s = .next ((s.atIssue i).retired (tidOf i)))

/-- The condition codes (R50). -/
def Obligations.ConditionCodes : Prop :=
  ∀ b : Bank, condHolds b 0 = true ∧ condHolds b 1 = b.z ∧ condHolds b 2 = !b.z ∧ condHolds b 3 = (b.n != b.v) ∧
    condHolds b 4 = (b.n == b.v) ∧ condHolds b 5 = !b.c ∧ condHolds b 6 = b.c ∧
    condHolds b 7 = (!b.z && b.n == b.v) ∧ condHolds b 8 = (b.z || b.n != b.v) ∧ condHolds b 9 = b.n ∧
    condHolds b 10 = !b.n ∧ condHolds b 11 = b.v ∧ condHolds b 12 = b.p0 ∧ condHolds b 13 = !b.p0 ∧
    condHolds b 14 = b.p1 ∧ condHolds b 15 = !b.p1

/-- A completed instruction outside every loop body goes on 4 bytes later, in the bank it ran in, counts one in
`ISSUED` (saturating) and one for every load in flight, and is noted as the core's last issuer. A loop level whose
body ends at the instruction repeats while its count is above 1, and closes at 1 (R58, R59). -/
def Obligations.RetirementAndLoopBodies : Prop :=
  (∀ (s : State) (x : Tid), (s.thread x).bank.depth = 0 →
     ((s.retired x).thread x).pc = (s.thread x).pc + 4 ∧ ((s.retired x).thread x).bank = (s.thread x).bank ∧
     ((s.retired x).thread x).ctl.issued = satAdd (s.thread x).ctl.issued 1 ∧
     ((s.retired x).thread x).loads = (s.thread x).loads.map (fun l => { l with left := l.left - 1 }) ∧
     ((s.retired x).core x.core).lastIssue = x.thread ∧ OnlyThread s (s.retired x) x) ∧
  (∀ (b : Bank) (pc : Word), b.depth ≠ 0 → (b.loop (b.depth.toNat - 1)).le = pc →
     (1 < (b.loop (b.depth.toNat - 1)).lc.toNat →
       (loopTest b pc 3).1 = (b.loop (b.depth.toNat - 1)).ls ∧ (loopTest b pc 3).2.depth = b.depth ∧
       ((loopTest b pc 3).2.loop (b.depth.toNat - 1)).lc = (b.loop (b.depth.toNat - 1)).lc - 1) ∧
     ((b.loop (b.depth.toNat - 1)).lc.toNat ≤ 1 → b.depth = 1 →
       (loopTest b pc 3).1 = pc + 4 ∧ (loopTest b pc 3).2.depth = 0))

/-- `add`, `sub`, `adc` and `sbc`: the sum or difference modulo 2^32; with F, N and Z from the result, C the carry out
or, for a subtraction, 1 when there is no borrow, V the signed overflow (R52, R65). The logical operations and `mul`:
with F, N and Z from the result, C and V 0 (R52, R65). Shifts and rotates by b[4:0]: with F, C is the last bit shifted
out, for `rol` bit 0 of the result, and 0 for an amount of 0; V is 0 (R52, R65). -/
def Obligations.ArithmeticResults : Prop :=
  (∀ (s : State) (i : Iss) (f : Bool) (d a b : Reg), Fires s i { g := [a, b], wg := [d] } →
     let x := (s.issuer i).g a
     let y := (s.issuer i).g b
     let cin := (s.issuer i).bank.c.toNat
     WritesReg s i (.add i f d a b) d (x + y)
       (if f then some (x + y, decide (2 ^ 32 ≤ x.toNat + y.toNat), decide ((x + y).toInt ≠ x.toInt + y.toInt)) else none) ∧
     WritesReg s i (.sub i f d a b) d (x - y)
       (if f then some (x - y, decide (y.toNat ≤ x.toNat), decide ((x - y).toInt ≠ x.toInt - y.toInt)) else none) ∧
     WritesReg s i (.adc i f d a b) d (x + y + BitVec.ofNat 32 cin)
       (if f then some (x + y + BitVec.ofNat 32 cin, decide (2 ^ 32 ≤ x.toNat + y.toNat + cin),
         decide ((x + y + BitVec.ofNat 32 cin).toInt ≠ x.toInt + y.toInt + cin)) else none) ∧
     WritesReg s i (.sbc i f d a b) d (x - y - BitVec.ofNat 32 (1 - cin))
       (if f then some (x - y - BitVec.ofNat 32 (1 - cin), decide (y.toNat + (1 - cin) ≤ x.toNat),
         decide ((x - y - BitVec.ofNat 32 (1 - cin)).toInt ≠ x.toInt - y.toInt - (1 - cin : Nat))) else none)) ∧
  (∀ (s : State) (i : Iss) (f : Bool) (d a b : Reg), Fires s i { g := [a, b], wg := [d] } →
     let x := (s.issuer i).g a
     let y := (s.issuer i).g b
     let fl := fun r : Word => if f then some (r, false, false) else none
     WritesReg s i (.andOp i f d a b) d (x &&& y) (fl (x &&& y)) ∧
     WritesReg s i (.orOp i f d a b) d (x ||| y) (fl (x ||| y)) ∧
     WritesReg s i (.xor i f d a b) d (x ^^^ y) (fl (x ^^^ y)) ∧
     WritesReg s i (.andn i f d a b) d (x &&& ~~~y) (fl (x &&& ~~~y)) ∧
     WritesReg s i (.mul i f d a b) d (BitVec.ofNat 32 (x.toNat * y.toNat)) (fl (BitVec.ofNat 32 (x.toNat * y.toNat)))) ∧
  (∀ (s : State) (i : Iss) (f : Bool) (d a b : Reg), Fires s i { g := [a, b], wg := [d] } →
     let x := (s.issuer i).g a
     let n := ((s.issuer i).g b).toNat % 32
     let fl := fun (r : Word) (c : Bool) => if f then some (r, decide (n ≠ 0) && c, false) else none
     WritesReg s i (.shl i f d a b) d (x <<< n) (fl (x <<< n) (x.getLsbD (32 - n))) ∧
     WritesReg s i (.shr i f d a b) d (x >>> n) (fl (x >>> n) (x.getLsbD (n - 1))) ∧
     WritesReg s i (.sar i f d a b) d (x.sshiftRight n) (fl (x.sshiftRight n) (x.getLsbD (n - 1))) ∧
     WritesReg s i (.rol i f d a b) d (x <<< n ||| x >>> (32 - n)) (fl (x <<< n ||| x >>> (32 - n))
       ((x <<< n ||| x >>> (32 - n)).getLsbD 0)))

/-- Division: the quotient rounds toward zero and the remainder has the dividend's sign; a zero divisor gives all ones
and the dividend, and with F sets V; C is 0. −2^31 by −1 gives −2^31 and 0 (R52). `div` of −2^31 by −1 gives −2^31 and
`rem` 0; −7 by 2 gives −3 and −1, 7 by −2 gives −3 and 1 (R52). -/
def Obligations.DivisionResults : Prop :=
  (∀ (s : State) (i : Iss) (f : Bool) (d a b : Reg), Fires s i { g := [a, b], wg := [d] } →
     let x := (s.issuer i).g a
     let y := (s.issuer i).g b
     let fl := fun r : Word => if f then some (r, false, decide (y = 0)) else none
     let q := if y = 0 then 0xFFFFFFFF else BitVec.ofInt 32 (x.toInt.tdiv y.toInt)
     let r := if y = 0 then x else BitVec.ofInt 32 (x.toInt - x.toInt.tdiv y.toInt * y.toInt)
     let qu := if y = 0 then 0xFFFFFFFF else x / y
     let ru := if y = 0 then x else x % y
     WritesReg s i (.div i f d a b) d q (fl q) ∧ WritesReg s i (.rem i f d a b) d r (fl r) ∧
     WritesReg s i (.divu i f d a b) d qu (fl qu) ∧ WritesReg s i (.remu i f d a b) d ru (fl ru)) ∧
  (divRes 0x80000000 0xFFFFFFFF = { val := 0x80000000, c := false, v := false } ∧
   remRes 0x80000000 0xFFFFFFFF = { val := 0, c := false, v := false } ∧
   (divRes (-7) 2).val = -3 ∧ (remRes (-7) 2).val = -1 ∧ (divRes 7 (-2)).val = -3 ∧ (remRes 7 (-2)).val = 1)

/-- The high words of products, minima, maxima, bit counts, extensions and `mov` leave the flags alone whatever F is
(R52, R65). The immediate forms: `addi` extends its sign, `andi`, `ori` and `xori` extend with zeros, shifts take the
amount, `movl` writes 16 bits extended with zeros and `movh` the upper half; none writes a flag (R47, R48; that the
shift class writes none is the model's reading, log 16). -/
def Obligations.FlaglessAndImmediateResults : Prop :=
  (∀ (s : State) (i : Iss) (f : Bool) (d a b : Reg), 
     (Fires s i { g := [a, b], wg := [d] } →
       let x := (s.issuer i).g a
       let y := (s.issuer i).g b
       WritesReg s i (.mulhs i f d a b) d (BitVec.ofInt 32 (x.toInt * y.toInt / 2 ^ 32)) none ∧
       WritesReg s i (.mulhu i f d a b) d (BitVec.ofNat 32 (x.toNat * y.toNat / 2 ^ 32)) none ∧
       WritesReg s i (.min i f d a b) d (if x.toInt < y.toInt then x else y) none ∧
       WritesReg s i (.max i f d a b) d (if x.toInt < y.toInt then y else x) none ∧
       WritesReg s i (.minu i f d a b) d (if x.toNat < y.toNat then x else y) none ∧
       WritesReg s i (.maxu i f d a b) d (if x.toNat < y.toNat then y else x) none) ∧
     (Fires s i { g := [a, 31], wg := [d] } →
       let x := (s.issuer i).g a
       WritesReg s i (.sextb i f d a) d ((x.setWidth 8).signExtend 32) none ∧
       WritesReg s i (.sexth i f d a) d ((x.setWidth 16).signExtend 32) none ∧
       WritesReg s i (.mov i f d a) d x none ∧
       WritesReg s i (.popc i f d a) d (BitVec.ofNat 32 ((List.range 32).countP fun k => x.getLsbD k)) none ∧
       (∀ n : Nat, n ≤ 32 → (∀ k, 32 - n ≤ k → k < 32 → x.getLsbD k = false) → (n < 32 → x.getLsbD (31 - n) = true) →
         WritesReg s i (.clz i f d a) d (BitVec.ofNat 32 n) none))) ∧
  (∀ (s : State) (i : Iss) (d a : Reg) (imm : BitVec 12) (amt : BitVec 5) (h : BitVec 16),
     (Fires s i { g := [a], wg := [d] } →
       let x := (s.issuer i).g a
       WritesReg s i (.addi i d a imm) d (x + imm.signExtend 32) none ∧
       WritesReg s i (.andi i d a imm) d (x &&& imm.setWidth 32) none ∧
       WritesReg s i (.ori i d a imm) d (x ||| imm.setWidth 32) none ∧
       WritesReg s i (.xori i d a imm) d (x ^^^ imm.setWidth 32) none ∧
       WritesReg s i (.shli i d a amt) d (x <<< amt.toNat) none ∧
       WritesReg s i (.shri i d a amt) d (x >>> amt.toNat) none ∧
       WritesReg s i (.sari i d a amt) d (x.sshiftRight amt.toNat) none ∧
       WritesReg s i (.roli i d a amt) d (x.rotateLeft amt.toNat) none) ∧
     (Fires s i { g := [31], wg := [d] } → WritesReg s i (.movl i d h) d (h.setWidth 32) none) ∧
     (Fires s i { g := [d], wg := [d] } →
       WritesReg s i (.movh i d h) d (h ++ ((s.issuer i).g d).setWidth 16) none))

/-- `cmp`, `cmpi` and `tst` write the flags and no register (R52). Predicates: `pcmp` judges its condition on the
flags that a − b would give and writes no flag, `pset` tells whether a register is not zero, `pnot` inverts, and
`pmov` reads both (R52, R65). -/
def Obligations.CompareAndPredicateResults : Prop :=
  (∀ (s : State) (i : Iss) (a b : Reg) (imm : BitVec 12),
     let x := (s.issuer i).g a
     let y := (s.issuer i).g b
     let z := imm.signExtend 32
     (Fires s i { g := [a, b] } →
       WritesReg s i (.cmp i a b) 31 0
         (some (x - y, decide (y.toNat ≤ x.toNat), decide ((x - y).toInt ≠ x.toInt - y.toInt))) ∧
       WritesReg s i (.tst i a b) 31 0 (some (x &&& y, false, false))) ∧
     (Fires s i { g := [a] } →
       WritesReg s i (.cmpi i a imm) 31 0
         (some (x - z, decide (z.toNat ≤ x.toNat), decide ((x - z).toInt ≠ x.toInt - z.toInt))))) ∧
  (∀ (s : State) (i : Iss) (cnd : BitVec 4) (d a b : Reg),
     let k := (s.issuer i).bank
     let sets := fun (c : Instr) (p : Bool) =>
       exec c s = .next (((s.atIssue i).setThread (tidOf i)
         ((s.issuer i).setBank (if d.getLsbD 0 then { k with p1 := p } else { k with p0 := p }))).retired (tidOf i))
     (Fires s i { g := [a, b] } →
       sets (.pcmp i cnd d a b) (condHolds (k.setFlags (subRes (k.reg a) (k.reg b) true)) cnd)) ∧
     (Fires s i { g := [a] } → sets (.pset i d a) (decide (k.reg a ≠ 0))) ∧
     (Fires s i {} → sets (.pnot i d) (!(if d.getLsbD 0 then k.p1 else k.p0))) ∧
     (Fires s i { wg := [d] } → WritesReg s i (.pmov i d) d (BitVec.ofNat 32 (k.p0.toNat + 2 * k.p1.toNat)) none))

/-- A branch to an aligned target: control goes there, `bl` and `jalr` leave the return address in g30, every other
register, the flags, the predicates and the loop levels keep their values, `b`, `jr` and `ret` abandon the open levels
whose body excludes the target and only those, and nothing else differs; a target that is not aligned raises
`UNALIGNED` (R40, R47, R60, R65). `loop` with a count of n > 0 opens a level over the `len` + 1 instructions after it
and goes on at the first of them; a count of 0 skips them; at depth 3 it raises `LOOP_NEST` (R58). -/
def Obligations.BranchAndLoopResults : Prop :=
  (∀ (s : State) (i : Iss) (off : BitVec 22) (a : Reg),
     let th := s.issuer i
     let goes := fun (c : Instr) (u : Uses) (target : Word) (link drop : Bool) =>
       (Fires s i u → target.toNat % 4 = 0 →
         ∃ t, exec c s = .next t ∧ OnlyThread (s.atIssue i) t (tidOf i) ∧ OnlyBank th (t.thread (tidOf i)) ∧
           (t.thread (tidOf i)).pc = target ∧
           (∀ r, (t.thread (tidOf i)).g r = if link = true ∧ r = 30 then th.pc + 4 else th.g r) ∧
           { (t.thread (tidOf i)).bank with
               g := th.bank.g
               depth := th.bank.depth } = th.bank ∧
           (let d := (t.thread (tidOf i)).bank.depth.toNat
            if drop then
              d ≤ th.bank.depth.toNat ∧
              (d ≠ 0 → (th.bank.loop (d - 1)).ls ≤ target ∧ target ≤ (th.bank.loop (d - 1)).le) ∧
              ∀ k, d ≤ k → k < th.bank.depth.toNat →
                ¬ ((th.bank.loop k).ls ≤ target ∧ target ≤ (th.bank.loop k).le)
            else d = th.bank.depth.toNat)) ∧
       (Fires s i u → target.toNat % 4 ≠ 0 → exec c s = .next ((s.atIssue i).syncExc (tidOf i) 0x03 0 th.pc .scalar))
     goes (.b i off) {} (th.pc + BitVec.ofInt 32 (4 * off.toInt)) false true ∧
     goes (.bl i off) { wg := [30] } (th.pc + BitVec.ofInt 32 (4 * off.toInt)) true false ∧
     goes (.jr i a) { g := [a] } (th.g a) false true ∧ goes (.jalr i a) { g := [a], wg := [30] } (th.g a) true false ∧
     goes (.ret i) { g := [30] } (th.g 30) false true) ∧
  (∀ (s : State) (i : Iss) (cnt : LoopCount) (len : BitVec 10),
     let th := s.issuer i
     let b := th.bank
     let u : Uses := { g := match cnt with
       | .imm _ => []
       | .reg r => [r] }
     let n : Word := match cnt with
       | .imm k => k.setWidth 32
       | .reg r => th.g r
     let last := th.pc + BitVec.ofNat 32 (4 * (len.toNat + 1))
     Fires s i u →
       (b.depth = 3 → exec (.loop i cnt len) s = .next ((s.atIssue i).syncExc (tidOf i) 0x06 0 th.pc .scalar)) ∧
       (b.depth ≠ 3 →
         ∃ t, exec (.loop i cnt len) s = .next t ∧ OnlyThread (s.atIssue i) t (tidOf i) ∧
           OnlyBank th (t.thread (tidOf i)) ∧ (∀ r, (t.thread (tidOf i)).g r = th.g r) ∧
           (n = 0 → (t.thread (tidOf i)).pc = last + 4 ∧ (t.thread (tidOf i)).bank = b) ∧
           (n ≠ 0 → (t.thread (tidOf i)).pc = th.pc + 4 ∧ (t.thread (tidOf i)).bank.depth = b.depth + 1 ∧
             ((t.thread (tidOf i)).bank.loop b.depth.toNat).ls = th.pc + 4 ∧
             ((t.thread (tidOf i)).bank.loop b.depth.toNat).le = last ∧
             ((t.thread (tidOf i)).bank.loop b.depth.toNat).lc = n)))

/-- A synchronous exception of a thread in its main bank, outside ZN2 compatibility mode and with a valid descriptor
copy: the loads in flight complete (but one whose register a queued unit
instruction still uses, log 106), the thread goes on in its shadow bank at the handler with the descriptor's
privilege; g25 holds the low word of the tick, g26 the cause word (vector, interrupted privilege in [15:14],
interrupted `IE` in 16, unit in [20:18]), g27 the detail, g28 the return address, and g29 the descriptor's stack
pointer where the privilege rises, else the interrupted one; the flags and predicates are 0, no loop level is open,
`IE` stays where the descriptor keeps it and is else cleared, the main bank keeps its registers, and no other thread,
core or Spire differs (R57, R100 to R102). An exception whose copy is invalid enters as `MACHINE_CHECK` with the
vector as its detail; with that copy invalid too, the thread locks up: it is frozen at its address with both causes,
and a record of class 0x28 reports its core (R97, R113). -/
def Obligations.ExceptionEntry : Prop :=
  (∀ (s : State) (x : Tid) (cause : BitVec 8) (detail ret : Word) (unit : UnitCode),
     let th := s.thread x
     let d := Store.get Desc.reset th.ltn.copies cause.toNat
     let t := s.syncExc x cause detail ret unit
     let th' := t.thread x
     th.inShadow = false → th.ltn.legacy = false → d.invalid cause = false →
       { t with threads := s.threads } = s ∧ (∀ y, y ≠ x → t.thread y = s.thread y) ∧
       th'.inShadow = true ∧ th'.status = .running ∧ th'.pc = d.handler.setWidth 32 ∧
       th'.priv = Priv.ofCode (d.ctl.extractLsb' 12 2) ∧ th'.loads = (s.landAll x).loads ∧ th'.main = (s.landAll x).main ∧
       ((∀ l ∈ th.loads, s.loadBusy x l = false) → th'.loads = []) ∧
       th'.g 25 = s.ct.tick.setWidth 32 ∧
       th'.g 26 = BitVec.ofNat 32 (cause.toNat + th.priv.code.toNat * 2 ^ 14 + b2n th.ltn.ie * 2 ^ 16 +
         unit.code * 2 ^ 18) ∧
       th'.g 27 = detail ∧ th'.g 28 = ret ∧
       th'.g 29 = (if th.priv.code < th'.priv.code then d.sp else (s.landAll x).g 29) ∧
       (∀ r : Reg, r.toNat < 25 ∨ r = 30 → th'.g r = (s.landAll x).shadow.reg r) ∧
       th'.bank.n = false ∧ th'.bank.z = false ∧ th'.bank.c = false ∧ th'.bank.v = false ∧ th'.bank.p0 = false ∧
       th'.bank.p1 = false ∧ th'.bank.depth = 0 ∧ th'.ltn.ie = (d.ctl.getLsbD 15 && th.ltn.ie)) ∧
  (∀ (s : State) (x : Tid) (cause : BitVec 8) (detail ret : Word) (unit : UnitCode),
     let th := s.thread x
     let t := s.syncExc x cause detail ret unit
     let m := Store.get Desc.reset th.ltn.copies 0x3F
     (th.inShadow = false → th.ltn.legacy = false →
       (Store.get Desc.reset th.ltn.copies cause.toNat).invalid cause = true → m.invalid 0x3F = false →
       (t.thread x).pc = m.handler.setWidth 32 ∧ (t.thread x).g 27 = cause.setWidth 32 ∧
       ((t.thread x).g 26).setWidth 8 = (0x3F : BitVec 8) ∧ (t.thread x).g 28 = ret) ∧
     (th.inShadow = false → th.ltn.legacy = false →
       (Store.get Desc.reset th.ltn.copies cause.toNat).invalid cause = true → m.invalid 0x3F = true →
       (t.thread x).status = .lockedUp ∧ (t.thread x).pc = th.pc ∧ (t.thread x).ltn.cause2 = cause ∧
       (t.thread x).ltn.lockPc = th.pc ∧ (t.thread x).bank = th.bank ∧
       (t.quad (quadOf (spireOf x.core))).reports.length =
         (s.quad (quadOf (spireOf x.core))).reports.length + 1))

/-- A synchronous exception in the shadow window locks the thread up: it issues nothing further, its address and both
its banks stay as they were, the new cause and its address are recorded, a record of class 0x28, severity FATAL_TASK,
names its core, and no other thread of the device changes (R103). -/
def Obligations.ShadowExceptionLocksUp : Prop :=
  ∀ (s : State) (x : Tid) (cause : BitVec 8) (detail ret : Word) (unit : UnitCode), (s.thread x).inShadow = true →
    let th := s.thread x
    let t := s.syncExc x cause detail ret unit
    (t.thread x).status = .lockedUp ∧ (t.thread x).pc = th.pc ∧ (t.thread x).bank = th.bank ∧
    (t.thread x).ltn.cause1 = th.handling ∧ (t.thread x).ltn.cause2 = cause ∧ (t.thread x).ltn.lockPc = th.pc ∧
    (∃ r : Report, (t.quad (quadOf (spireOf x.core))).reports = (s.quad (quadOf (spireOf x.core))).reports ++ [r] ∧
      r.cls = 0x28 ∧ r.sev = 2 ∧ r.kind = 0 ∧ r.index = x.core.setWidth 12) ∧
    (∀ y, y ≠ x → t.thread y = s.thread y)

/-- Instructions that trap: `trap #n` enters at vector 0x80 + n with the next instruction as its return address, `brk`
at 0x08 and an unassigned encoding at 0x01 with their own, as does a `trap` whose reserved bits are not 0; `halt`
outside Machine raises `PRIVILEGE` and in Machine disables its thread; `nop` does nothing (R46, R65, R93, R95).
Waiting: `wait` ends at once and writes the wake set where it is not empty, else the thread sleeps until `waitWake`
finds it so; a fence that finds its accesses done completes, else holds its thread; `tick_end` of a tick-bound thread
reports done and sleeps until the edge, after its unit instructions, that of a free thread sleeps, and in the shadow
window it is illegal (R66, R68, R69, R73 to R76). -/
def Obligations.TrapAndWaitResults : Prop :=
  (∀ (s : State) (i : Iss) (n : BitVec 7) (low : BitVec 8) (w : Word), Fires s i {} →
     let x := tidOf i
     let next := (s.atIssue i).modThread x Thread.retire
     ((s.issuer i).inShadow = false → exec (.trap (.compute i) n 0) s =
       .next ((next.syncExc x (0x80 + n.setWidth 8) 0 (next.thread x).pc .scalar).accounted x)) ∧
     ((s.issuer i).inShadow = true → exec (.trap (.compute i) n 0) s =
       .next ((s.atIssue i).syncExc x (0x80 + n.setWidth 8) 0 (s.issuer i).pc .scalar)) ∧
     (low ≠ 0 → exec (.trap (.compute i) n low) s = .next ((s.atIssue i).syncExc x 0x01 0 (s.issuer i).pc .scalar)) ∧
     exec (.brk (.compute i)) s = .next ((s.atIssue i).syncExc x 0x08 0 (s.issuer i).pc .scalar) ∧
     ((Instr.unassignedEncoding i w).wf = true →
       exec (.unassignedEncoding i w) s = .next ((s.atIssue i).syncExc x 0x01 0 (s.issuer i).pc .scalar)) ∧
     ((s.issuer i).priv ≠ .machine →
       exec (.halt i) s = .next ((s.atIssue i).syncExc x 0x02 0 (s.issuer i).pc .scalar)) ∧
     ((s.issuer i).priv = .machine → (s.issuer i).status = .running →
       ∃ t, exec (.halt i) s = .next t ∧ OnlyThread (s.atIssue i) t x ∧ (t.thread x).status = .disabled ∧
         (t.thread x).enabled = false ∧ (t.thread x).loads = []) ∧
     WritesReg s i (.nop i) 31 0 none) ∧
  (∀ (s : State) (i : Iss) (d : Reg),
     let x := tidOf i
     let a := s.atIssue i
     let sleeps := fun (c : Instr) (u : State) (b : Block) => exec c s = .next ((u.accounted x).modThread x fun th =>
       { th with status := .blocked b })
     (Fires s i { wg := [d] } →
       let f := a.fireTimer x
       let w := f.wakeSet (f.thread x)
       (w ≠ 0 → exec (.wait i d) s = .next ((f.modThread x fun th => th.setG d w).retired x)) ∧
       (w = 0 → sleeps (.wait i d) f (.wait d))) ∧
     (Fires s i {} →
       ((s.issuer i).loads.all (·.arrived) = true → WritesReg s i (.fenceL i) 31 0 none) ∧
       ((s.issuer i).loads.all (·.arrived) = false → sleeps (.fenceL i) a .fenceL) ∧
       (a.fenceSDone x = true → exec (.fenceS i) s = .next ((a.fenceSEnd x).retired x)) ∧
       (a.fenceSDone x = false → sleeps (.fenceS i) a .fenceS) ∧
       ((s.issuer i).posted = 0 → exec (.fenceD i) s = .next ((a.modThread x Thread.fenceDEnd).retired x)) ∧
       ((s.issuer i).posted ≠ 0 → sleeps (.fenceD i) a .fenceD) ∧
       ((s.issuer i).inShadow = true →
         exec (.tickEnd i) s = .next (a.syncExc x 0x01 0 (s.issuer i).pc .scalar)) ∧
       ((s.issuer i).inShadow = false → (s.issuer i).ctl.bound = true → a.queuedOf x ≠ [] →
         sleeps (.tickEnd i) a .tickEnd) ∧
       ((s.issuer i).inShadow = false → ((s.issuer i).ctl.bound = true → a.queuedOf x = []) →
         ∃ t, exec (.tickEnd i) s = .next t ∧ OnlyThread a t x ∧ (t.thread x).status = .tickSleep ∧
           (t.thread x).pc = (s.issuer i).retire.pc ∧
           (t.thread x).doneTick = (if (s.issuer i).ctl.bound then ! a.edgeDue else (s.issuer i).doneTick))) ∧
     ∀ y : Tid, (s.thread y).status = .blocked (.wait d) →
       (s.wakeSet (s.thread y) = 0 → exec (.waitWake y) s = .next s) ∧
       (s.wakeSet (s.thread y) ≠ 0 → ∃ t, exec (.waitWake y) s = .next t ∧ (t.thread y).status = .running ∧
         (d ≠ 31 → (t.thread y).g d = s.wakeSet (s.thread y)) ∧ { t with threads := s.threads } = s))

/-- `saveshadow` in the shadow window writes the 176-byte frame of the main bank below g29, copies the shadow bank to
the main bank with g29 at the frame and goes on there; outside the window it does nothing; `eret` in the shadow window
returns to g28 with the privilege and `IE` of g26; both, and `desc_sync`, raise `PRIVILEGE` in User (R98, R104, R106).
One reload of a descriptor copy takes the table's 16 bytes at `VDT` × 4096 + 16 × vector: the handler in the first 8,
the stack pointer and the control word in the next 4 each; a Machine copy, and the copy of a cause that the
device fixes at Machine, stays unless Machine reloads it (R92, R96, R98, R99). -/
def Obligations.ShadowReturnAndReload : Prop :=
  (∀ (s : State) (i : Iss) (r : Reg),
     let x := tidOf i
     let a := s.atIssue i
     let th := s.issuer i
     let frame := th.shadow.reg 29 - 176
     (Fires s i { g := [29] } → th.priv = .user →
       exec (.saveshadow i) s = .next (a.syncExc x 0x02 0 th.pc .scalar)) ∧
     (Fires s i { g := [26, 28, 29] } → th.priv = .user →
       exec (.eret (.compute i)) s = .next (a.syncExc x 0x02 0 th.pc .scalar)) ∧
     (Fires s i { g := [r] } → th.priv = .user →
       exec (.descSync i r) s = .next (a.syncExc x 0x02 0 th.pc .scalar)) ∧
     (Fires s i { g := [29] } → th.priv ≠ .user → th.inShadow = false →
       WritesReg s i (.saveshadow i) 31 0 none) ∧
     (Fires s i { g := [29] } → th.priv ≠ .user → th.inShadow = true → a.gPending x = false → frame.toNat % 8 = 0 →
       frame.toNat + 176 ≤ 0xC0000 →
       ∃ t, exec (.saveshadow i) s = .next t ∧ (t.thread x).inShadow = false ∧ (t.thread x).ctl.progress = 0 ∧
         (∀ k : Reg, (t.thread x).g k = if k = 29 then frame else th.shadow.reg k) ∧
         (∀ k, (frame.toNat ≤ k ∧ k < frame.toNat + 176) ∨ (t.core i.core).mem.byte k = (a.core i.core).mem.byte k) ∧
         (∀ k : Reg, k ≠ 31 → (t.core i.core).mem.readNat (frame.toNat + 4 * k.toNat) 4 =
           ((a.frameThread x).main.reg k).toNat) ∧
         (∀ c, c ≠ i.core → t.core c = a.core c) ∧ ∀ y, y ≠ x → t.thread y = a.thread y) ∧
     (Fires s i { g := [26, 28, 29] } → th.priv ≠ .user → th.inShadow = true →
       (a.lanternWrites x || a.gPending x) = false → (Priv.ofCode ((th.g 26).extractLsb' 14 2)).code ≤ th.priv.code →
       (th.g 28).toNat % 4 = 0 →
       ∃ t, exec (.eret (.compute i)) s = .next t ∧ OnlyThread a t x ∧ (t.thread x).inShadow = false ∧
         (t.thread x).pc = th.g 28 ∧ (t.thread x).priv = Priv.ofCode ((th.g 26).extractLsb' 14 2) ∧
         (t.thread x).ltn.ie = bit (th.g 26) 16 ∧ (t.thread x).main = th.main ∧ (t.thread x).shadow = th.shadow) ∧
     (Fires s i { g := [r] } → th.priv ≠ .user → (a.lanternOf x).legacy = true → fld (th.g r) 16 8 ≤ 256 →
       WritesReg s i (.descSync i r) 31 0 none) ∧
     (Fires s i { g := [r] } → th.priv ≠ .user → (a.lanternOf x).legacy = false → fld (th.g r) 16 8 ≤ 256 →
       exec (.descSync i r) s = .next ((a.reload x (decide (th.priv = .machine)) (fld (th.g r) 7 0)
         (if fld (th.g r) 16 8 = 0 then 256 else fld (th.g r) 16 8)).retired x))) ∧
  (∀ (s : State) (x : Tid) (mach : Bool) (v : Nat),
     let m := (s.core x.core).mem
     let at0 := (s.thread x).ltn.vdt.toNat * 4096 + 16 * v
     let old := Store.get Desc.reset (s.thread x).ltn.copies v
     let new := Store.get Desc.reset ((s.reloadOne x mach v).thread x).ltn.copies v
     let keeps := decide (fld old.ctl 13 12 = 3) || fixedMachine (BitVec.ofNat 8 v)
     (keeps = true → mach = false → s.reloadOne x mach v = s) ∧
     ((keeps = false ∨ mach = true) → at0 + 16 ≤ 0xC0000 → m.poisoned at0 16 = false →
       new.handler.toNat = m.readNat at0 8 ∧ new.sp.toNat = m.readNat (at0 + 8) 4 ∧
       new.ctl.toNat = m.readNat (at0 + 12) 4 ∧
       ∀ w, w ≠ v → Store.get Desc.reset ((s.reloadOne x mach v).thread x).ltn.copies w =
         Store.get Desc.reset (s.thread x).ltn.copies w) ∧
     ((keeps = false ∨ mach = true) → 0xC0000 < at0 + 16 → new.invalid (BitVec.ofNat 8 v) = true))

/-- Scalar and vector loads: the value read now joins the thread's loads in flight, to land after the second (scalar)
or third (vector) following instruction; `ld` extends the sign, `ldu` extends with zeros, 8 bytes fill an even pair,
`vldb` fills every 64-bit lane; no register, no byte of memory and no other thread changes; a misaligned address
raises `UNALIGNED`, one outside Local `LOCAL_RANGE`, and an odd pair `ILLEGAL_INSTR` (R40, R49, R53 to R55, R64). A
load in flight lands when its following instructions have issued: the next instruction finds its destination written,
the other registers as they were and the load gone; the data of a load arrive by `loadDataArrival`, which touches
nothing else but a `fence.l` that waited for the last of them, which completes (R54, R55, R73). Stores: the low bytes of the register, of the even pair or of the vector register go to the
computed address, lowest byte first; every other byte of every memory, every register and every other thread keeps its
value; addresses raise as for loads, but poison does not (R49, R64, R228). An access of Local that an earlier stream
or matrix copy of its thread still holds does not issue: the cycle counts in the core's `MEM_RTWAIT`, and the thread
stays at it (R213, R214). -/
def Obligations.LoadAndStoreResults : Prop :=
  (∀ (s : State) (i : Iss) (d base : Reg) (size : BitVec 2) (off : BitVec 10),
     let x := tidOf i
     let a := s.atIssue i
     let th := s.issuer i
     let m := (s.core i.core).mem
     let loads := fun (c : Instr) (w : List Reg) (n al left : Nat) (odd : Bool) (unit : UnitCode) (addr : Word)
         (g : List (Reg × Word)) (v : Option (Reg × VReg)) =>
       Fires s i { g := [base], wg := w } →
       (odd = true → exec c s = .next (a.syncExc x 0x01 0 th.pc unit)) ∧
       (odd = false → addr.toNat % al ≠ 0 → exec c s = .next (a.syncExc x 0x03 addr th.pc unit)) ∧
       (odd = false → addr.toNat % al = 0 → 0xC0000 < addr.toNat + n →
         exec c s = .next (a.syncExc x 0x04 addr th.pc unit)) ∧
       (odd = false → addr.toNat % al = 0 → addr.toNat + n ≤ 0xC0000 → a.mustWait x addr.toNat n false = false →
         m.poisoned addr.toNat n = true →
         exec c s = .next (a.syncExc x 0x05 addr th.pc unit)) ∧
       (odd = false → addr.toNat % al = 0 → addr.toNat + n ≤ 0xC0000 → m.poisoned addr.toNat n = false →
         a.mustWait x addr.toNat n false = false →
         ∃ t, exec c s = .next t ∧ OnlyThread a t x ∧
           (t.thread x).loads = (th.loads.map fun l => { l with left := l.left - 1 }) ++
             [{ shadow := th.inShadow, g := g, v := v, left := left, arrived := false }] ∧
           (∀ r, (t.thread x).g r = th.g r) ∧ (t.thread x).vr = th.vr)
     let n : Nat := 2 ^ size.toNat
     let addr := th.g base + BitVec.ofInt 32 (off.toInt * (n : Int))
     let vaddr := th.g base + BitVec.ofInt 32 (off.toInt * 64)
     let word := BitVec.ofNat (8 * n) (m.readNat addr.toNat n)
     let pair := [(d, BitVec.ofNat 32 (m.readNat addr.toNat 8)), (d + 1, BitVec.ofNat 32 (m.readNat addr.toNat 8 / 2 ^ 32))]
     let odd := decide (size = 3) && d.getLsbD 0
     let w := if size = 3 then [d, d + 1] else [d]
     loads (.ld i d base size off) w n n 2 odd .scalar addr (if size = 3 then pair else [(d, word.signExtend 32)]) none ∧
     loads (.ldu i d base size off) w n n 2 odd .scalar addr (if size = 3 then pair else [(d, word.setWidth 32)]) none ∧
     loads (.vld i d base off) [] 64 64 3 false .vector vaddr []
       (some (d, BitVec.ofNat 512 (m.readNat vaddr.toNat 64))) ∧
     loads (.vldb i d base off) [] 8 8 3 false .vector vaddr []
       (some (d, (BitVec.ofNat 64 (m.readNat vaddr.toNat 8)).replicate 8))) ∧
  ((∀ (s : State) (i : Iss) (d : Reg) (v : Word) (ar : Bool) (rest : List Load),
     (s.thread (tidOf i)).loads =
       { shadow := (s.thread (tidOf i)).inShadow, g := [(d, v)], v := none, left := 0, arrived := ar } :: rest →
     (∀ l ∈ rest, l.left ≠ 0) →
     (∀ r, (s.issuer i).g r = if r = 31 then 0 else if r = d then v else (s.thread (tidOf i)).g r) ∧
     (s.issuer i).loads = rest ∧ (s.issuer i).pc = (s.thread (tidOf i)).pc) ∧
   (∀ (s : State) (i : Iss) (u : Uses), (∃ l ∈ (s.thread (tidOf i)).loads, l.left = 0 ∧ l.arrived = false) →
     s.ready (tidOf i) u = false) ∧
   ∀ (s : State) (x : Tid) (n : Nat),
     let th := s.thread x
     let wants := ∃ k, k ≠ n ∧ ∃ l, th.loads[k]? = some l ∧ l.arrived = false
     ((∀ b, th.status = .blocked b → b = .fenceL ∧ wants) →
       ∃ t, exec (.loadDataArrival x n) s = .next t ∧ { t with threads := s.threads } = s ∧
         (∀ y, y ≠ x → t.thread y = s.thread y) ∧ ({ t.thread x with loads := th.loads } : Thread) = th ∧
         (t.thread x).loads.length = th.loads.length ∧
         ∀ (k : Nat) (l : Load), th.loads[k]? = some l →
           (t.thread x).loads[k]? = some { l with arrived := k == n || l.arrived }) ∧
     (th.status = .blocked .fenceL → ¬ wants →
       ∃ t, exec (.loadDataArrival x n) s = .next t ∧ { t with threads := s.threads } = s ∧
         (∀ y, y ≠ x → t.thread y = s.thread y) ∧ (t.thread x).status = .running ∧ (t.thread x).pc = th.retire.pc)) ∧
  (∀ (s : State) (i : Iss) (d base : Reg) (size : BitVec 2) (off : BitVec 10),
     let x := tidOf i
     let a := s.atIssue i
     let th := s.issuer i
     let stores := fun (c : Instr) (u : Uses) (n : Nat) (odd : Bool) (unit : UnitCode) (addr : Word) (v : Nat) =>
       Fires s i u →
       (odd = true → exec c s = .next (a.syncExc x 0x01 0 th.pc unit)) ∧
       (odd = false → addr.toNat % n ≠ 0 → exec c s = .next (a.syncExc x 0x03 addr th.pc unit)) ∧
       (odd = false → addr.toNat % n = 0 → 0xC0000 < addr.toNat + n →
         exec c s = .next (a.syncExc x 0x04 addr th.pc unit)) ∧
       (odd = false → addr.toNat % n = 0 → addr.toNat + n ≤ 0xC0000 → a.mustWait x addr.toNat n true = false →
         ∃ t, exec c s = .next t ∧
           { t with
               threads := s.threads
               cores := s.cores } = s ∧
           (t.core i.core).mem.readNat addr.toNat n = v % 2 ^ (8 * n) ∧
           (∀ k, (addr.toNat ≤ k ∧ k < addr.toNat + n) ∨
             (t.core i.core).mem.byte k = (s.core i.core).mem.byte k) ∧
           { t.core i.core with
               mem := (s.core i.core).mem
               lastIssue := (s.core i.core).lastIssue } = s.core i.core ∧
           (∀ c, c ≠ i.core → t.core c = s.core c) ∧ (∀ y, y ≠ x → t.thread y = s.thread y) ∧
           OnlyBank th (t.thread x) ∧ (∀ r, (t.thread x).g r = th.g r))
     let n : Nat := 2 ^ size.toNat
     let addr := th.g base + BitVec.ofInt 32 (off.toInt * (n : Int))
     stores (.st i d base size off) { g := if size = 3 then [d, d + 1, base] else [d, base] } n
       (decide (size = 3) && d.getLsbD 0) .scalar addr
       (if size = 3 then (th.g d).toNat + (th.g (d + 1)).toNat * 2 ^ 32 else (th.g d).toNat) ∧
     stores (.vst i d base off) { g := [base], v := [d] } 64 false .vector
       (th.g base + BitVec.ofInt 32 (off.toInt * 64)) (th.v d).toNat) ∧
  (∀ (s : State) (i : Iss) (d base : Reg) (off : BitVec 10),
     let a := s.atIssue i
     let addr := ((s.issuer i).g base + BitVec.ofInt 32 (off.toInt * 4)).toNat
     addr % 4 = 0 → addr + 4 ≤ 0xC0000 →
     (Fires s i { g := [base], wg := [d] } → a.mustWait (tidOf i) addr 4 false = true →
       exec (.ld i d base 2 off) s = .next (a.bump .memRtwait i.core.toNat 0 1)) ∧
     (Fires s i { g := [d, base] } → a.mustWait (tidOf i) addr 4 true = true →
       exec (.st i d base 2 off) s = .next (a.bump .memRtwait i.core.toNat 0 1)))

/-- The new word that each atomic operation leaves, on words of 32 or 64 bits (R77, R79). An atomic on the thread's
own Local: it writes the old word to d and the operation's new word to memory, in one command; every other byte of
memory, every other register and every other thread keeps its value; a scope that the space does not take, unassigned
target bits or an odd register where a pair is needed raise `ILLEGAL_INSTR`, a misaligned address `UNALIGNED` (R77 to
R79). An atomic on the thread's own Drum holds its thread and sends a request to the Spire's Cupola; at its home the
operation is performed on the word in one command and the old value goes back, a poisoned word, and one whose operand was poisoned on
its way, answers 0x05 and keeps its value, a domain that takes no work answers 0x12; the thread that waits under the answer's tag takes the old value
and goes on, or raises the cause (R78, R79, R202, R223). -/
def Obligations.AtomicResults : Prop :=
  (∀ (w : Nat) (old cmp v : BitVec w),
     let r := fun (op : AOp) => op.apply w old.toNat cmp.toNat v.toNat
     r .swap = v.toNat ∧ r .cas = (if old = cmp then v else old).toNat ∧ r .add = (old + v).toNat ∧
     r .and = (old &&& v).toNat ∧ r .or = (old ||| v).toNat ∧ r .xor = (old ^^^ v).toNat ∧
     (0 < w → r .min = (if v.toInt < old.toInt then v else old).toNat) ∧
     (0 < w → r .max = (if old.toInt < v.toInt then v else old).toNat) ∧ r .minu = min old.toNat v.toNat ∧
     r .maxu = max old.toNat v.toNat ∧ r .load = old.toNat ∧ r .store = v.toNat) ∧
  (∀ (s : State) (i : Iss) (op : AOp) (c : Instr) (wide : Bool) (scope : BitVec 3) (d a b : Reg),
     let who := By.compute i
     (op, c) ∈ [(.swap, Instr.aswap who wide scope d a b), (.cas, Instr.acas who wide scope d a b),
       (.add, Instr.aadd who wide scope d a b), (.and, Instr.aand who wide scope d a b),
       (.or, Instr.aor who wide scope d a b), (.xor, Instr.axor who wide scope d a b),
       (.min, Instr.amin who wide scope d a b), (.max, Instr.amax who wide scope d a b),
       (.minu, Instr.aminu who wide scope d a b), (.maxu, Instr.amaxu who wide scope d a b),
       (.load, Instr.aload who wide scope d a b), (.store, Instr.astore who wide scope d a b),
       (.fadd, Instr.afadd who wide scope d a b)] →
     let x := tidOf i
     let s0 := s.atIssue i
     let th := s.issuer i
     let n : Nat := if wide then 8 else 4
     let addr := (th.g a).toNat
     let hi := th.g (a + 1)
     let m := (s.core i.core).mem
     let legal := a.getLsbD 0 = false ∧ (wide = true → d.getLsbD 0 = false ∧ b.getLsbD 0 = false)
     let old := m.readNat addr n
     let reg := fun r : Reg => (th.g r).toNat + (if wide then (th.g (r + 1)).toNat * 2 ^ 32 else 0)
     Fires s i { g := [a, a + 1, b, d] ++ (if wide then [b + 1, d + 1] else []) } →
       (¬ legal → exec c s = .next (s0.syncExc x 0x01 0 th.pc .scalar)) ∧
       (hi = 0 → (4 < scope.toNat ∨ 2 ^ 20 ≤ addr) → exec c s = .next (s0.syncExc x 0x01 0 th.pc .scalar)) ∧
       (legal → hi = 0 → scope.toNat ≤ 4 → addr < 2 ^ 20 → addr % n ≠ 0 →
         exec c s = .next (s0.syncExc x 0x03 (th.g a) th.pc .scalar)) ∧
       (legal → hi = 0 → scope.toNat ≤ 4 → addr % n = 0 → addr + n ≤ 0xC0000 → m.poisoned addr n = false →
         s0.mustWait x addr n (decide (op ≠ .load)) = false →
         ∃ t, exec c s = .next t ∧
           { t with
               threads := s.threads
               cores := s.cores } = s ∧
           (t.core i.core).mem.readNat addr n = op.apply (8 * n) old (reg d) (reg b) % 2 ^ (8 * n) ∧
           (∀ k, (addr ≤ k ∧ k < addr + n) ∨ (t.core i.core).mem.byte k = m.byte k) ∧
           (∀ c, c ≠ i.core → t.core c = s.core c) ∧ (∀ y, y ≠ x → t.thread y = s.thread y) ∧
           OnlyBank th (t.thread x) ∧
           ∀ r, (t.thread x).g r =
             if r = 31 then 0 else if r = d then BitVec.ofNat 32 old
             else if wide = true ∧ r = d + 1 then BitVec.ofNat 32 (old / 2 ^ 32) else th.g r)) ∧
  ((∀ (s : State) (i : Iss) (op : AOp) (wide : Bool) (scope : BitVec 3) (d a b : Reg),
     let th := s.issuer i
     let s0 := s.atIssue i
     let n : Nat := if wide then 8 else 4
     let addr := (th.g a).toNat
     let at64 := fun r : Reg => if wide then th.pair r else (th.g r).setWidth 64
     let req : Atomic := { op := op, wide := wide, scope := scope, target := th.pair a, cmp := at64 d, val := at64 b }
     Fires s i { g := [a, a + 1, b, d] ++ (if wide then [b + 1, d + 1] else []) } →
     a.getLsbD 0 = false → (wide = true → d.getLsbD 0 = false ∧ b.getLsbD 0 = false) → th.g (a + 1) = 0x10000 →
     scope.toNat ≤ 4 → addr < 2 ^ 23 → addr % n = 0 →
     let id := s0.newId
     exec (atomicInstr op (.compute i) wide scope d a b) s = .next
       (((id.2.send i.core (cupolaRouter (spireOf i.core)) false false th.tenant
           (.atomic (.thread (tidOf i)) id.1 req (BitVec.ofNat 64 (s.drumAddr (spireOf i.core) addr)))).accounted (tidOf i)).modThread
         (tidOf i) fun th => { th with status := .blocked (.atomic d req id.1) })) ∧
   (∀ (s : State) (id tag : Nat) (p : Packet) (x : Tid) (q : Atomic) (phys : DWord), s.arrived? id = some p →
     p.body = .atomic (.thread x) tag q phys → q.space = 1 →
     let u := s.consume id
     let sp := spireOf x.core
     let n : Nat := if q.wide then 8 else 4
     let m := (u.spire sp).drum
     let answer := fun (v : State) (old : Nat) (f : Option (BitVec 8)) =>
       exec (.atomicAtHome id) s =
         .next (v.send p.dst p.src true true p.tenant (.atomicAnswer (.thread x) tag (BitVec.ofNat 64 old) f))
     (p.bad = true → answer u 0 (some 0x05)) ∧
     (p.bad = false → u.domOpen sp.toNat = false → answer u 0 (some 0x12)) ∧
     (p.bad = false → u.domOpen sp.toNat = true → m.poisoned phys.toNat n = true → answer u 0 (some 0x05)) ∧
     (p.bad = false → u.domOpen sp.toNat = true → m.poisoned phys.toNat n = false → q.op ≠ .load →
       answer (u.modSpire sp fun k =>
         { k with
             drum := m.storeNat phys.toNat n (q.op.apply (8 * n) (m.readNat phys.toNat n) (q.cmp.toNat % 2 ^ (8 * n))
               (q.val.toNat % 2 ^ (8 * n))) }) (m.readNat phys.toNat n) none)) ∧
   ∀ (s : State) (id tag : Nat) (p : Packet) (x : Tid) (old : DWord) (f : Option (BitVec 8)) (d : Reg) (q : Atomic),
     s.arrived? id = some p → p.body = .atomicAnswer (.thread x) tag old f → (s.thread x).status = .blocked (.atomic d q tag) →
     (f = none → ∃ t, exec (.atomicResponse id) s = .next t ∧ (t.thread x).status = .running ∧
       ∀ r, (t.thread x).g r = if r = 31 then 0 else if q.wide = true ∧ r = d + 1 then old.extractLsb' 32 32
         else if r = d then old.setWidth 32 else (s.thread x).g r) ∧
     ∀ cause, f = some cause →
       exec (.atomicResponse id) s = .next ((s.consume id).syncExc x cause 0 (s.thread x).pc .scalar))

/-- `ctlr` writes the register's value to g, `ctlw`, `ctls` and `ctlc` write g, the register with g's bits set, and
the register with them cleared, each in one command; an unassigned number raises `ILLEGAL_INSTR`, a privilege below
the register's, or below Supervisor on the path 0x400, `PRIVILEGE`; a register without a write column takes no write
(R41, R42, R80). What the thread's control registers hold and take: `TSTAT` shows the flags and predicates in [5:0]
and the privilege in [9:8] and takes the flags alone; `AMAX`, `ISSUED` and `STALLED` clear when read; `FPSTAT` bits
clear where written with 1; `TENTRY` keeps no low bits; a loop register, `SEND_TIMEOUT` and the wake mask read as
written; the compare value takes both halves when its high half is written (R42 to R44). Control space from a thread:
`ctlrx` and `ctlwx` check their low bits, Supervisor and alignment, in that order; `ctlrx` sends its request
and holds the thread; the block answers the request that has reached it with the register's value, `DOMAIN_CLOSING` or
`STALE_EPOCH`; `ctlrxResponse` writes the value that has come back to the register, or raises the cause; `ctlwx` sends a posted write and goes on, one of `CUP_DONE`
or of its own router's `SMR_PREADY` once the thread's work is done (R247, R324); the write arrives, is performed or
refused (one whose value was poisoned on its way with 0x05, the model's choice, log 29), and is acknowledged (R81,
R209, R313). -/
def Obligations.ControlRegisters : Prop :=
  (∀ (s : State) (i : Iss) (g : Reg) (num : BitVec 12),
     let x := tidOf i
     let a := s.atIssue i
     let th := s.issuer i
     let who := By.compute i
     let reads := Fires s i { wg := [g] }
     let writes := Fires s i { g := [g] }
     let raises := fun (c : Instr) (cause : BitVec 8) => exec c s = .next (a.syncExc x cause 0 th.pc .scalar)
     let path := 0x400 ≤ num.toNat ∧ num.toNat < 0x800
     let n := if path then num.toNat % 256 else num.toNat
     let y : Tid := if path then { x with thread := BitVec.ofNat 2 (num.toNat / 256) } else x
     let may := fun p : Priv => p.code ≤ th.priv.code ∧ (path → th.priv ≠ .user)
     ((tregPriv n = none ∨ 0x800 ≤ num.toNat) →
       (reads → raises (.ctlr who g num) 0x01) ∧
       (writes → raises (.ctlw who g num) 0x01 ∧ raises (.ctls who g num) 0x01 ∧ raises (.ctlc who g num) 0x01)) ∧
     ∀ (rd : Priv) (wr : Option Priv), tregPriv n = some (rd, wr) → num.toNat < 0x800 →
       (reads → ¬ may rd → raises (.ctlr who g num) 0x02) ∧
       (reads → may rd → exec (.ctlr who g num) s =
         .next (((a.readTreg y x n).2.modThread x fun th => th.setG g (a.readTreg y x n).1).retired x)) ∧
       (∀ p, writes → wr = some p → ¬ may p →
         raises (.ctlw who g num) 0x02 ∧ raises (.ctls who g num) 0x02 ∧ raises (.ctlc who g num) 0x02) ∧
       (∀ p, writes → wr = some p → may p →
         let old := if n = 0x002 then 0 else if n = 0x004 then (a.thread y).ctl.cmpLoHeld else (a.readTreg y x n).1
         exec (.ctlw who g num) s = .next ((a.writeTreg y n (th.g g)).retired x) ∧
         exec (.ctls who g num) s = .next ((a.writeTreg y n (old ||| th.g g)).retired x) ∧
         exec (.ctlc who g num) s =
           .next ((a.writeTreg y n (if n = 0x002 then th.g g else old &&& ~~~ th.g g)).retired x)) ∧
       (writes → wr = none → may rd → WritesReg s i (.ctlw who g num) 31 0 none ∧
         WritesReg s i (.ctls who g num) 31 0 none ∧ WritesReg s i (.ctlc who g num) 31 0 none)) ∧
  (∀ (s : State) (x r : Tid) (v : Word),
     let th := s.thread x
     let read := fun n => (s.readTreg x r n).1
     let after := fun n => ((s.readTreg x r n).2.thread x).ctl
     let w := fun n => (s.writeTreg x n v).thread x
     (∀ k, k < 6 → (read 0x000).getLsbD k =
       [th.bank.v, th.bank.c, th.bank.z, th.bank.n, th.bank.p0, th.bank.p1].getD k false) ∧
     (read 0x000).extractLsb' 8 2 = th.priv.code ∧ (read 0x000).getLsbD 10 = th.inShadow ∧
     read 0x003 = th.ctl.amax ∧ (after 0x003).amax = 0 ∧ read 0x00E = th.ctl.issued ∧ (after 0x00E).issued = 0 ∧
     read 0x00F = th.ctl.stalled ∧ (after 0x00F).stalled = 0 ∧ read 0x102 = BitVec.ofNat 32 (r.core.toNat + r.thread.toNat * 2 ^ 11) ∧
     (w 0x000).bank.v = v.getLsbD 0 ∧ (w 0x000).bank.c = v.getLsbD 1 ∧ (w 0x000).bank.z = v.getLsbD 2 ∧
     (w 0x000).bank.n = v.getLsbD 3 ∧ (w 0x000).bank.p0 = v.getLsbD 4 ∧ (w 0x000).bank.p1 = v.getLsbD 5 ∧
     (w 0x000).priv = th.priv ∧ (∀ q, (w 0x000).g q = th.g q) ∧
     (w 0x002).ctl.fpstat = th.ctl.fpstat &&& ~~~ (v.setWidth 5) ∧ (w 0x006).ctl.wakeMask = v ∧
     (w 0x008).ctl.sendTimeout = v ∧ (w 0x00A).ctl.tentry = v &&& 0xFFFFFFFC ∧
     (4 < v.toNat % 8 → (w 0x001).ctl.rmode = th.ctl.rmode) ∧
     (v.toNat % 8 ≤ 4 → (w 0x001).ctl.rmode = v.setWidth 3) ∧
     (∀ k, k < 3 → ((w (0x010 + k)).bank.loop k).ls = v &&& 0xFFFFFFFC ∧
       ((w (0x014 + k)).bank.loop k).le = v &&& 0xFFFFFFFC ∧ ((w (0x018 + k)).bank.loop k).lc = v) ∧
     (w 0x01B).bank.depth = v.setWidth 2 ∧ (w 0x004).ctl.cmp = th.ctl.cmp ∧
     ((((s.writeTreg x 0x004 v).writeTreg x 0x005 0x12).thread x).ctl.cmp = (0x12 : Word) ++ v) ∧
     ∀ n y, y.core ≠ x.core → (s.writeTreg x n v).thread y = s.thread y) ∧
  ((∀ (s : State) (i : Iss) (g r : Reg) (low : BitVec 7),
     let x := tidOf i
     let a := s.atIssue i
     let th := s.issuer i
     let addr := th.g r
     let reads := Fires s i { g := [r], wg := [g] }
     let writes := Fires s i { g := [g, r] }
     let both := fun (cause : BitVec 8) (detail : Word) =>
       (reads → exec (.ctlrx i g r low) s = .next (a.syncExc x cause detail th.pc .scalar)) ∧
       (writes → exec (.ctlwx i g r low) s = .next (a.syncExc x cause detail th.pc .scalar))
     (low ≠ 0 → both 0x01 0) ∧ (low = 0 → th.priv = .user → both 0x02 0) ∧
     (low = 0 → th.priv ≠ .user → addr.toNat % 4 ≠ 0 → both 0x03 addr) ∧
     (low = 0 → th.priv ≠ .user → addr.toNat % 4 = 0 →
       (reads →
         exec (.ctlrx i g r low) s = .next
           (((a.newId.2.send i.core (addrRouter addr.toNat) false false th.tenant (.ctlRead x s.nextId addr)).accounted x).modThread
             x fun th => { th with status := .blocked (.ctlrx g addr s.nextId) })) ∧
       (writes → heldWrite x addr = true → a.heldReady x addr = false →
         exec (.ctlwx i g r low) s = .next ((a.accounted x).modThread x fun th =>
           { th with status := .blocked (.cupDone addr (th.g g)) })) ∧
       (writes → (heldWrite x addr = true → a.heldReady x addr = true) →
         ∃ t, exec (.ctlwx i g r low) s = .next t ∧ (t.thread x).posted = th.posted + 1 ∧
           (∀ q, (t.thread x).g q = th.g q) ∧ (∀ y, y ≠ x → t.thread y = s.thread y) ∧
           (∃ p : Packet, t.flight = s.flight ++ [p] ∧ p.id = s.nextId ∧ p.src = i.core ∧ p.pos = i.core ∧
             p.dst = addrRouter addr.toNat ∧ p.resp = false ∧ p.body = .ctlWrite x th.priv addr (th.g g))))) ∧
   (∀ (s : State) (x : Tid) (p : Packet) (tag : Nat) (addr : Word), s.ctlPacket (ctlReadOf x (some addr)) = some p →
     p.body = .ctlRead x tag addr →
     let u := s.consume p.id
     let answer := fun (t : State) (v : Word) (f : Refuse) => exec (.readClearAccess (.thread x) addr) s =
       .next (t.send p.dst p.src true true p.tenant (.ctlData x tag v f))
     addr.toNat % 4 = 0 →
       (u.addrOpen addr.toNat = false → answer u 0 (some (0x12, addr))) ∧
       (u.addrOpen addr.toNat = true → u.retiredAt addr.toNat = true → answer u 0 (some (0x13, addr))) ∧
       (u.addrOpen addr.toNat = true → u.retiredAt addr.toNat = false →
         answer (u.readCtl (.thread x) addr.toNat).2 (u.readCtl (.thread x) addr.toNat).1 none)) ∧
   (∀ (s : State) (x : Tid) (p : Packet) (d : Reg) (addr v : Word) (tag : Nat) (f : Refuse),
     s.ctlPacket (ctlDataOf x) = some p → p.body = .ctlData x tag v f →
     (s.thread x).status = .blocked (.ctlrx d addr tag) → s.spireRuns (spireOf x.core) = true →
     (∀ c a, f = some (c, a) →
       exec (.ctlrxResponse x) s = .next ((s.consume p.id).syncExc x c a (s.thread x).pc .other)) ∧
     (f = none → ∃ t, exec (.ctlrxResponse x) s = .next t ∧ (t.thread x).status = .running ∧
       { t with threads := s.threads } = s.consume p.id ∧
       ∀ r, (t.thread x).g r = if r = 31 then 0 else if r = d then v else (s.thread x).g r)) ∧
   ∀ (s : State) (id : Nat) (p : Packet) (x : Tid) (pr : Priv) (addr v : Word), s.arrived? id = some p →
     p.body = .ctlWrite x pr addr v →
     let u := s.consume id
     let w := u.writeCtl (.thread x) pr addr.toNat v
     (p.bad = false →
       exec (.controlWriteArrival id) s = .next (w.1.send p.dst p.src true false p.tenant (.ack (.thread x) w.2))) ∧
     (p.bad = true →
       exec (.controlWriteArrival id) s =
         .next (u.send p.dst p.src true false p.tenant (.ack (.thread x) (some (0x05, addr))))))

/-- What a write does to a plain register, bit by bit: an RW bit takes the value, a W1C bit clears and a W1S bit sets
where it is written with 1, every other bit stays (R11, R13). Control space from any agent: a write that the gate lets
through changes the register it names by its access codes, and no other register; a Duboette-only or Machine-only
register ignores other agents, a thread's write to a closed domain is refused with 0x12; a read answers the register
with what it hides masked, and clears the read-clear bits; the answer goes to the host as a completion of 4 bytes and
to JTAG as its data register; BAR0 at PF reaches the space at the same offset (R11 to R13, R209 to R212, R313, R405,
R406). BAR0 takes aligned accesses of 4 bytes only: another read completes as unsupported and another write is
discarded; JTAG answers its identity and its bypass whatever the debug access, and reaches the control space only with
debug access open (R406, R492). An address that is no multiple of 4 raises MISALIGNED in a core (R209); that the host's and
JTAG's reach nothing there is log entry 15. -/
def Obligations.ControlSpaceAccess : Prop :=
  (∀ (w : RegRow) (old v : Word) (k : Nat), k < 32 →
     (w.write old v).getLsbD k = ((((if w.rw.getLsbD k then v.getLsbD k else old.getLsbD k) &&
       ! (v.getLsbD k && w.w1c.getLsbD k))) || (v.getLsbD k && w.w1s.getLsbD k))) ∧
  (∀ (s : State) (r : CReg) (u k : Nat) (v : Word),
     r ∈ [.bicCtl, .pcLock, .tickLead, .pwrCclk, .pwrIdle, .cupClim, .matAbft, .trtCtl, .ehCtl, .skbStarve, .hifB2base,
       .sbdSsc, .smfRepair, .routeCtl] →
     let a := r.addr u k
     locate a = some (r, u, k) → splLockAt a = none → lanternAt a = none → a < 2 ^ 32 → a % 4 = 0 →
     let addr := BitVec.ofNat 32 a
     let shown := s.creg r u k &&& r.row.shown
     let wrote := fun (c : Instr) =>
       ∃ t, exec c s = .next t ∧
         { t with
             regs := s.regs
             threads := s.threads } = s ∧ (∀ y, t.thread y = s.thread y) ∧
         t.creg r u k = r.row.write (s.creg r u k) v ∧
         ∀ r' u' k', r'.addr u' k' ≠ a → t.creg r' u' k' = s.creg r' u' k'
     (∀ ag, s.gate ag (s.agentPriv ag) r u = .ok → wrote (.registerWrite ag addr v)) ∧
     (∀ ag, s.gate ag (s.agentPriv ag) r u = .ignore → (∀ x, ag ≠ .thread x) →
       exec (.registerWrite ag addr v) s = .next s) ∧
     (∀ x, s.blockOpen r u = false →
       exec (.registerWrite (.thread x) addr v) s =
         .next (s.modThread x fun th => th.holdRefusal (some (0x12, addr)))) ∧
     (∀ fn, s.hasWay (.host fn) r u = true → s.blockOpen r u = true → r.row.rc = 0 →
       exec (.readClearAccess (.host fn) addr) s = .next (s.hostOut (.data (leBytes 4 shown.toNat)))) ∧
     (s.domOpen 92 = true → a < 0x1000000 → s.blockOpen r u = true → bit (s.creg .keepBootstat 0 0) 7 = false →
       (r.row.rc = 0 → exec (.bar0Access 0 addr 4 none) s = .next (s.hostOut (.data (leBytes 4 shown.toNat)))) ∧
       (s.gate (.host 0) .machine r u = .ok → wrote (.bar0Access 0 addr 4 (some v))))) ∧
  (∀ (s : State) (fn : BitVec 4) (off : BitVec 32) (size : Nat) (v : Word) (addr : BitVec 32),
     (addr.toNat % 4 ≠ 0 → ∀ c ∈ [fun ag => Instr.registerWrite ag addr v, fun ag => Instr.readClearAccess ag addr],
       exec (c (.host fn)) s = .next s ∧ exec (c .jtag) s = .next s ∧
       (∀ b, exec (c (.belfry b)) s = .next (s.belfryEnter b 0x03 (addr.setWidth 64) 0)) ∧
       ∀ x, (s.thread x).status = .running →
         exec (c (.thread x)) s = .next (s.syncExc x 0x03 addr (s.thread x).pc .other)) ∧
     (s.domOpen 92 = true → (size ≠ 4 ∨ off.toNat % 4 ≠ 0) →
       exec (.bar0Access fn off size none) s = .next (s.hostOut .unsupported) ∧
       exec (.bar0Access fn off size (some v)) s = .next s) ∧
     (s.domOpen 93 = true →
       (∃ t, exec (.jtagInstruction .idcode) s = .next t ∧ t.keep.jtag = .idcode ∧
         (∃ w, t.keep.jtagOut = some w ∧ w.getLsbD 0 = true ∧ w.extractLsb' 12 16 = 0x2A04) ∧
         { t with keep := s.keep } = s) ∧
       (∃ t, exec (.jtagInstruction .bypass) s = .next t ∧ t.keep.jtag = .bypass ∧ { t with keep := s.keep } = s) ∧
       (s.dbgLevel = 0 → exec (.jtagInstruction .sample) s = .next s ∧ exec (.jtagInstruction .extest) s = .next s ∧
         exec (.jtagInstruction (.access addr (some v))) s = .next s ∧
         exec (.jtagInstruction (.access addr none)) s = .next s)))

/-- The source that the Lantern delivers: it is pending, enabled, not on the stack, and its priority value is below
the running priority; no deliverable source has a lower priority value, nor an equal one with a lower number (R109,
R115). Delivery to a thread that runs in its main bank: the source and its priority go onto the stack, an edge
source's pending bit clears, and the handler of vector 0x40 + n starts with the interrupted address as its return;
with nothing deliverable, nothing happens; a slot underrun goes ahead of every interrupt and enters at vector 0x39 (R109, R115, R116, R523). -/
def Obligations.LanternDelivery : Prop :=
  (∀ (s : State) (th : Thread) (n : Nat), s.bestSource th = some n →
     n < 32 ∧ s.pendBit th n = true ∧ th.ltn.en.getLsbD n = true ∧ th.ltn.onStack n = false ∧
     th.ltn.prioOf n < th.ltn.running ∧ (th.ltn.ie = true ∨ th.ltn.atom = .expired) ∧ th.ltn.stack.length < 16 ∧
     ∀ m, m < 32 → s.deliverable th m = true →
       th.ltn.prioOf n < th.ltn.prioOf m ∨ (th.ltn.prioOf n = th.ltn.prioOf m ∧ n ≤ m)) ∧
  (∀ (s : State) (x : Tid) (u : BitVec 16),
     let th := s.thread x
     s.spireRuns (spireOf x.core) = true → th.status = .running →
     (th.ltn.machPend = [] → (s.bestSource th = none ∨ th.ltn.underDue = true) →
       exec (.interruptDelivery x u) s = .next s) ∧
     (th.inShadow = false → th.ltn.legacy = false → th.ltn.machPend = [] → th.ltn.underDue = false →
       ∀ n, s.bestSource th = some n →
         let vec := BitVec.ofNat 8 (0x40 + n)
         let d := Store.get Desc.reset th.ltn.copies vec.toNat
         d.invalid vec = false →
         ∃ t, exec (.interruptDelivery x u) s = .next t ∧ (t.thread x).inShadow = true ∧
           (t.thread x).pc = d.handler.setWidth 32 ∧ (t.thread x).g 28 = th.pc ∧
           (t.thread x).ltn.stack = (BitVec.ofNat 5 n, BitVec.ofNat 6 (th.ltn.prioOf n)) :: th.ltn.stack ∧
           (t.thread x).ltn.edge = (if levelSource n then th.ltn.edge else th.ltn.edge &&& ~~~ (1#32 <<< n)) ∧
           ∀ y, y ≠ x → t.thread y = s.thread y) ∧
     (th.inShadow = false → th.ltn.legacy = false → th.ltn.slotUnder = true → th.ltn.ie = true → th.ltn.machPend = [] →
       let d := Store.get Desc.reset th.ltn.copies 0x39
       d.invalid 0x39 = false →
       ∃ t, exec (.slotUnderrunDelivery x u) s = .next t ∧ (t.thread x).inShadow = true ∧
         (t.thread x).pc = d.handler.setWidth 32 ∧ (t.thread x).g 28 = th.pc ∧
         (t.thread x).g 27 = s.creg .smrUnderinfo x.core.toNat 0 ∧ (t.thread x).ltn.slotUnder = false))

/-- Writes to a Lantern that its gate lets through: end of interrupt pops the top source where the value names it and
raises PRIORITY_STACK where it does not; software sources latch from bits 23 to 16, pending edge sources clear where
written with 1, descriptors reload, a locked-up thread returns to Disabled with its stack and pending sources empty,
and the watch registers take their values; each leaves every other thread alone (R98, R114 to R118, R311). Thread and
core registers that agents write by commands of their own: `THREAD_EN` from Supervisor of the core arms the threads
whose bit is 1 and disables the others, a locked-up thread staying so; `TCFG` sets BOUND for the next edge and CMPEN
at once; the compare value takes effect with its high half; a read of `CYC_LO` latches the high half; `ICCTL` sets the
way locks, or drops every line; the compare timer fires once when its cycle has come, and an atomic section ends when
its time has (R37, R43, R44, R66, R88, R108, R114, R522). -/
def Obligations.LanternAndThreadCommands : Prop :=
  (∀ (s : State) (ag : Agent) (x : Tid) (v : Word) (k : BitVec 3),
     let th := s.thread x
     let ltn := fun (c : Instr) (l : Lantern) => ∃ t, exec c s = .next t ∧ (t.thread x).ltn = l ∧
       { t.thread x with
           ltn := th.ltn } = th ∧ ∀ y, y ≠ x → t.thread y = s.thread y
     (s.lanternGate ag x false = .ok →
       (∀ e rest, th.ltn.stack = e :: rest → e.1 = v.setWidth 5 →
         ∃ t, exec (.ltnEoiWrite ag x v) s = .next t ∧ (t.thread x).ltn.stack = rest ∧
           (t.thread x).ltn.edge = th.ltn.edge ∧ (t.thread x).pc = th.pc ∧ ∀ y, y ≠ x → t.thread y = s.thread y) ∧
       ((∀ e rest, th.ltn.stack = e :: rest → e.1 ≠ v.setWidth 5) →
         exec (.ltnEoiWrite ag x v) s = .next (s.raiseMachine x 0x3A ((v.setWidth 5).setWidth 32))) ∧
       ltn (.ltnSwsetWrite ag x v) { th.ltn with edge := th.ltn.edge ||| (v &&& 0x00FF0000) } ∧
       ltn (.ltnPclrWrite ag x v) { th.ltn with edge := th.ltn.edge &&& ~~~ v } ∧
       (fld v 16 8 ≤ 256 → (s.lanternOf x).legacy = false →
         exec (.ltnSyncWrite ag x v) s = .next (s.reload x (decide (s.agentPriv ag = .machine)) (fld v 7 0)
           (if fld v 16 8 = 0 then 256 else fld v 16 8))) ∧
       (256 < fld v 16 8 → exec (.ltnSyncWrite ag x v) s = .next s) ∧
       (∃ t, exec (.ltnWatchWrite ag x k v) s = .next t ∧
         Store.get 0 (t.thread x).ltn.watch k.toNat = v &&& 0x8000FFFF ∧
         (∀ j, j ≠ k.toNat → Store.get 0 (t.thread x).ltn.watch j = Store.get 0 th.ltn.watch j) ∧
         (bit v 31 = false → (t.thread x).ltn.watchHigh.getLsbD k.toNat = false) ∧
         ∀ y, y ≠ x → t.thread y = s.thread y) ∧
       (∃ t, exec (.ltnWtgtWrite ag x k v) s = .next t ∧ Store.get 0 (t.thread x).ltn.wtgt k.toNat = v ∧
         ∀ y, y ≠ x → t.thread y = s.thread y)) ∧
     (s.lanternGate ag x true = .ok → th.status = .lockedUp →
       ∃ t, exec (.ltnLockupReset ag x) s = .next t ∧ (t.thread x).status = .disabled ∧ (t.thread x).inShadow = false ∧
         (t.thread x).ltn.stack = [] ∧ (t.thread x).ltn.edge = 0 ∧ (t.thread x).ltn.ie = false ∧
         (t.thread x).ctl.progress = 0 ∧ ∀ y, y ≠ x → t.thread y = s.thread y) ∧
     (s.lanternGate ag x true = .ok → th.status ≠ .lockedUp → exec (.ltnLockupReset ag x) s = .next s)) ∧
  (∀ (s : State) (ag : Agent) (c : CoreId) (x : Tid) (v : Word),
     let th := s.thread x
     (s.supervises ag c = true →
       ∃ t, exec (.threadEnWrite ag c v) s = .next t ∧
         (∀ j : BitVec 2, let a := s.thread { core := c, thread := j }
           let b := t.thread { core := c, thread := j }
           b.enabled = v.getLsbD j.toNat ∧
           b.status = if a.status = .lockedUp then .lockedUp
             else if v.getLsbD j.toNat then (if a.enabled then a.status else .armed) else .disabled) ∧
         ∀ y, y.core ≠ c → t.thread y = s.thread y) ∧
     (s.supervises ag c = false → exec (.threadEnWrite ag c v) s = .next s) ∧
     (s.supervises ag x.core = true →
       (∃ t, exec (.tcfgWrite ag x v) s = .next t ∧ { t with threads := s.threads } = s ∧
         t.thread x = th.modCtl fun k =>
           { k with
               boundNext := v.getLsbD 0
               cmpen := v.getLsbD 1 }) ∧
       (v.getLsbD 8 = true → ∃ t, exec (.icctlWrite ag x.core v) s = .next t ∧ (t.core x.core).icache.lines = [] ∧
         (t.core x.core).icache.lock = 0) ∧
       (v.getLsbD 8 = false → ∃ t, exec (.icctlWrite ag x.core v) s = .next t ∧
         (t.core x.core).icache.lock =
           (if v.setWidth 4 = (0xF : BitVec 4) then (s.core x.core).icache.lock else v.setWidth 4) ∧
         (t.core x.core).icache.lines = (s.core x.core).icache.lines)) ∧
     (∃ t, exec (.cmpLoWrite x v) s = .next t ∧ { t with threads := s.threads } = s ∧
       t.thread x = th.modCtl fun k => { k with cmpLoHeld := v }) ∧
     (∃ t, exec (.cmpHiWrite x v) s = .next t ∧ { t with threads := s.threads } = s ∧
       t.thread x = th.modCtl fun k => { k with cmp := v ++ k.cmpLoHeld }) ∧
     (∃ t, exec (.cycLoRead x) s = .next t ∧ { t with threads := s.threads } = s ∧
       t.thread x = th.modCtl fun k => { k with cycHi := some (BitVec.ofNat 32 (s.cyc x.core / 2 ^ 32)) }) ∧
     (s.domCarries (spireOf x.core).toNat = true → th.ctl.cmpen = true → th.ctl.cmp.toNat ≤ s.cyc x.core →
       ∃ t, exec (.compareTimerFire x) s = .next t ∧ (t.thread x).ctl.cmpen = false ∧
         (t.thread x).ltn.edge = th.ltn.edge ||| 2 ∧ (t.thread x).bank = th.bank) ∧
     ((th.ctl.cmpen = false ∨ s.cyc x.core < th.ctl.cmp.toNat) → exec (.compareTimerFire x) s = .next s) ∧
     (∀ e, th.ltn.atom = .running e → e ≤ s.now →
       ∃ t, exec (.atomicSectionExpiry x) s = .next t ∧ t.thread x = th.modLtn fun l => { l with atom := .expired }) ∧
     (∀ e, th.ltn.atom = .running e → s.now < e → exec (.atomicSectionExpiry x) s = .next s))

/-- Opening: `chopen` with every handle open fails with status FULL; with a free one it holds its thread and sends its
request to the endpoint's core; the request takes the endpoint's lowest free opener slot with its share of credit
where EN is set and credit remains, else it is refused; the reply gives the opener its lowest free handle with that
share as credit, writes the handle to gd and clears V, and a refusal gives all ones and V (R82, R83, R280, R281).
Sending: a message on an open handle with enough credit takes its words' credit and enters the mesh a word in each
cycle; one that was stopped goes on after the words that have entered; with its last word it leaves as one packet to
the endpoint's core, the handle waits for one more answer, and V and the status are 0; without credit the thread
waits; a handle with an answer held reports that answer, a closed handle CLOSED, a message above the handle's share
TOO_LONG; words of pairs
beyond g31 are free values (the model's choice, log 8); a `send` whose `SEND_TIMEOUT` expires reports TIMEOUT and goes
on, unless credit for its handle comes in the same cycle; malformed operands are illegal (R82, R84, R521). Receiving: `recv` pops the oldest word of its queue into an even
pair, with C for the last word of a message and Z clear; on an empty queue `recv` waits and `recv.nb` sets Z and
changes nothing else; `recvv` takes eight words into a vector register, lane 0 first, or waits for them; poisoned
words are popped and raise 0x05 (R82, R85, R282). -/
def Obligations.ChannelsSendAndReceive : Prop :=
  ((∀ (s : State) (i : Iss) (d a b : Reg), Fires s i { g := [a], wg := [d] } →
     let x := tidOf i
     let s0 := s.atIssue i
     let th := s.issuer i
     let ep : BitVec 15 := (th.g a).setWidth 15
     (b ≠ 0 → exec (.chopen i d a b) s = .next (s0.syncExc x 0x01 0 th.pc .scalar)) ∧
     (b = 0 → (∀ h, (th.handle h).opened = true) →
       ∃ t, exec (.chopen i d a b) s = .next t ∧ (t.thread x).bank.v = true ∧ (t.thread x).ctl.ssCode = 6 ∧
         (∀ r, (t.thread x).g r = if r = 31 then 0 else if r = d then 0xFFFFFFFF else th.g r)) ∧
     (b = 0 → ∀ h, (th.handle h).opened = false →
       exec (.chopen i d a b) s = .next
         ((((s0.newId.2.send i.core (ep.extractLsb' 4 11) false true th.tenant (.chopen x s.nextId ep)).accounted x)).modThread
           x fun th => { th with status := .blocked (.chopen d s.nextId) }))) ∧
   (∀ (s : State) (id tag : Nat) (p : Packet) (x : Tid) (ep : BitVec 15), s.arrived? id = some p →
     p.body = .chopen x tag ep →
     let y := epThread ep
     let e := (s.thread y).ep (epIndex ep)
     let reply := fun (u : State) (code : BitVec 4) (slot share : Nat) => exec (.chopenRequest id) s =
       .next (u.send p.dst p.src true false p.tenant (.chopenReply x tag code ep slot share (s.thread y).epoch))
     (s.domOpen (spireOf y.core).toNat = false → reply (s.consume id) 3 0 0) ∧
     (s.domOpen (spireOf y.core).toNat = true →
       ((bit e.cfg 0 = false ∨ ∀ k, k < 4 → e.opener k ≠ .free) → reply (s.consume id) 5 0 0) ∧
       ∀ k, bit e.cfg 0 = true → k < 4 → e.opener k = .free → (∀ j, j < k → e.opener j ≠ .free) →
         ((e.share k = 0 ∨ 32 < e.granted + e.share k) → reply (s.consume id) 5 0 0) ∧
         (e.share k ≠ 0 → e.granted + e.share k ≤ 32 →
           reply ((s.consume id).modThread y fun th => th.setEp (epIndex ep) (e.setOpener k (.opened x 0 (e.share k))))
             0 k (e.share k)))) ∧
   ∀ (s : State) (id tag slot share : Nat) (p : Packet) (x : Tid) (code : BitVec 4) (ep : BitVec 15) (epoch : Byte)
     (d : Reg), s.arrived? id = some p → p.body = .chopenReply x tag code ep slot share epoch →
     (s.thread x).status = .blocked (.chopen d tag) →
     (code ≠ 0 → ∃ t, exec (.chopenReply id) s = .next t ∧ (t.thread x).status = .running ∧ (t.thread x).bank.v = true ∧
       (t.thread x).ctl.ssCode = code ∧ (d ≠ 31 → (t.thread x).g d = 0xFFFFFFFF)) ∧
     (code = 0 → ∀ h : BitVec 3, (∀ j : BitVec 3, j < h → ((s.thread x).handle j).opened = true) →
       ((s.thread x).handle h).opened = false →
       ∃ t, exec (.chopenReply id) s = .next t ∧ (t.thread x).status = .running ∧ (t.thread x).bank.v = false ∧
         (t.thread x).ctl.ssCode = 0 ∧ (t.thread x).ctl.ssHandle = h ∧ (d ≠ 31 → (t.thread x).g d = h.setWidth 32) ∧
         (t.thread x).handle h = { opened := true, ep := ep, slot := slot, epoch := epoch, share := share,
                                   credit := share, unacked := ((s.thread x).handle h).unacked,
                                   status := 0, part := [], hold := 0 })) ∧
  (∀ (s : State) (i : Iss) (d a b : Reg),
     let x := tidOf i
     let s0 := s.atIssue i
     let th := s.issuer i
     let h : BitVec 3 := d.setWidth 3
     let e := th.handle h
     let sends := fun (c : Instr) (words : List DWord) =>
       (th.progressOf 5 = 0 → e.status ≠ 0 → ∃ t, exec c s = .next t ∧ (t.thread x).ctl.ssCode = e.status ∧
         (t.thread x).bank.v = true ∧ ((t.thread x).handle h).status = 0 ∧ t.flight = s.flight) ∧
       (th.progressOf 5 = 0 → e.status = 0 → e.opened = false → ∃ t, exec c s = .next t ∧ (t.thread x).ctl.ssCode = 4 ∧
         (t.thread x).bank.v = true ∧ (t.thread x).ctl.ssHandle = h ∧ t.flight = s.flight) ∧
       (th.progressOf 5 = 0 → e.status = 0 → e.opened = true → e.share < words.length →
         ∃ t, exec c s = .next t ∧ (t.thread x).ctl.ssCode = 7 ∧ (t.thread x).bank.v = true ∧ t.flight = s.flight) ∧
       (th.progressOf 5 = 0 → e.status = 0 → e.opened = true → words.length ≤ e.share →
         words.length ≤ e.credit + e.hold →
         ∃ t, exec c s = .next t ∧ (t.thread x).status = .blocked (.inject h words 0) ∧ t.flight = s.flight ∧
           ((t.thread x).handle h).credit = e.credit + e.hold - words.length ∧ (∀ r, (t.thread x).g r = th.g r) ∧
           ∀ y, y ≠ x → t.thread y = s.thread y) ∧
       (∀ k, th.progressOf 5 = k → k ≠ 0 → k = e.part.length → k < words.length →
         exec c s = .next ((s0.accounted x).modThread x fun th =>
           { th with status := .blocked (.inject h (e.part ++ words.drop k) k) })) ∧
       (th.progressOf 5 = 0 → e.status = 0 → e.opened = true → words.length ≤ e.share →
         e.credit + e.hold < words.length →
         exec c s = .next ((s0.accounted x).modThread x fun th =>
           { th with status := .blocked (.send h words
               (if th.ctl.sendTimeout = 0 then none else some (s.now + th.ctl.sendTimeout.toNat))) }))
     (Fires s i { g := (List.range (2 * min b.toNat 8)).map fun k => a + BitVec.ofNat 5 k } →
       ((7 < d.toNat ∨ a.getLsbD 0 = true ∨ b = 0 ∨ 8 < b.toNat) →
         exec (.send i d a b) s = .next (s0.syncExc x 0x01 0 th.pc .scalar)) ∧
       (d.toNat ≤ 7 → a.getLsbD 0 = false → b ≠ 0 → b.toNat ≤ 8 → a.toNat + 2 * b.toNat ≤ 32 →
         sends (.send i d a b) ((List.range b.toNat).map fun k => th.pair (BitVec.ofNat 5 (a.toNat + 2 * k)))) ∧
       (d.toNat ≤ 7 → a.getLsbD 0 = false → b ≠ 0 → b.toNat ≤ 8 → 32 < a.toNat + 2 * b.toNat →
         ∃ words : List DWord, words.length = b.toNat ∧
           (∀ k, k < b.toNat → a.toNat + 2 * k < 32 → words[k]? = some (th.pair (BitVec.ofNat 5 (a.toNat + 2 * k)))) ∧
           (th.progressOf 5 = 0 → e.status = 0 → e.opened = true → b.toNat ≤ e.share → b.toNat ≤ e.credit + e.hold →
             ∃ t, exec (.send i d a b) s = .next t ∧ (t.thread x).status = .blocked (.inject h words 0)))) ∧
     (Fires s i { v := [a] } →
       ((7 < d.toNat ∨ b ≠ 0) → exec (.sendv i d a b) s = .next (s0.syncExc x 0x01 0 th.pc .scalar)) ∧
       (d.toNat ≤ 7 → b = 0 →
         sends (.sendv i d a b) ((List.range 8).map fun k => (th.v a).extractLsb' (64 * k) 64))) ∧
     (∀ (y : Tid) (k : BitVec 3) (ws : List DWord) (n : Nat), (s.thread y).status = .blocked (.inject k ws n) →
       let e := (s.thread y).handle k
       (n + 1 < ws.length → s.injectWord y = s.modThread y fun th =>
         { th with status := .blocked (.inject k ws (n + 1)) }) ∧
       (ws.length ≤ n + 1 → ∃ p, (s.injectWord y).flight = s.flight ++ [p] ∧ p.src = y.core ∧
         p.dst = e.ep.extractLsb' 4 11 ∧ p.body = .message y k e.ep e.slot e.epoch ws [] ∧
         ((s.injectWord y).thread y).status = .running ∧ ((s.injectWord y).thread y).ctl.ssCode = 0 ∧
         ((s.injectWord y).thread y).bank.v = false ∧ (((s.injectWord y).thread y).handle k).unacked = e.unacked + 1 ∧
         ((s.injectWord y).thread y).posted = (s.thread y).posted + 1)) ∧
     ∀ (y : Tid) (k : BitVec 3) (ws : List DWord) (due : Nat), (s.thread y).status = .blocked (.send k ws (some due)) →
       (due ≤ s.now → s.comes (creditFor y k) = false → ∃ t, exec (.sendTimeoutExpiry y) s = .next t ∧ (t.thread y).status = .running ∧
         (t.thread y).ctl.ssCode = 1 ∧ (t.thread y).bank.v = true ∧ { t with threads := s.threads } = s) ∧
       ((s.now < due ∨ s.comes (creditFor y k) = true) → exec (.sendTimeoutExpiry y) s = .next s)) ∧
  (∀ (s : State) (i : Iss) (d a b : Reg),
     let x := tidOf i
     let s0 := s.atIssue i
     let th := s.issuer i
     let n : BitVec 2 := a.setWidth 2
     let q := (th.ep n).queue
     let bad := a.toNat > 3 ∨ b ≠ 0
     let ill := fun c => exec c s = .next (s0.syncExc x 0x01 0 th.pc .scalar)
     (Fires s i { wg := [d, d + 1] } →
       ((d.getLsbD 0 = true ∨ bad) → ill (.recv i d a b) ∧ ill (.recvNb i d a b)) ∧
       (d.getLsbD 0 = false → ¬ bad →
         (q = [] → exec (.recv i d a b) s = .next ((s0.accounted x).modThread x fun th =>
             { th with status := .blocked (.recv d n) }) ∧
           ∃ t, exec (.recvNb i d a b) s = .next t ∧ OnlyThread s0 t x ∧ (t.thread x).bank.z = true ∧
             (t.thread x).bank.c = th.bank.c ∧ ∀ r, (t.thread x).g r = th.g r) ∧
         ∀ w rest, q = w :: rest →
           (w.poison = true → ∀ c, c = Instr.recv i d a b ∨ c = Instr.recvNb i d a b →
             exec c s =
               .next (((s0.popWord x n).syncExc x 0x05 ((epId x n).setWidth 32) th.pc .channel).accounted x)) ∧
           (w.poison = false → ∀ c, c = Instr.recv i d a b ∨ c = Instr.recvNb i d a b →
             ∃ t, exec c s = .next t ∧ ((t.thread x).ep n).queue = rest ∧ (t.thread x).bank.c = w.last ∧
               (t.thread x).bank.z = false ∧ (∀ y, y ≠ x → t.thread y = s.thread y) ∧
               ∀ r, (t.thread x).g r = if r = 31 then 0 else if r = d then w.word.setWidth 32
                 else if r = d + 1 then w.word.extractLsb' 32 32 else th.g r))) ∧
     (Fires s i { wv := [d] } →
       (bad → ill (.recvv i d a b)) ∧
       (¬ bad → q.length < 8 → exec (.recvv i d a b) s = .next ((s0.accounted x).modThread x fun th =>
         { th with status := .blocked (.recvv d n) })) ∧
       (¬ bad → 8 ≤ q.length → (∃ w ∈ q.take 8, w.poison = true) →
         exec (.recvv i d a b) s = .next ((s0.recvPoisoned x n 8).accounted x)) ∧
       (¬ bad → 8 ≤ q.length → (∀ w ∈ q.take 8, w.poison = false) →
         ∃ t, exec (.recvv i d a b) s = .next t ∧ ((t.thread x).ep n).queue = q.drop 8 ∧
           (∀ r, (t.thread x).g r = th.g r) ∧
           ∀ k w, k < 8 → q[k]? = some w → ((t.thread x).v d).extractLsb' (64 * k) 64 = w.word)))

/-- Channel packets: a message of the endpoint's epoch from the opener of its slot joins the queue whole and is
answered OK; one of another epoch is answered STALE_EPOCH, one for another opener CLOSED; credit returns to its
handle, up to its share; `chclose` of a handle that is not open reports CLOSED or the answer that it holds, of one with
messages unanswered waits, and else closes it and sends its packet, which frees the opener's slot and is acknowledged;
a close notice closes the handle and is acknowledged; clearing EN changes nothing but that bit where no opener is open
(R84, R86, R278 to R282). Answers: the acknowledgement of a posted request counts it off and holds its refusal for its
thread, which takes the oldest one as an exception at its next instruction outside the shadow window (R75, R313). -/
def Obligations.ChannelPackets : Prop :=
  ((∀ (s : State) (id slot : Nat) (p : Packet) (x : Tid) (h : BitVec 3) (ep : BitVec 15) (epoch : Byte)
     (words : List DWord) (marks : List Nat), s.arrived? id = some p →
     p.body = .message x h ep slot epoch words marks → s.domOpen (spireOf (epThread ep).core).toNat = true →
     let y := epThread ep
     let u := s.consume id
     let e := (s.thread y).ep (epIndex ep)
     let answer := fun (v : State) (code : BitVec 4) => v.send p.dst p.src true false p.tenant (.msgAck x h code)
     ((s.thread y).epoch = epoch → (∃ sh, e.opener slot = .opened x h sh) →
       exec (.channelMessageArrival id) s = .next ((answer (u.modThread y fun th => th.setEp (epIndex ep)
         { e with queue := e.queue ++ queueWords words slot marks }) 0).poll y)) ∧
     ((s.thread y).epoch = epoch → (∀ sh, e.opener slot ≠ .opened x h sh) →
       exec (.channelMessageArrival id) s = .next (answer u 4)) ∧
     ((s.thread y).epoch ≠ epoch →
       exec (.channelMessageArrival id) s = .next (answer (u.modCore y.core fun k =>
         { k with retired := k.retired.map fun p => (p.1, p.2 + 1) }) 2))) ∧
   (∀ (s : State) (id n : Nat) (p : Packet) (x : Tid) (h : BitVec 3), s.arrived? id = some p → p.body = .credit x h n →
     let e := (s.thread x).handle h
     (e.opened = false → exec (.creditReturn id) s = .next (s.consume id)) ∧
     (e.opened = true → e.credit ≠ 0 → exec (.creditReturn id) s = .next
       (((s.consume id).modThread x fun th => th.setHandle h { e with credit := min e.share (e.credit + n) }).poll x)) ∧
     (e.opened = true → e.credit = 0 → exec (.creditReturn id) s = .next
       ((((s.consume id).latch x 7).modThread x fun th => th.setHandle h { e with credit := min e.share n }).poll x))) ∧
   (∀ (s : State) (i : Iss) (d a b : Reg), Fires s i {} →
     let x := tidOf i
     let h : BitVec 3 := d.setWidth 3
     let e := (s.issuer i).handle h
     ((7 < d.toNat ∨ a ≠ 0 ∨ b ≠ 0) →
       exec (.chclose i d a b) s = .next ((s.atIssue i).syncExc x 0x01 0 (s.issuer i).pc .scalar)) ∧
     (d.toNat ≤ 7 → a = 0 → b = 0 →
       (e.opened = false → ∃ t, exec (.chclose i d a b) s = .next t ∧ OnlyThread (s.atIssue i) t x ∧
         (t.thread x).ctl.ssCode = (if e.status = 0 then 4 else e.status) ∧ (t.thread x).bank.v = true) ∧
       (e.opened = true → e.unacked ≠ 0 →
         exec (.chclose i d a b) s = .next (((s.atIssue i).accounted x).modThread x fun th =>
           { th with status := .blocked (.chclose h) })) ∧
       (e.opened = true → e.unacked = 0 →
         ∃ t p, exec (.chclose i d a b) s = .next t ∧ ((t.thread x).handle h).opened = false ∧
           (t.thread x).ctl.ssCode = e.status ∧ (t.thread x).posted = (s.issuer i).posted + 1 ∧
           t.flight = s.flight ++ [p] ∧ p.src = i.core ∧ p.dst = e.ep.extractLsb' 4 11 ∧
           p.body = .chclose x h e.ep e.slot))) ∧
   (∀ (s : State) (id slot : Nat) (p : Packet) (x : Tid) (h : BitVec 3) (ep : BitVec 15), s.arrived? id = some p →
     p.body = .chclose x h ep slot →
     exec (.channelMessageArrival id) s = .next
       (((s.consume id).freeOpener x h ep slot).send p.dst p.src true false p.tenant (.ack (.thread x) none))) ∧
   (∀ (s : State) (id slot : Nat) (p : Packet) (x : Tid) (h : BitVec 3) (ep : BitVec 15), s.arrived? id = some p →
     p.body = .closeNotice x h ep slot →
     let e := (s.thread x).handle h
     (¬ (e.opened = true ∧ e.ep = ep ∧ e.slot = slot) → exec (.closeNotice id) s =
       .next (((s.consume id).send p.dst p.src false true p.tenant (.closeAck ep slot)).poll x)) ∧
     (e.opened = true → e.ep = ep → e.slot = slot →
     exec (.closeNotice id) s = .next ((((s.consume id).modThread x fun th =>
       th.setHandle h
         { e with
             opened := false
             credit := 0 }).send p.dst p.src false true p.tenant (.closeAck ep slot)).poll x))) ∧
   ∀ (s : State) (x : Tid) (n : BitVec 2), (∀ k o h sh, k < 4 → ((s.thread x).ep n).opener k ≠ .opened o h sh) →
     ∃ t, exec (.epcfgDisable x n) s = .next t ∧ { t with threads := s.threads } = s ∧
       bit ((t.thread x).ep n).cfg 0 = false ∧ ((t.thread x).ep n).queue = ((s.thread x).ep n).queue ∧
       ∀ k, ((t.thread x).ep n).opener k = ((s.thread x).ep n).opener k) ∧
  ((∀ (s : State) (id : Nat) (p : Packet) (x : Tid) (r : Refuse), s.arrived? id = some p →
     p.body = .ack (.thread x) r →
     exec (.dmeshAckArrival id) s = .next (((s.consume id).modThread x fun th =>
       { th with
           posted := th.posted - 1
           refusals := match r with
             | some q => if th.refusals.length < 4 then th.refusals ++ [{ cause := q.1, detail := q.2 }] else th.refusals
             | none => th.refusals }).poll x)) ∧
   ∀ (s : State) (x : Tid), s.spireRuns (spireOf x.core) = true →
     ((s.thread x).refusals = [] → exec (.postedRefusal x) s = .next s) ∧
     ∀ r rest, (s.thread x).refusals = r :: rest →
       ((s.thread x).inShadow = true → exec (.postedRefusal x) s = .next s) ∧
       ((s.thread x).inShadow = false → (s.thread x).status = .running →
         exec (.postedRefusal x) s = .next ((s.modThread x fun th => { th with refusals := rest }).syncExc x r.cause
           r.detail (s.thread x).pc .other)))

/-- Every hop of the mesh brings a packet one router nearer, along the row first and then along the column (R272). A
packet hops when it is the first of its buffer and its output, free of the packet before, grants it; a hop moves its
packet, and only it, to the next router and holds the output until its tail has passed; a corrected word is counted in
the low half of the quadrant's `DMF_ECC`, a poisoned one in the high half; a packet with a bad header is discarded and
recorded with its tag; no packet enters a quadrant whose mesh fabric takes no traffic: a request is refused, a response
discarded. An output serves a response before a request, but a request after three starts at which one waited (R272,
R273, R275, R302, R525). -/
def Obligations.DynamicMesh : Prop :=
  (∀ pos dst : CoreId, pos ≠ dst →
     let n := nextRouter pos dst
     let away := fun a b : Nat => (a - b) + (b - a)
     away (meshCol n) (meshCol dst) + away (meshRow n) (meshRow dst) + 1 =
       away (meshCol pos) (meshCol dst) + away (meshRow pos) (meshRow dst) ∧
     (meshCol pos ≠ meshCol dst → meshRow n = meshRow pos)) ∧
  (∀ (s : State) (id k : Nat) (p : Packet), s.flight.find? (fun p => decide (p.id = id)) = some p →
     let n := nextRouter p.pos p.dst
     let q := quadOf (spireOf n)
     let free := (Store.get DOut.reset s.douts p.output).until_ ≤ s.now
     let mine := (s.granted p.output).map (·.id) = some id
     (s.bufferHead p = false → ∀ e, exec (.dmeshPacketHop id e) s = .next s) ∧
     (s.bufferHead p = true → s.domOpen (68 + q.toNat) = true →
       (¬ (free ∧ mine) → ∀ e, exec (.dmeshPacketHop id e) s = .next s) ∧
       (free → mine →
         exec (.dmeshPacketHop id .none) s = .next (s.meshHop p fun x => x) ∧
         exec (.dmeshPacketHop id .single) s = .next ((s.countEcc q false).meshHop p fun x => x) ∧
         (8 * k < bodyBytes p.body →
           exec (.dmeshPacketHop id (.dataWord k)) s = .next ((s.countEcc q true).meshHop p fun x => x.poisoned k)) ∧
         ∃ t, exec (.dmeshPacketHop id .header) s = .next t ∧ t.flight = s.flight.filter (fun x => x.id ≠ id) ∧
           (t.quad q).reports.length = (s.quad q).reports.length + 1)) ∧
     (s.bufferHead p = true → s.domOpen (68 + q.toNat) = false → ∀ e,
       (p.resp = true → exec (.dmeshPacketHop id e) s = .next (s.discarded p.pos p)) ∧
       (p.resp = false → ∀ b, refusalOf p.body = some b → exec (.dmeshPacketHop id e) s =
         .next (((s.consume id).refusedAlso p.body).send p.pos p.src true false p.tenant b)) ∧
       (p.resp = false → refusalOf p.body = none →
         exec (.dmeshPacketHop id e) s = .next ((s.consume id).refusedAlso p.body)))) ∧
  (∀ (s : State) (p : Packet) (f : Packet → Packet),
     let n := nextRouter p.pos p.dst
     let t := s.meshHop p f
     t.flight = s.flight.map (fun x => if x.id = p.id then
       f { p with
             pos := n
             inp := enters p.pos n
             since := s.now + hopCycles p.pos n } else x) ∧ t.threads = s.threads ∧
     (Store.get DOut.reset t.douts p.output).until_ = s.now + p.flits ∧
     ∀ o, o ≠ p.output → Store.get DOut.reset t.douts o = Store.get DOut.reset s.douts o) ∧
  (∀ (s : State) (o : Nat) (p : Packet), s.granted o = some p →
     let k := Store.get DOut.reset s.douts o
     p ∈ s.waiting o ∧
     (p.resp = true → k.skipped < 3 ∨ ∀ x ∈ s.waiting o, x.resp = true) ∧
     (p.resp = false → 3 ≤ k.skipped ∨ ∀ x ∈ s.waiting o, x.resp = false))

/-- A signal on an allocated counter adds its signed increment where the sum lies from 0 to the limit; else the value
stays and the operation is refused, with 0x20 below 0, 0x21 above the limit and 0x25 for a unit that is not allocated;
poison is set either way on an allocated counter; every other counter keeps its value (R303, R307, R308, R313). After
a counter changed, an `swait` that waits on it stays exactly where its target is above the value and the counter is
not poisoned, and a watch stays, noting whether its target is reached (R309, R311). The instructions of counters and
locks: wrong operand bits are illegal, a unit outside the tenant's map raises 0x25; else `sig`, `sigp` and `unlock`
send their posted request to the object's Cupola and go on, `swait` and `lock` send theirs and hold their thread under
a tag of its own, `lock` with the thread's highest rank (R305 to R309, R318). -/
def Obligations.CountersAndInstructions : Prop :=
  (∀ (s : State) (who : Signaller) (c : BitVec 16) (inc : Word) (poison : Bool),
     let r := s.signal who c inc poison
     let sum : Int := (s.ctrVal c).toNat + inc.toInt
     let alloc := bit (s.ctrUnit c) 4
     let fits := 0 ≤ sum ∧ sum ≤ (s.ctrLim c).toNat
     (alloc = true → fits → ((r.1.ctrVal c).toNat : Int) = sum ∧ r.2 = none) ∧
     ((alloc = false ∨ ¬ fits) → r.1.ctrVal c = s.ctrVal c) ∧
     (alloc = false → r.2 = some (0x25, c.setWidth 32)) ∧
     (alloc = true → sum < 0 → r.2 = some (0x20, c.setWidth 32)) ∧
     (alloc = true → (s.ctrLim c).toNat < sum → r.2 = some (0x21, c.setWidth 32)) ∧
     r.1.ctrPoison c = (s.ctrPoison c || (poison && alloc)) ∧ (∀ d, d ≠ c → r.1.ctrVal d = s.ctrVal d)) ∧
  (∀ (v : Word) (poison : Bool) (w : Waiter) (r : Requester) (tag : Nat) (target : Word) (who : Watcher) (up : Bool),
     (w.want = .swait r tag target → judgeWaiter v poison w =
       if poison then (some 2, none, none) else if target.toNat ≤ v.toNat then (some 0, none, none)
       else (none, none, some w)) ∧
     (w.want = .watch who target up →
       let now := poison || decide (target.toNat ≤ v.toNat)
       judgeWaiter v poison w =
         (none, (if now = up then none else some now), some { w with want := .watch who target now }))) ∧
  (∀ (s : State) (i : Iss) (d a b : Reg),
     let x := tidOf i
     let who := By.compute i
     let s0 := s.atIssue i
     let th := s.issuer i
     let w := th.g a
     let c : BitVec 16 := w.setWidth 16
     let l : BitVec 14 := w.setWidth 14
     let near := bit w 26 = false ∨ w.extractLsb' 16 10 = s.devId
     let raises := fun (k : Instr) (cause : BitVec 8) (detail : Word) =>
       exec k s = .next (s0.syncExc x cause detail th.pc .scalar)
     let posts := fun (k : Instr) (dest : Spire) (body : Body) => exec k s =
       .next (((s0.posts x).send i.core (cupolaRouter dest) false false th.tenant body).retired x)
     let holds := fun (k : Instr) (dest : Spire) (body : Body) (bl : Block) => exec k s =
       .next (((s0.newId.2.send i.core (cupolaRouter dest) false false th.tenant body).accounted x).modThread x fun th =>
         { th with status := .blocked bl })
     let due := if th.g (a + 1) = 0 then none else some (s.now + (th.g (a + 1)).toNat)
     (Fires s i { g := [a, b] } →
       ((d ≠ 0 ∨ 2 ^ 27 ≤ w.toNat) → raises (.sig who d a b) 0x01 0 ∧ raises (.sigp who d a b) 0x01 0) ∧
       (d = 0 → w.toNat < 2 ^ 27 → near →
         ((s.core i.core).mapsCtr c = false → raises (.sig who d a b) 0x25 w ∧ raises (.sigp who d a b) 0x25 w) ∧
         ((s.core i.core).mapsCtr c = true →
           posts (.sig who d a b) (c.extractLsb' 10 6) (.signal (.thread x) c (th.g b) false) ∧
           posts (.sigp who d a b) (c.extractLsb' 10 6) (.signal (.thread x) c (th.g b) true))) ∧
       (d = 0 → w.toNat < 2 ^ 27 → ¬ near →
         exec (.sig who d a b) s = .next (((s0.posts x).askCounter (.thread x) w 0 (th.g b) (.posted (.thread x) w)).retired x) ∧
         exec (.sigp who d a b) s = .next (((s0.posts x).askCounter (.thread x) w 1 (th.g b) (.posted (.thread x) w)).retired x))) ∧
     (Fires s i { g := [a, a + 1, b], wg := [d, d + 1] } →
       ((d.getLsbD 0 = true ∨ a.getLsbD 0 = true ∨ 2 ^ 27 ≤ w.toNat) → raises (.swait who d a b) 0x01 0) ∧
       (d.getLsbD 0 = false → a.getLsbD 0 = false → w.toNat < 2 ^ 27 → near →
         ((s.core i.core).mapsCtr c = false → raises (.swait who d a b) 0x25 w) ∧
         ((s.core i.core).mapsCtr c = true →
           holds (.swait who d a b) (c.extractLsb' 10 6) (.swait (.thread x) s.nextId c (th.g b))
             (.swait d w (th.g b) (th.g (a + 1)) s.nextId due none none))) ∧
       (d.getLsbD 0 = false → a.getLsbD 0 = false → w.toNat < 2 ^ 27 → ¬ near →
         exec (.swait who d a b) s = .next
           (((s0.newId.2.askCounter (.thread x) w 2 (th.g b) (.counter (.thread x) s.nextId)).accounted x).modThread x fun th =>
             { th with status := .blocked (.swait d w (th.g b) (th.g (a + 1)) s.nextId due none none) }))) ∧
     (Fires s i { g := [a, a + 1], wg := [d] } →
       ((b ≠ 0 ∨ a.getLsbD 0 = true ∨ 2 ^ 14 ≤ w.toNat) → raises (.lock who d a b) 0x01 0) ∧
       (b = 0 → a.getLsbD 0 = false → w.toNat < 2 ^ 14 →
         ((s.core i.core).mapsLock l = false → raises (.lock who d a b) 0x25 w) ∧
         ((s.core i.core).mapsLock l = true →
           holds (.lock who d a b) (l.extractLsb' 8 6) (.lock (.thread x) s.nextId l (highRank th.rankMask))
             (.lock d w (th.g (a + 1)) s.nextId due none)))) ∧
     (Fires s i { g := [a] } →
       ((d ≠ 0 ∨ b ≠ 0 ∨ 2 ^ 14 ≤ w.toNat) → raises (.unlock who d a b) 0x01 0) ∧
       (d = 0 → b = 0 → w.toNat < 2 ^ 14 →
         ((s.core i.core).mapsLock l = false → raises (.unlock who d a b) 0x25 w) ∧
         ((s.core i.core).mapsLock l = true → posts (.unlock who d a b) (l.extractLsb' 8 6) (.unlock (.thread x) l)))))

/-- Requests at a Cupola whose domain is open: a signal is performed, acknowledged, and whatever it ends goes on; an
`swait` is answered POISONED or at once where its target is reached, else it waits, or is told to retry with 512
entries taken; a `lock` whose rank does not exceed the thread's highest is refused with 0x22, a free lock is granted,
BROKEN where it was broken, a held one waits; an unlock by the holder clears its rank and passes the lock on,
another's is refused with 0x23; a closed domain refuses with 0x12 and logs it; an `swait` whose target was poisoned on its way is answered POISONED
(the model's choice, log 29); a withdrawal frees its entry; a watch is registered
with its present level or withdrawn (R309 to R313, R317 to R320). Answers at the thread that waits under their tag:
`swait` takes the value and status into its pair and goes on, a refusal raises its cause, RETRY asks again 64 cycles
later; a grant enters the rank mask; an answer under another tag is discarded; a timeout withdraws the request,
reports status 1 and goes on, unless the answer has come in the same cycle (R309 to R311, R317 to R319). -/
def Obligations.CupolaRequestsAndAnswers : Prop :=
  (∀ (s : State) (id : Nat) (p : Packet), s.arrived? id = some p →
     let u := s.consume id
     (∀ who c inc poison, p.body = .signal who c inc poison →
       let r := u.signal who c inc poison
       (u.ctrRefused c who.isRemote p.tenant = none → exec (.counterSignal id) s =
         .next (((r.1.ackSignal p who c r.2).signalDone who).retireAll)) ∧
       (∀ cause, u.ctrRefused c who.isRemote p.tenant = some cause → exec (.counterSignal id) s =
         .next (((u.logRefused (ctrSpire c) c.toNat who ((u.ctrUnit c).setWidth 4)).ackSignal p who c
           (some (cause, c.setWidth 32))).signalDone who)) ∧
       (u.domOpen (ctrSpire c).toNat = true → who.isRemote = false → u.ctrRefused c who.isRemote p.tenant = none)) ∧
     (∀ x tag c target, p.body = .swait (.thread x) tag c target →
       let sp := ctrSpire c
       let v := s.ctrVal c
       let k := (u.bump .cupOps sp.toNat 0 1).traceCounter c v
       let answers := fun (w : State) (val : Word) (status : BitVec 2) (r : Refuse) => exec (.swaitRequest id) s =
         .next (w.send (cupolaRouter sp) x.core true false 0 (.swaitAnswer (.thread x) tag val status r))
       (u.domOpen sp.toNat = false →
         answers (u.logRefused sp c.toNat (.thread x) ((u.ctrUnit c).setWidth 4)) 0 0 (some (0x12, c.setWidth 32))) ∧
       (u.domOpen sp.toNat = true → p.bad = true → answers u 0 2 none) ∧
       (p.bad = false → u.domOpen sp.toNat = true → s.ctrPoison c = true → answers k v 2 none) ∧
       (p.bad = false → u.domOpen sp.toNat = true → s.ctrPoison c = false → target.toNat ≤ v.toNat → answers k v 0 none) ∧
       (p.bad = false → u.domOpen sp.toNat = true → s.ctrPoison c = false → v.toNat < target.toNat →
         ((s.spire sp).waiters.length < 512 →
           ∃ t, exec (.swaitRequest id) s = .next t ∧ (t.spire sp).waiters =
             (s.spire sp).waiters ++ [{ obj := ctrIndex c, want := .swait (.thread x) tag target }]) ∧
         (512 ≤ (s.spire sp).waiters.length → answers (k.bump .cupWfull sp.toNat 0 1) v 3 none))) ∧
     (∀ x tag l rank, p.body = .lock (.thread x) tag l rank →
       let sp := lockSpire l
       let k := u.bump .cupOps sp.toNat 0 1
       let low := ∃ h : BitVec 4, rank = some h ∧ s.lockRank l ≤ h.toNat
       (u.domOpen sp.toNat = false → exec (.lockRequest id) s = .next
         ((u.logRefused sp l.toNat (.thread x) ((u.lockUnit l).setWidth 4)).answerLock (.thread x) tag l 0
           (some (0x12, l.setWidth 32)))) ∧
       (u.domOpen sp.toNat = true → low → ∃ t, exec (.lockRequest id) s = .next t ∧ t.lock l = s.lock l ∧
         ∃ q : Packet, t.flight = u.flight ++ [q] ∧ q.body = .lockGrant (.thread x) tag l 0 (some (0x22, l.setWidth 32))) ∧
       (u.domOpen sp.toNat = true → ¬ low → (s.lock l).holder = none →
         exec (.lockRequest id) s = .next ((k.setLock l { holder := some (.thread x), broken := false }).send
           (cupolaRouter sp) x.core true false 0 (.lockGrant (.thread x) tag l (if (s.lock l).broken then 2 else 0) none))) ∧
       (u.domOpen sp.toNat = true → ¬ low → (s.lock l).holder ≠ none → (s.spire sp).waiters.length < 512 →
         ∃ t, exec (.lockRequest id) s = .next t ∧ t.lock l = s.lock l ∧ (t.spire sp).waiters =
           (s.spire sp).waiters ++ [{ obj := lockIndex l, want := .lock (.thread x) tag }])) ∧
     (∀ x l, p.body = .unlock (.thread x) l → u.domOpen (lockSpire l).toNat = true →
       ((s.lock l).holder ≠ some (.thread x) → ∃ t, exec (.unlockRequest id) s = .next t ∧ t.lock l = s.lock l ∧
         ∃ q : Packet, t.flight = u.flight ++ [q] ∧ q.body = .ack (.thread x) (some (0x23, l.setWidth 32))) ∧
       ((s.lock l).holder = some (.thread x) → (∀ w ∈ (s.spire (lockSpire l)).waiters, w.want.onLock = false) →
         ∃ t, exec (.unlockRequest id) s = .next t ∧ (t.lock l).holder = none ∧ (t.lock l).broken = false ∧
           (t.thread x).rankMask = (s.thread x).rankMask &&& ~~~ (1#16 <<< s.lockRank l) ∧
           ∃ q : Packet, t.flight = u.flight ++ [q] ∧ q.body = .ack (.thread x) none)) ∧
     (∀ r tag c, p.body = .withdraw r tag false c →
       ∃ t, exec (.waiterWithdrawal id) s = .next t ∧ (t.spire (ctrSpire c)).waiters =
         (s.spire (ctrSpire c)).waiters.filter (fun w => ! w.of r tag)) ∧
     (∀ who tenant c target, p.body = .watchReg who tenant c target → u.domOpen (ctrSpire c).toNat = true →
       (target = none → ∃ t, exec (.watchRegistration id) s = .next t ∧ (t.spire (ctrSpire c)).waiters =
         (s.spire (ctrSpire c)).waiters.filter (fun w => ! w.watches who)) ∧
       ∀ tg, target = some tg → p.bad = false → (∀ d g, who ≠ .remote d g) → s.ownsCtr tenant c = true → (s.spire (ctrSpire c)).waiters.length < 512 →
         let up := s.ctrPoison c || decide (tg.toNat ≤ (s.ctrVal c).toNat)
         ∃ t, exec (.watchRegistration id) s = .next t ∧ (t.spire (ctrSpire c)).waiters =
             (s.spire (ctrSpire c)).waiters.filter (fun w => ! w.watches who) ++
               [{ obj := ctrIndex c, want := .watch who tg up }] ∧
           ∃ q : Packet, t.flight = u.flight ++ [q] ∧ q.body = .watchEvent who up) ∧
     ∀ x k above, p.body = .watchEvent (.lantern x k) above →
       ∃ t, exec (.watchEvent id) s = .next t ∧ (bit (Store.get 0 (s.thread x).ltn.watch k.toNat) 31 = true →
         (t.thread x).ltn.watchHigh.getLsbD k.toNat = above) ∧ ∀ y, y ≠ x → t.thread y = s.thread y) ∧
  ((∀ (s : State) (id tag g : Nat) (p : Packet) (x : Tid) (v : Word) (st : BitVec 2) (r : Refuse) (d : Reg)
     (w target tmo : Word) (due : Option Nat) (seen : Option Word) (retry : Option Nat), s.arrived? id = some p →
     p.body = .swaitAnswer (.thread x) tag v st r → (s.thread x).status = .blocked (.swait d w target tmo g due seen retry) →
     (g ≠ tag → exec (.swaitAnswer id) s = .next (s.consume id)) ∧
     (g = tag → ∀ cause detail, r = some (cause, detail) →
       exec (.swaitAnswer id) s = .next ((s.consume id).syncExc x cause w (s.thread x).pc .scalar)) ∧
     (g = tag → r = none → st = 2 → (s.thread x).ltn.poisonf = true →
       exec (.swaitAnswer id) s = .next ((s.consume id).syncExc x 0x24 w (s.thread x).pc .scalar)) ∧
     (g = tag → r = none → st = 3 → ∃ t, exec (.swaitAnswer id) s = .next t ∧
       (t.thread x).status = .blocked (.swait d w target tmo g due (some (seen.getD v)) (some (s.now + 64)))) ∧
     (g = tag → r = none → st ≠ 3 → (st = 2 → (s.thread x).ltn.poisonf = false) → d.getLsbD 0 = false →
       ∃ t, exec (.swaitAnswer id) s = .next t ∧ (t.thread x).status = .running ∧
         ∀ k, (t.thread x).g k = if k = 31 then 0 else if k = d then v else if k = d + 1 then st.setWidth 32
           else (s.thread x).g k)) ∧
   (∀ (s : State) (id tag : Nat) (p : Packet) (x : Tid) (l : BitVec 14) (st : BitVec 2) (r : Refuse) (d : Reg)
     (w tmo : Word) (due retry : Option Nat), s.arrived? id = some p → p.body = .lockGrant (.thread x) tag l st r →
     (s.thread x).status = .blocked (.lock d w tmo tag due retry) →
     (∀ cause detail, r = some (cause, detail) →
       exec (.lockGrant id) s = .next ((s.consume id).syncExc x cause w (s.thread x).pc .scalar)) ∧
     (r = none → st ≠ 3 → ∃ t, exec (.lockGrant id) s = .next t ∧ (t.thread x).status = .running ∧
       (t.thread x).rankMask = (s.thread x).rankMask ||| (1#16 <<< s.lockRank l) ∧
       (d ≠ 31 → (t.thread x).g d = st.setWidth 32)) ∧
     (r = none → st = 3 → ∃ t, exec (.lockGrant id) s = .next t ∧
       (t.thread x).status = .blocked (.lock d w tmo tag due (some (s.now + 64))))) ∧
   (∀ (s : State) (x : Tid) (d : Reg) (w target tmo : Word) (tag n : Nat) (seen : Option Word) (retry : Option Nat),
     (s.thread x).status = .blocked (.swait d w target tmo tag (some n) seen retry) →
     ((s.now < n ∨ s.comes (answerOf (.thread x) tag) = true) → exec (.swaitTimeout (.thread x)) s = .next s) ∧
     (n ≤ s.now → s.comes (answerOf (.thread x) tag) = false → d.getLsbD 0 = false →
       ∃ t, exec (.swaitTimeout (.thread x)) s = .next t ∧ (t.thread x).status = .running ∧
       (t.thread x).g d = seen.getD 0 ∧ (d ≠ 30 → (t.thread x).g (d + 1) = 1)) ∧
     ∀ k, retry = some k → (k ≤ s.now → exec (.swaitRetry (.swait (.thread x))) s =
         .next ((s.askSwait (.thread x) w target tag).modThread x fun th =>
           { th with status := .blocked (.swait d w target tmo tag (some n) seen none) })) ∧
       (s.now < k → exec (.swaitRetry (.swait (.thread x))) s = .next s)) ∧
   ∀ (s : State) (x : Tid) (d : Reg) (w tmo : Word) (tag n : Nat) (retry : Option Nat),
     (s.thread x).status = .blocked (.lock d w tmo tag (some n) retry) →
     ((s.now < n ∨ s.comes (answerOf (.thread x) tag) = true) → exec (.lockTimeout (.thread x)) s = .next s) ∧
     (n ≤ s.now → s.comes (answerOf (.thread x) tag) = false → ∃ t, exec (.lockTimeout (.thread x)) s = .next t ∧ (t.thread x).status = .running ∧
       (d ≠ 31 → (t.thread x).g d = 1) ∧ (t.thread x).rankMask = (s.thread x).rankMask))

/-- Dispatch: the lowest slot whose wait counter has reached its target unpoisoned, with a disabled thread of its own,
starts: its thread runs at the slot's entry in Supervisor, with the slot's number in g1 and its parameter in g2, its
rank mask and loops empty and the slot's tenant; with no ready slot nothing happens (R322, R323). Commands on a
Cupola's registers that the gate lets through: VALID arms an empty slot, CANCEL retires a waiting one, `CUP_DONE` of
the running thread ends its slot and signals its done counter, `CUP_BREAK` removes the thread's waiting requests and
passes its locks on, a counter takes the value written, and its poison clears; each judges again what waits (R311,
R312, R320, R321, R324, R326 to R328). -/
def Obligations.DispatchAndCupolaCommands : Prop :=
  (∀ (s : State) (sp : Spire), s.spireRuns sp = true →
     ((∀ k, k < 64 → s.slotSt sp k = .waiting → s.slotMet sp k = true →
       (s.thread (s.slotThread sp k)).status = .disabled → (s.thread (s.slotThread sp k)).ctl.bound = true) →
       exec (.dispatchSlotStart sp) s = .next s) ∧
     ∀ k, k < 64 → s.slotSt sp k = .waiting →
       bit (s.creg .cupCstat (ctrSpire (s.slotWait sp k)).toNat (ctrIndex (s.slotWait sp k))) 0 = false →
       (s.creg .cupDwtgt sp.toNat k).toNat ≤ (s.ctrVal (s.slotWait sp k)).toNat →
       (s.thread (s.slotThread sp k)).status = .disabled → (s.thread (s.slotThread sp k)).ctl.bound = false →
       (∀ j, j < k → s.slotSt sp j ≠ .waiting) →
       let x := s.slotThread sp k
       ∃ t, exec (.dispatchSlotStart sp) s = .next t ∧ t.slotSt sp k = .running ∧ (t.thread x).status = .running ∧
         (t.thread x).enabled = true ∧ (t.thread x).pc = s.creg .cupDent sp.toNat k ∧
         (t.thread x).priv = .supervisor ∧ (t.thread x).g 1 = BitVec.ofNat 32 k ∧
         (t.thread x).g 2 = s.creg .cupDpar sp.toNat k ∧ (t.thread x).rankMask = 0 ∧ (t.thread x).bank.depth = 0 ∧
         (t.thread x).tenant = (s.creg .cupDctl sp.toNat k).extractLsb' 12 4 ∧
         (∀ j, j ≠ k → t.slotSt sp j = s.slotSt sp j) ∧ ∀ y, y ≠ x → t.thread y = s.thread y) ∧
  (∀ (s : State) (ag : Agent) (sp : Spire) (slot : BitVec 6) (n : BitVec 10) (v : Word) (q : Quad) (m : BitVec 9),
     (s.gate ag (s.agentPriv ag) .cupDctl sp.toNat = .ok →
       exec (.cupDctlValid ag sp slot v) s = .next
         (let t := s.plainWrite .cupDctl sp.toNat slot.toNat ((v ||| 0x100#32) &&& ~~~ (0x300#32))
          let t := if t.slotSt sp slot.toNat = .empty then t.setSlot sp slot.toNat .waiting else t
          let t := if bit v 9 ∧ t.slotSt sp slot.toNat = .waiting then t.retireSlot sp slot.toNat 0x0C else t
          t.retireAll) ∧
       (bit v 8 = false → exec (.cupDctlCancel ag sp slot v) s = .next
         (let t := s.plainWrite .cupDctl sp.toNat slot.toNat ((v ||| 0x200#32) &&& ~~~ (0x300#32))
          (if t.slotSt sp slot.toNat = .waiting then t.retireSlot sp slot.toNat 0x0C else t).retireAll))) ∧
     (s.gate ag (s.agentPriv ag) .cupBreak sp.toNat = .ok →
       let x : Tid := { core := v.setWidth 11, thread := v.extractLsb' 11 2 }
       exec (.cupBreakGo ag sp v) s = .next
         (let t := (s.plainWrite .cupBreak sp.toNat 0 ((v ||| 0x2000#32) &&& ~~~ (0x2000#32))).modSpire sp fun k =>
            { k with waiters := k.waiters.filter fun w => ! w.by x }
          ({ t with
              flight := t.flight.filter fun p =>
                ! (decide (p.pos = cupolaRouter sp) && decide (p.dst = cupolaRouter sp) && p.asks x) } : State).breakLocks
            sp x 256)) ∧
     (s.gate ag (s.agentPriv ag) .cupCval sp.toNat = .ok →
       exec (.cupCvalWrite ag sp n v) s =
         .next (((s.setCreg .cupCval sp.toNat n.toNat v).poke (sp ++ n)).retireAll)) ∧
     (s.gate ag (s.agentPriv ag) .cupCstat sp.toNat = .ok →
       exec (.cupCstatPoisonClear ag sp n v) s = .next ((s.plainWrite .cupCstat sp.toNat n.toNat v).poke (sp ++ n)) ∧
       ∃ t, exec (.cupCstatPoisonClear ag sp n v) s = .next t ∧
         t.ctrPoison (sp ++ n) = (s.ctrPoison (sp ++ n) && ! bit v 0) ∧ t.ctrVal (sp ++ n) = s.ctrVal (sp ++ n)) ∧
     (∀ x : Tid, s.gate (.thread x) (s.thread x).priv .cupDone sp.toNat = .ok → s.slotSt sp slot.toNat = .running →
       s.slotThread sp slot.toNat = x →
       exec (.cupDoneWrite x sp slot) s = .next
         (let t := ((s.noteSlot sp slot.toNat 0).setSlot sp slot.toNat .closing).signalQuiet (.slot slot)
            (s.slotDone sp slot.toNat) 1 false
          let t := t.setSlot sp slot.toNat .empty
          (if bit (t.creg .cupDctl sp.toNat slot.toNat) 7 then t.raiseBic (quadOf sp) (cupolaSource sp) else t).retireAll)) ∧
     (∀ tgt : Bool, s.gate ag (s.agentPriv ag) (if tgt then .bicWtgt else .bicWctr) q.toNat = .ok →
       ∃ t, exec (.belfryWatchWrite ag q m tgt v) s = .next t ∧
         (tgt = true → t.creg .bicWtgt q.toNat m.toNat = v) ∧
         (tgt = false → t.creg .bicWctr q.toNat m.toNat &&& 0x87FFFFFF = v &&& 0x87FFFFFF) ∧
         Store.get 0 (t.quad q).watchTenant m.toNat = s.agentTenant ag))

/-- Stream instructions: `sissue` reads its 64-byte descriptor at an aligned Local address (else 0x03, 0x04 or,
poisoned, 0x05), waits for earlier operations of its thread on those bytes, raises the cause that its validation finds,
starts it in the core's lowest free slot and writes the slot's number, or waits with none free; `sstat` writes the
state, owner, fault and 64-byte units of a slot, and is illegal above slot 11; `scancel` of a stream that is not the
thread's, or does not run, does nothing, else it ends with fault 5 (R284, R288). A stream's row from Local to Local of
the same core without list or conversion: reading all of it puts exactly its XLEN bytes, each with its poison, at the
destination's row address into the writes that wait; a row in another core's Local is asked for with a read request to
that core; performing the write stores those bytes there and changes no other byte, a part of it only whole words that
the part touches (R215, R222); with every row done the stream ends in state 2 and signals its counter; a stream whose
timeout has passed ends with fault 4 (R287, R289 to R292). DONE counts a part of a 64-byte unit as one: log entry 37. -/
def Obligations.StreamsAndRows : Prop :=
  (∀ (s : State) (i : Iss) (d a : Reg),
     let x := tidOf i
     let s0 := s.atIssue i
     let th := s.issuer i
     let at0 := th.g a
     let m := (s.core i.core).mem
     let raises := fun (c : Instr) (cause : BitVec 8) (detail : Word) (u : UnitCode) =>
       exec c s = .next (s0.syncExc x cause detail th.pc u)
     (Fires s i { g := [a], wg := [d] } →
       (at0.toNat % 64 ≠ 0 → raises (.sissue i d a) 0x03 at0 .scalar) ∧
       (at0.toNat % 64 = 0 → 0xC0000 < at0.toNat + 64 → raises (.sissue i d a) 0x04 at0 .scalar) ∧
       (at0.toNat % 64 = 0 → at0.toNat + 64 ≤ 0xC0000 → s0.mustWait x at0.toNat 64 false = true →
         exec (.sissue i d a) s = .next (s0.rtWait x)) ∧
       (at0.toNat % 64 = 0 → at0.toNat + 64 ≤ 0xC0000 → s0.mustWait x at0.toNat 64 false = false →
         (m.poisoned at0.toNat 64 = true → raises (.sissue i d a) 0x05 at0 .scalar) ∧
         (m.poisoned at0.toNat 64 = false →
           let desc : BitVec 512 := BitVec.ofNat 512 (m.readNat at0.toNat 64)
           let r := s0.validate (some i.core) (spireOf i.core) th.tenant (decide (th.priv = .machine)) desc
           (∀ cause, r.1.cause = some cause →
             exec (.sissue i d a) s = .next ((r.2.syncExc x cause at0 th.pc .stream).accounted x)) ∧
           (r.1.cause = none →
             (∀ n, (r.2.core i.core).freeSlot = some n →
               exec (.sissue i d a) s = .next ((r.2.startStream x n desc d).retired x) ∧
               ∃ t, exec (.sissue i d a) s = .next t ∧ (t.thread x).g d = (if d = 31 then 0 else BitVec.ofNat 32 n) ∧
                 (t.stream (.core i.core (BitVec.ofNat 4 n))).state = 1 ∧
                 (t.stream (.core i.core (BitVec.ofNat 4 n))).desc = desc ∧
                 (t.stream (.core i.core (BitVec.ofNat 4 n))).owner = x) ∧
             ((r.2.core i.core).freeSlot = none →
               exec (.sissue i d a) s = .next ((r.2.newId.2.accounted x).modThread x fun th =>
                 { th with status := .blocked (.sissue d desc r.2.nextId) }))))) ∧
       (11 < at0.toNat % 16 → raises (.sstat i d a) 0x01 0 .scalar) ∧
       (at0.toNat % 16 ≤ 11 →
         let st := Store.get Stream.reset (s.core i.core).slots (at0.toNat % 16)
         WritesReg s i (.sstat i d a) d (BitVec.ofNat 32 (st.state.toNat + st.owner.thread.toNat * 2 ^ 2 +
           st.fault.toNat * 2 ^ 4 + min (2 ^ 24 - 1) ((st.done + 63) / 64) * 2 ^ 8)) none)) ∧
     (Fires s i { g := [a] } →
       let e : Engine := .core i.core (BitVec.ofNat 4 (at0.toNat % 16))
       ((11 < at0.toNat % 16 ∨ (s.stream e).state ≠ 1 ∨ (s.stream e).owner ≠ x) →
         WritesReg s i (.scancel i a) 31 0 none) ∧
       (at0.toNat % 16 ≤ 11 → (s.stream e).state = 1 → (s.stream e).owner = x →
         exec (.scancel i a) s = .next (((s0.faultStream e 5).settleStream e).retired x)))) ∧
  (∀ (s : State) (c : CoreId) (k : BitVec 4) (row : Nat),
     let e : Engine := .core c k
     let st := s.stream e
     let d := st.desc
     let src := rowAt (aAddr (dSrc d)) (dSys d) (dSzs d) (row % dRows d) (row / dRows d)
     let dst := rowAt (aAddr (dDst d)) (dDys d) (dDzs d) (row % dRows d) (row / dRows d)
     let n := dXlen d
     let whole : RowPart := { row := row, lo := 0, n := n }
     let sent := (List.range n).map fun j => ((s.core c).mem.byte (src.toNat + j), (s.core c).mem.poisoned (src.toNat + j) 1)
     st.state = 1 → st.fault = 0 → dSched d = false → dGen d = false → dConv d = false → n ≠ 0 →
     aSpace (dSrc d) = 0 → row < st.rows → s.domCarries (spireOf c).toNat = true → s.streamHeld e = false →
     s.readPacket e row = none → s.writePacket e row = none →
     (0 ≤ src → src + n ≤ 0xC0000 → st.taken row = false → (∀ r ∈ st.got, r.row ≠ row) →
       exec (.streamReadData e whole) s = .next ((s.readRow e whole).pollCore c) ∧
       (aNode (dSrc d) = c.toNat → aSpace (dDst d) = 0 → aNode (dDst d) = c.toNat → 0 ≤ dst → dst + n ≤ 0xC0000 →
         (s.readRow e whole).stream e =
           { st with
               poisoned := st.poisoned || sent.any (·.2)
               pending := st.pending ++
                 [{ row := row, runs := [{ off := 0, addr := dst.toNat, bytes := sent }], tags := [] }] }) ∧
       (aNode (dSrc d) ≠ c.toNat → src.toNat % 64 + n ≤ 64 →
         ((s.readRow e whole).stream e).parts row = [{ lo := 0, n := n, tag := s.nextId, data := none }] ∧
         ∃ p ∈ (s.readRow e whole).flight, p.body = .strRead e row s.nextId src.toNat n ∧ p.src = c ∧
           p.dst.toNat = aNode (dSrc d) ∧ p.resp = false ∧ p.vc1 = false)) ∧
     (∀ bytes : List (Byte × Bool), bytes.length = n → 0 ≤ dst → aSpace (dDst d) = 0 → aNode (dDst d) = c.toNat →
       st.pending = [{ row := row, runs := [{ off := 0, addr := dst.toNat, bytes := bytes }], tags := [] }] →
       (s.core c).epoch = dEpoch d →
       exec (.streamWriteAck e whole) s = .next ((s.ackRow e whole).pollCore c) ∧
       (∀ j, ((s.ackRow e whole).core c).mem.byte j =
         if dst.toNat ≤ j then (match bytes[j - dst.toNat]? with
           | some b => b.1
           | none => (s.core c).mem.byte j)
         else (s.core c).mem.byte j) ∧
       (∀ (p : RowPart) (j : Nat), p.row = row →
         (j / 8 < (dst.toNat + p.lo) / 8 ∨ (dst.toNat + p.lo + (p.n - 1)) / 8 < j / 8) →
         ((s.ackRow e p).core c).mem.byte j = (s.core c).mem.byte j) ∧
       (st.got = [] → st.acked.length + 1 = st.rows → st.poisoned = false →
         ((s.ackRow e whole).stream e).state = 2 ∧
         (dInc d ≠ 0 → ∃ p ∈ (s.ackRow e whole).flight, p.body =
           .signal (.stream e (some st.owner)) (dCtr d) (BitVec.ofNat 32 (dInc d)) false))) ∧
     (∀ due, st.due = some due →
       (s.ns ≤ due → exec (.streamTimeout e) s = .next s) ∧
       (due < s.ns → exec (.streamTimeout e) s =
         .next ((((s.faultStream e 4).dropLost e).settleStream e).pollCore c)) ∧
       (due < s.ns → st.pending = [] → st.got = [] →
         ((((s.faultStream e 4).dropLost e).settleStream e).stream e).state = 3 ∧
         ((((s.faultStream e 4).dropLost e).settleStream e).stream e).fault = 4)))

/-- The other steps of the transfer engines: a list read and a window table read go as their walk says, a Turret
submission that its gate lets through starts the 64-byte descriptor in the lowest free stream, or sets bit 8 of
`TRT_SUBSTAT` with none free or the Turret off, and a Turret stream that has finished completes while one that has not
stays (R203, R206, R294, R297, R329, R332). Tiles: `talloc` of tiles and accumulators that no other thread owns gives
them all to the thread with gd 0 and Z set, else gives none and writes the mask of those in conflict with Z clear;
`trel` of a code that the thread does not own raises 0x07 and of queued ones waits, else all become free; `tempty`
writes the mask of the thread's empty tiles; a bank idle for 64 cycles with GATE set loses its power and one that is
not idle keeps it (R70, R71, R164). -/
def Obligations.TurretWalksAndTiles : Prop :=
  (∀ (s : State) (e : Engine) (cache : WinCache) (tenant : BitVec 4) (granule : BitVec 27) (ag : Agent) (sp : Spire)
     (v : Word) (n : BitVec 7),
     exec (.gatherListRead e) s = .next ((s.readList e).pollEngine e) ∧
     exec (.windowTableRead cache tenant granule) s = .next (s.walk cache tenant granule.toNat).2 ∧
     (dGen (s.stream (.turret sp n)).desc = false → exec (.gatherListRead (.turret sp n)) s = .next s) ∧
     (s.gate ag (s.agentPriv ag) .trtSubHi sp.toNat = .ok →
       ((bit (s.creg .trtCtl sp.toNat 0) 0 = false ∨ (s.spire sp).freeTurret = none) →
         ∃ t, exec (.turretSubmit ag sp v) s = .next t ∧ { t with regs := s.regs } = s ∧
           bit (t.creg .trtSubstat sp.toNat 0) 8 = true) ∧
       ∀ k, bit (s.creg .trtCtl sp.toNat 0) 0 = true → (s.spire sp).freeTurret = some k →
         let r := s.farDesc ((s.creg .trtSubLo sp.toNat 0).toNat / 64 * 64 + v.toNat % 256 * 2 ^ 32)
         exec (.turretSubmit ag sp v) s =
           .next (s.turretStart sp k r.1 (decide (s.agentPriv ag = .machine)) 0xFFFF false r.2)) ∧
     ((s.stream (.turret sp n)).finished = false → exec (.turretStreamComplete sp n) s = .next s) ∧
     ((s.stream (.turret sp n)).finished = true →
       exec (.turretStreamComplete sp n) s = .next ((s.completeStream (.turret sp n)).startList sp 128))) ∧
  (∀ (s : State) (i : Iss) (d a : Reg) (c : CoreId) (bank : BitVec 5),
     let x := tidOf i
     let s0 := s.atIssue i
     let th := s.issuer i
     let f := (s.core i.core).tile
     let asks := fun k : Nat => k < 24 ∧ (th.g a).getLsbD k = true
     (Fires s i { g := [a], wg := [d] } →
       ((∀ k o, asks k → (f.target k).owner = some o → o = i.thread) →
         ∃ t, exec (.talloc i d a) s = .next t ∧ (t.thread x).bank.z = true ∧ (t.thread x).g d = 0 ∧
           ∀ k, k < 24 → ((t.core i.core).tile.target k).owner =
             if (th.g a).getLsbD k then some i.thread else (f.target k).owner) ∧
       ((∃ k o, asks k ∧ (f.target k).owner = some o ∧ o ≠ i.thread) →
         ∃ t, exec (.talloc i d a) s = .next t ∧ (t.thread x).bank.z = false ∧ (t.core i.core).tile = f ∧
           (d ≠ 31 → ∀ k, k < 32 → (((t.thread x).g d).getLsbD k = true ↔
             asks k ∧ ∃ o, (f.target k).owner = some o ∧ o ≠ i.thread)))) ∧
     (Fires s i { g := [a] } →
       ((∃ k, asks k ∧ (f.target k).owner ≠ some i.thread) →
         exec (.trel i a) s = .next (s0.syncExc x 0x07 0 th.pc .scalar)) ∧
       ((∀ k, asks k → (f.target k).owner = some i.thread) → s.tilesQueued i.core (th.g a) = true →
         exec (.trel i a) s = .next ((s0.accounted x).modThread x fun th =>
           { th with status := .blocked (.trel (th.g a)) })) ∧
       ((∀ k, asks k → (f.target k).owner = some i.thread) → s.tilesQueued i.core (th.g a) = false →
         ∃ t, exec (.trel i a) s = .next t ∧
           ∀ k, k < 24 → ((t.core i.core).tile.target k).owner =
             if (th.g a).getLsbD k then none else (f.target k).owner)) ∧
     (Fires s i { wg := [d] } →
       ∃ t, exec (.tempty i d) s = .next t ∧ OnlyThread s0 t x ∧
         (d ≠ 31 → ∀ k, k < 32 → (((t.thread x).g d).getLsbD k = true ↔
           k < 16 ∧ (f.target k).owner = some i.thread ∧ (f.target k).empty = true))) ∧
     (s.spireRuns (spireOf c) = true → s.bankIdle c bank.toNat = true →
       ∃ t, exec (.tileBankPowerGate c bank) s = .next t ∧
         (t.core c).tile.gated = (s.core c).tile.gated ||| (1#32 <<< bank.toNat)) ∧
     (s.bankIdle c bank.toNat = false → exec (.tileBankPowerGate c bank) s = .next s))

/-- The vector instructions, each named: a type that the operation does not take raises `ILLEGAL_INSTR`; with a full
queue nothing happens; a v register of wrong parity raises `ECC_UNCORRECTED`; else the instruction joins the vector queue behind the others, with the rounding mode and the
scalar operand of this moment, and its thread goes on, or is held where the instruction is guarded (R36, R38, R62 to
R65, R110, R137). What vector operations compute, lane by lane: the bitwise ones on all 512 bits, `vmov` and `vzero`;
on integer lanes `vadd`, `vsub` and `vmul` modulo the lane's width, the comparisons a mask of ones or zeros, and
`vbcast` its register in every lane (R65, R125). -/
def Obligations.VectorIssueAndResults : Prop :=
  (∀ (s : State) (i : Iss) (op : VOp) (c : Instr) (ty : BitVec 3) (d a b : Reg),
     let x := tidOf i
     let s0 := s.atIssue i
     let th := s.issuer i
     let k := s.core i.core
     let scalar : Word := match op with
       | .bcast => th.g a
       | .ins => th.g a
       | .cvt => th.g b
       | _ => 0
     let bad := op.badType ty || (decide (op = .cvt) && ! cvtLegal scalar)
     let ins : UnitIns := .vec op ty d a b scalar
     let guard := ins.guarded (k.service && ! th.ltn.legacy) th.ltn.abftf
     let named : List (VOp × Instr) :=
       [(.add, .vadd i ty d a b), (.sub, .vsub i ty d a b), (.mul, .vmul i ty d a b),
        (.div, .vdiv i ty d a b), (.sqrt, .vsqrt i ty d a b), (.min, .vmin i ty d a b),
        (.max, .vmax i ty d a b), (.abs, .vabs i ty d a b), (.neg, .vneg i ty d a b),
        (.and, .vand i ty d a b), (.or, .vor i ty d a b), (.xor, .vxor i ty d a b),
        (.shl, .vshl i ty d a b), (.shr, .vshr i ty d a b), (.sar, .vsar i ty d a b),
        (.fma, .vfma i ty d a b), (.fms, .vfms i ty d a b), (.fnma, .vfnma i ty d a b),
        (.fmaP, .vfmaP i ty d a b), (.ceq, .vceq i ty d a b), (.cne, .vcne i ty d a b),
        (.clt, .vclt i ty d a b), (.cle, .vcle i ty d a b), (.cun, .vcun i ty d a b),
        (.sel, .vsel i ty d a b), (.bcast, .vbcast i ty d a b), (.ext, .vext i ty d a b),
        (.ins, .vins i ty d a b), (.perm, .vperm i ty d a b), (.rot, .vrot i ty d a b),
        (.zip, .vzip i ty d a b), (.unzip, .vunzip i ty d a b), (.mov, .vmov i ty d a b),
        (.zero, .vzero i ty d a b), (.gather, .vgather i ty d a b), (.scatter, .vscatter i ty d a b),
        (.cvt, .vcvt i ty d a b), (.radd, .vradd i ty d a b), (.rmax, .vrmax i ty d a b),
        (.rmin, .vrmin i ty d a b), (.dot, .vdot i ty d a b)]
     (op, c) ∈ named → Fires s i { g := vecUses op a b } →
       (bad = true → exec c s = .next (s0.syncExc x 0x01 0 th.pc .vector)) ∧
       (bad = false → 8 ≤ k.queueV.length → exec c s = .next s) ∧
       (bad = false → k.queueV.length < 8 → (∃ r ∈ ins.readsV, th.badV.getLsbD r.toNat = true) →
         exec c s = .next (s0.syncExc x 0x05 0 th.pc .vector)) ∧
       (bad = false → k.queueV.length < 8 → (∀ r ∈ ins.readsV, th.badV.getLsbD r.toNat = false) →
         ∃ t u, exec c s = .next t ∧ (t.core i.core).queueV = k.queueV ++ [u] ∧ u.ins = ins ∧ u.seq = k.nextSeq ∧
           u.thread = i.thread ∧ u.rmode = th.ctl.rmode ∧ u.pc = th.pc ∧ u.dispatched = false ∧
           (t.core i.core).nextSeq = k.nextSeq + 1 ∧ (t.core i.core).mem = k.mem ∧
           (guard = false → (t.thread x).status = th.status) ∧
           (guard = true → (t.thread x).status = .blocked (.guarded k.nextSeq)) ∧
           (∀ r, (t.thread x).g r = th.g r) ∧ ∀ y, y ≠ x → t.thread y = s.thread y)) ∧
  (∀ (ty : BitVec 3) (rm k : Nat) (va vb vd : VReg) (x : Word),
     let w := laneW ty
     let r := fun (op : VOp) => op.compute ty rm va vb vd x
     let lane := fun (op : VOp) => laneAt ty (r op).v k
     let p := laneAt ty va k
     let q := laneAt ty vb k
     (r .and).v = va &&& vb ∧ (r .or).v = va ||| vb ∧ (r .xor).v = va ^^^ vb ∧ (r .mov).v = va ∧ (r .zero).v = 0 ∧
     ((ty = 4 ∨ ty = 5 ∨ ty = 6) → k < 512 / w →
       lane .add = (p + q) % 2 ^ w ∧ lane .sub = (p + 2 ^ w - q) % 2 ^ w ∧ lane .mul = p * q % 2 ^ w ∧
       lane .ceq = (if p = q then 2 ^ w - 1 else 0) ∧ lane .cne = (if p = q then 0 else 2 ^ w - 1) ∧
       lane .clt = (if (BitVec.ofNat w p).toInt < (BitVec.ofNat w q).toInt then 2 ^ w - 1 else 0) ∧
       lane .bcast = x.toNat % 2 ^ w))

/-- `vtopk` and the matrix instructions at issue: fields or operands outside the legal ones raise `ILLEGAL_INSTR`,
tiles that the thread does not own 0x07, misaligned or outside Local addresses 0x03 and 0x04; else they join their
queue, or wait while it is full (R72, R170 to R191, R335). The unit queues: nothing dispatches or completes in a core
whose Spire does not run; an instruction completes only when it has been dispatched and no earlier one of its engine
is left; completing `mzero` makes every element of its target zero, and the entry leaves its queue; a vector result
goes to its register (R38, R171, R175). -/
def Obligations.MatrixIssueAndCompletion : Prop :=
  (∀ (s : State) (i : Iss),
     let x := tidOf i
     let s0 := s.atIssue i
     let th := s.issuer i
     let k := s.core i.core
     let illegal := fun (c : Instr) (u : UnitCode) => exec c s = .next (s0.syncExc x 0x01 0 th.pc u)
     let foreign := fun (c : Instr) (u : UnitCode) => exec c s = .next (s0.syncExc x 0x07 0 th.pc u)
     let joins := fun (c : Instr) (ins : UnitIns) =>
       let q := fun k : Core => k.unitQueue ins.queue
       (queueCap ins.queue ≤ (q k).length → exec c s = .next s) ∧
       ((q k).length < queueCap ins.queue → ∃ t u, exec c s = .next t ∧ q (t.core i.core) = q k ++ [u] ∧ u.ins = ins ∧
         u.seq = k.nextSeq ∧ u.thread = i.thread ∧ (t.core i.core).tile = k.tile ∧ (t.core i.core).mem = k.mem ∧
         (t.thread x).status =
           if ins.guarded (k.service && ! th.ltn.legacy) th.ltn.abftf then .blocked (.guarded k.nextSeq) else th.status)
     (∀ (target : BitVec 5) (low : BitVec 17), Fires s i {} →
       ((24 ≤ target.toNat ∨ low ≠ 0) → illegal (.mzero i target low) .matrix) ∧
       (target.toNat < 24 → s.ownsTile x target.toNat = false → foreign (.mzero i target 0) .matrix) ∧
       (target.toNat < 24 → s.ownsTile x target.toNat = true → joins (.mzero i target 0) (.mzero target))) ∧
     (∀ (target : BitVec 5) (base stride : Reg) (tr : Bool) (low : BitVec 6), Fires s i { g := [base, stride] } →
       let row := if target.toNat < 16 then 64 else 128
       let st : Word := if stride = 31 then BitVec.ofNat 32 row else th.g stride
       ((24 ≤ target.toNat ∨ low ≠ 0 ∨ (tr = true ∧ 16 ≤ target.toNat)) →
         illegal (.mload i target base stride tr low) .matrix) ∧
       (target.toNat < 24 → (tr = true → target.toNat < 16) → (th.g base).toNat % 64 = 0 → st.toNat % 64 = 0 →
         (th.g base).toNat + 31 * st.toNat + row ≤ 0xC0000 →
         (s.ownsTile x target.toNat = false → foreign (.mload i target base stride tr 0) .matrix) ∧
         (s.ownsTile x target.toNat = true →
           joins (.mload i target base stride tr 0) (.mload target (th.g base) st tr)))) ∧
     (∀ (source : BitVec 5) (base stride gc : Reg) (low : Bool), Fires s i { g := [base, stride, gc] } →
       let z := th.g gc
       let row := mstoreRow source z true
       let st : Word := if stride = 31 then BitVec.ofNat 32 row else th.g stride
       let ins : UnitIns := .mstore source (th.g base) st z true
       ((24 ≤ source.toNat ∨ low = true ∨ mstoreLegal source z = false) →
         illegal (.mstore i source base stride gc true low) .matrix) ∧
       (source.toNat < 24 → mstoreLegal source z = true → (th.g base).toNat % 8 = 0 → st.toNat % 8 = 0 →
         (th.g base).toNat + (mstoreRows z true - 1) * st.toNat + row ≤ 0xC0000 →
         ((ins.readsT 0).all (s.ownsTile x) = false → foreign (.mstore i source base stride gc true false) .matrix) ∧
         ((ins.readsT 0).all (s.ownsTile x) = true → joins (.mstore i source base stride gc true false) ins))) ∧
     (∀ (source : BitVec 5) (base stride gc : Reg), Fires s i { g := [base, stride] } →
       let row := if source.toNat < 16 then 64 else 128
       let st : Word := if stride = 31 then BitVec.ofNat 32 row else th.g stride
       source.toNat < 24 → (th.g base).toNat % 64 = 0 → st.toNat % 64 = 0 →
       (th.g base).toNat + 31 * st.toNat + row ≤ 0xC0000 → s.ownsTile x source.toNat = true →
       joins (.mstore i source base stride gc false false) (.mstore source (th.g base) st 0 false)) ∧
     (∀ (acc : BitVec 3) (w a fmt : BitVec 4) (pair accz mx : Bool) (aux : BitVec 4), Fires s i {} →
       let ins : UnitIns := .mma acc w a fmt pair accz mx aux
       let c : Instr := .mma i acc w a fmt pair accz mx aux
       (11 < fmt.toNat → illegal c .matrix) ∧
       (mmaLegal th.ctl.mpass acc w a fmt pair mx aux = true →
         ((ins.allT th.ctl.mpass).all (s.ownsTile x) = false → foreign c .matrix) ∧
         ((ins.allT th.ctl.mpass).all (s.ownsTile x) = true → joins c ins))) ∧
     (∀ (acc : BitVec 3) (w a fmt : BitVec 4) (pair accz ratio : Bool) (md : BitVec 4), Fires s i {} →
       let ins : UnitIns := .mmas acc w a fmt pair accz ratio md
       let c : Instr := .mmas i acc w a fmt pair accz ratio md
       (md = w → illegal c .matrix) ∧
       (mmasLegal th.ctl.mpass acc w a fmt pair ratio md = true →
         ((ins.allT th.ctl.mpass).all (s.ownsTile x) = false → foreign c .matrix) ∧
         ((ins.allT th.ctl.mpass).all (s.ownsTile x) = true → joins c ins))) ∧
     (∀ (d tol : Reg) (acc : BitVec 3) (p : Bool) (low : BitVec 8), Fires s i { g := [tol], wg := [d] } →
       let ins : UnitIns := .mchk d acc p (th.g tol)
       let c : Instr := .mchk i d acc p tol 0
       ((low ≠ 0 ∨ 2 ^ 16 ≤ (th.g tol).toNat ∨ (p = true ∧ acc.toNat % 2 = 1)) →
         illegal (.mchk i d acc p tol low) .matrix) ∧
       ((th.g tol).toNat < 2 ^ 16 → (p = true → acc.toNat % 2 = 0) →
         ((ins.allT 0).all (s.ownsTile x) = false → foreign c .matrix) ∧
         ((ins.allT 0).all (s.ownsTile x) = true → joins c ins))) ∧
     (∀ (acc : BitVec 3) (xt : BitVec 4) (a b : Reg) (fmt : BitVec 4) (accz : Bool), Fires s i { g := [a, a + 1, b] } →
       let base := th.pair a
       let ins : UnitIns := .mvm acc xt base (th.g b) fmt accz
       let c : Instr := .mvm i acc xt a b fmt accz
       (mvmLegal a xt base (th.g b) fmt = false → illegal c .mv) ∧
       (mvmLegal a xt base (th.g b) fmt = true → fld base 19 0 % 8 = 0 → fld base 63 48 % 8 = 0 →
         fld base 19 0 + fld (th.g b) 19 10 * fld base 63 48 + fld base 47 32 * mvmWidth fmt ≤ 0xC0000 →
         (ins.allT 0).all (s.ownsTile x) = true → joins c ins)) ∧
     (∀ (ty : BitVec 3) (a b : Reg) (low : BitVec 5), Fires s i { g := [a, a + 1, b] } →
       let c : Instr := .vtopk i ty a b 0
       ((ty = 0 ∨ 3 < ty.toNat ∨ a.getLsbD 0 = true ∨ low ≠ 0) → illegal (.vtopk i ty a b low) .vector) ∧
       (topkLegal ty a 0 (th.g a) (th.g (a + 1)) (th.g b) = true → (th.g a).toNat % 64 = 0 →
         (th.g (a + 1)).toNat % 64 = 0 → joins c (.topk ty (th.g a) (th.g (a + 1)) (th.g b))))) ∧
  (∀ (s : State) (c : CoreId) (u : UnitQ) (n : Nat),
     (s.spireRuns (spireOf c) = false →
       exec (.unitQueueDispatch c u) s = .next s ∧ exec (.unitInstructionComplete c u n) s = .next s) ∧
     (s.spireRuns (spireOf c) = true → exec (.unitQueueDispatch c u) s = .next (s.dispatch c u)) ∧
     (s.spireRuns (spireOf c) = true → (∀ op, ((s.core c).unitQueue u)[n]? = some op → op.dispatched = false) →
       exec (.unitInstructionComplete c u n) s = .next s) ∧
     ∀ op, s.spireRuns (spireOf c) = true → ((s.core c).unitQueue u)[n]? = some op → op.dispatched = true →
       (∀ k p, k < n → ((s.core c).unitQueue u)[k]? = some p → p.ins.engine ≠ op.ins.engine) →
       exec (.unitInstructionComplete c u n) s =
         .next ((s.completeUnit { core := c, thread := op.thread } op).pollCore c) ∧
       ∀ target : BitVec 5, op.ins = .mzero target → target.toNat < 24 → u = .matrix →
         let t := s.completeUnit { core := c, thread := op.thread } op
         (∀ k, ((t.core c).tile.target target.toNat).view.byte k = 0) ∧
         (t.core c).queueM = (s.core c).queueM.filter (fun v => v.seq ≠ op.seq))

/-- Registers of the memories: `DRUM_PP` waits for the next edge, ignored where its region would leave the Drum;
`PC_INV` drops every line of the Spire's program cache; `WINV` drops, from every window cache of the quadrant, the
tenant's translations in its range and stays busy until no running stream holds one (R89, R90, R200, R208, R212).
Routing registers: `RTE_CFG` of an expert is ignored where its range leaves the 65,536 flits, else it holds the value;
`ROUTE_CTL` holds its assigned bits; the tick that runs goes on with the registers it started with (R344, R348). An
error found by a memory's scrub or by a read of Local: one record of class 0x01, severity 0, where it was corrected,
or of class 0x02, severity 1 and poisoned data, where it was not, with the byte address, is reported to the collector
of the memory's quadrant; the uncorrectable word is poisoned and no byte of any memory changes (R228, R229). The same of a
tile's word and of a word of a channel queue (R163, R282); a g or v register of wrong parity is marked, so that its next
reader faults; a line of an instruction cache, of a program cache or of a Belfry L2, and a window cache's entry, is
dropped with a record of class 0x03 for its tag, and a dirty word of the L2 is poisoned (R206, R228). Where the spec
names no place for an error (which structure the command may name), the command is the model's: log entry 29. -/
def Obligations.MemoryAndRoutingCommands : Prop :=
  (∀ (s : State) (ag : Agent) (sp : Spire) (q : Quad) (v : Word),
     (s.gate ag (s.agentPriv ag) .drumPp sp.toNat = .ok →
       (128 < v.toNat % 2 ^ 7 + 2 * (v.toNat / 2 ^ 8 % 2 ^ 7) → exec (.drumPpWrite ag sp v) s = .next s) ∧
       (v.toNat % 2 ^ 7 + 2 * (v.toNat / 2 ^ 8 % 2 ^ 7) ≤ 128 →
         exec (.drumPpWrite ag sp v) s = .next (s.modSpire sp fun k => { k with ppPend := some (v &&& 0x7F7F) }))) ∧
     (s.gate ag (s.agentPriv ag) .pcInv sp.toNat = .ok →
       exec (.pcInvWrite ag sp v) s = .next (if v.getLsbD 0 then
         s.modSpire sp fun k => { k with
           pcLines := []
           pcUsed := [] } else s)) ∧
     (s.gate ag (s.agentPriv ag) .fxbWinvCtl q.toNat = .ok → (s.quad q).winv = none →
       let d : WinvDrop := { tenant := v.setWidth 4, first := (s.creg .fxbWinvFirst q.toNat 0).setWidth 27,
                             count := (s.creg .fxbWinvCnt q.toNat 0).setWidth 21 }
       ∃ t, exec (.winvGo ag q v) s = .next t ∧ (t.quad q).winv = some d ∧
         (t.creg .fxbWinvCtl q.toNat 0).toNat % 16 = v.toNat % 16 ∧
         (∀ c e, cacheQuad c = q → (e ∈ t.winEntries c ↔ e ∈ s.winEntries c ∧ d.hits e = false)) ∧
         (∀ c, cacheQuad c ≠ q → t.winEntries c = s.winEntries c) ∧
         { t with
             regs := s.regs
             cores := s.cores
             spires := s.spires
             quads := s.quads } = s) ∧
     (∀ d, (s.quad q).winv = some d →
       exec (.winvDrainComplete q) s =
         .next (if s.winvHeld q d then s else s.modQuad q fun k => { k with winv := none }))) ∧
  (∀ (s : State) (ag : Agent) (c : CoreId) (e : BitVec 6) (v : Word),
     (s.gate ag (s.agentPriv ag) .rteCfg c.toNat = .ok →
       exec (.rteCfgWrite ag c e v) s = .next (
         if v.toNat / 2 ^ 16 + v.toNat % 2 ^ 8 * (v.toNat / 2 ^ 8 % 2 ^ 4 + 1) ≤ 65536
         then s.setCreg .rteCfg c.toNat e.toNat v else s)) ∧
     (s.gate ag (s.agentPriv ag) .routeCtl c.toNat = .ok →
       exec (.routeCtlWrite ag c v) s = .next (s.setCreg .routeCtl c.toNat 0
         ((s.creg .routeCtl c.toNat 0 &&& ~~~ 0xFF03) ||| (v &&& 0xFF03))))) ∧
  (∀ (s : State) (ue : Bool) (a : BitVec 37) (b : BitVec 20) (l : BitVec 17) (sp : Spire) (c : CoreId),
     let made := fun (t : State) (q : Quad) (kind : BitVec 4) (index : BitVec 12) (at0 : Nat) (tenant : BitVec 4) =>
       (t.quad q).reports = (s.quad q).reports ++
         [{ kind := kind, index := index, cls := if ue then 0x02 else 0x01, sev := if ue then 1 else 0, poison := ue,
            count := 1, first := s.ns, last := s.ns, detail := BitVec.ofNat 64 at0, tenant := tenant,
            device := (s.creg .skbDevid 0 0).setWidth 10, level := 0 }]
     let lost := fun (t : State) (q : Quad) (kind : BitVec 4) (index : BitVec 12) (tag : Bool) (at0 : Nat)
         (tenant : BitVec 4) =>
       (t.quad q).reports = (s.quad q).reports ++
         [{ kind := kind, index := index, cls := if tag then 0x03 else 0x01, sev := 0, poison := false,
            count := 1, first := s.ns, last := s.ns, detail := BitVec.ofNat 64 at0, tenant := tenant,
            device := (s.creg .skbDevid 0 0).setWidth 10, level := 0 }]
     (farPopulated (8 * a.toNat) = true → s.domCarries (76 + farStack (8 * a.toNat)) = true →
       ∃ t, exec (.memoryScrub (.far a) ue) s = .next t ∧
         made t (farQuad (8 * a.toNat)) 3 (BitVec.ofNat 12 (farStack (8 * a.toNat))) (8 * a.toNat) 0 ∧
         t.far = (if ue then s.far.poisonWord (8 * a.toNat) else s.far) ∧
         t.cores = s.cores ∧ t.spires = s.spires ∧ t.threads = s.threads) ∧
     (s.domCarries sp.toNat = true →
       ∃ t, exec (.memoryScrub (.drum sp b) ue) s = .next t ∧ made t (quadOf sp) 1 (sp.setWidth 12) (8 * b.toNat) 0 ∧
         (t.spire sp).drum = (if ue then (s.spire sp).drum.poisonWord (8 * b.toNat) else (s.spire sp).drum) ∧
         (ue = false → t.creg .drumCe sp.toNat 0 = satAdd (s.creg .drumCe sp.toNat 0) 1) ∧
         t.far = s.far ∧ t.cores = s.cores ∧ t.threads = s.threads) ∧
     (8 * l.toNat < 0xC0000 → s.domCarries (spireOf c).toNat = true →
       ∃ t, exec (.memoryScrub (.localMem c l) ue) s = .next t ∧
         made t (quadOf (spireOf c)) 0 (c.setWidth 12) (8 * l.toNat) (s.core c).tenant ∧
         (t.core c).mem = (if ue then (s.core c).mem.poisonWord (8 * l.toNat) else (s.core c).mem) ∧
         (ue = false → t.creg .memCe c.toNat 0 = satAdd (s.creg .memCe c.toNat 0) 1) ∧
         t.far = s.far ∧ t.spires = s.spires ∧ t.threads = s.threads) ∧
     (∀ (code : BitVec 5) (w : BitVec 9), code.toNat < 24 → (code.toNat < 16 → w.toNat < 256) →
       s.domCarries (spireOf c).toNat = true →
       ∃ t, exec (.memoryScrub (.tile c code w) ue) s = .next t ∧
         made t (quadOf (spireOf c)) 0 (c.setWidth 12) (2 ^ 12 * code.toNat + 8 * w.toNat) (s.core c).tenant ∧
         ((t.core c).tile.target code.toNat).data =
           (if ue then ((s.core c).tile.target code.toNat).data.poisonWord (8 * w.toNat)
            else ((s.core c).tile.target code.toNat).data) ∧ t.threads = s.threads) ∧
     (∀ (x : Tid) (n : BitVec 2) (k : BitVec 5), k.toNat < ((s.thread x).ep n).queue.length →
       s.domCarries (spireOf x.core).toNat = true →
       ∃ t, exec (.memoryScrub (.queue x n k) ue) s = .next t ∧
         made t (quadOf (spireOf x.core)) 0 (x.core.setWidth 12) (epId x n).toNat (s.thread x).tenant ∧
         ((t.thread x).ep n).queue = ((s.thread x).ep n).queue.zipIdx.map fun p =>
           if ue = true ∧ p.2 = k.toNat then { p.1 with poison := true } else p.1) ∧
     (∀ (x : Tid) (r : Reg), s.domCarries (spireOf x.core).toNat = true →
       (r ≠ 31 → exec (.memoryScrub (.gReg x r) true) s = .next (s.modThread x fun th =>
         th.setBank { th.bank with bad := th.bank.bad ||| (1#32 <<< r.toNat) })) ∧
       exec (.memoryScrub (.vReg x r) true) s =
         .next (s.modThread x fun th => { th with badV := th.badV ||| (1#32 <<< r.toNat) })) ∧
     (∀ (line : Nat) (tag : Bool),
       let drops := tag || ue
       (s.domCarries (spireOf c).toNat = true → (s.core c).icache.hits (64 * line) = true →
         ∃ t, exec (.memoryScrub (.icache c line tag) ue) s = .next t ∧
           lost t (quadOf (spireOf c)) 0 (c.setWidth 12) tag (64 * line) (s.core c).tenant ∧
           (t.core c).icache.hits (64 * line) = ! drops) ∧
       (s.domCarries sp.toNat = true → ((s.spire sp).pcWay line).isSome = true →
         ∃ t, exec (.memoryScrub (.pcache sp line tag) ue) s = .next t ∧
           lost t (quadOf sp) 1 (sp.setWidth 12) tag (64 * line) 0 ∧
           ((t.spire sp).pcWay line).isSome = ! drops)) ∧
     (∀ (w : WinCache) (n : BitVec 4) (g : BitVec 27), (∃ e ∈ s.winEntries w, e.tenant = n ∧ e.granule = g) →
       ∃ t, exec (.memoryScrub (.window w n g) ue) s = .next t ∧
         (∀ e, e ∈ t.winEntries w ↔ e ∈ s.winEntries w ∧ ¬ (e.tenant = n ∧ e.granule = g)) ∧
         (∀ x, w = .core x → lost t (quadOf (spireOf x)) 0 (x.setWidth 12) true g.toNat n)) ∧
     (∀ (b : BCore) (tag : Bool), s.domCarries (64 + (belQuad b).toNat) = true →
       ∃ t, exec (.memoryScrub (.belfryL1 b tag) ue) s = .next t ∧
         lost t (belQuad b) 6 (b.setWidth 12) tag 0 (s.bel b).tenant ∧ t.belfry = s.belfry ∧ t.far = s.far) ∧
     (∀ (q : Quad) (n : Nat) (w : BitVec 3) (line : L2Line), s.domCarries (64 + q.toNat) = true →
       (s.quad q).line? n = some line →
       (∃ t, exec (.memoryScrub (.belfryL2 q n w true) ue) s = .next t ∧ (t.quad q).line? n = none ∧ t.far = s.far) ∧
       ∃ t, exec (.memoryScrub (.belfryL2 q n w false) ue) s = .next t ∧ t.far = s.far ∧
         (t.quad q).line? n = some (if ue = true ∧ line.dirty.extractLsb' (8 * w.toNat) 8 ≠ 0 then
           { line with bad := line.bad ||| (1#8 <<< w.toNat) } else line)))

/-- Exception entry of a Belfry core with a valid descriptor and room on the stack: a 64-byte frame lies 64 bytes
below the stack of the handler's privilege and begins with the address and the status it left, the cause, the detail,
g29 and `PROGRESS`; the core goes on at the handler, with the stack in g29, the privilege of the descriptor, and
interrupts off unless the descriptor keeps them; where the L2 holds the lines in question, no other byte changes (R96,
R119, R121). `eret` gives back what the frame holds, `trap` and `brk` enter their vectors, and the exception registers
are read and written by number, locked ones keeping their values (R93, R119, R121; the privilege that a register asks
for is log entry 112). The Belfry's interrupt controller: a core that takes interrupts stacks the best deliverable
source with its priority, clears the source's edge and enters the vector that its register names with the source as
detail; end-of-interrupt of the source on top pops it, of any other enters 0x3A; SET of a software source latches its
edge (R115 to R117, R122). -/
def Obligations.BelfryCores : Prop :=
  (∀ (s : State) (b : BCore) (vec : BitVec 8) (detail : DWord) (prio : Nat),
     let k := s.bel b
     let d := s.belfryDesc b vec.toNat
     let p := d.ctl.toNat / 2 ^ 12 % 4
     let top := if p = k.priv.code.toNat then k.gr 29 else k.reg (if p = 3 then 0x806 else 0x804)
     let limit := k.reg (if p = 3 then 0x807 else 0x805)
     let sp := top - 64
     let t := s.belfryEnter b vec detail prio
     let held := fun a : Nat => ((s.quad (belQuad b)).line? (a / 64)).isSome = true
     k.halted = false → k.held = false → d.invalidBelfry vec = false → 64 ≤ top.toNat → limit.toNat ≤ sp.toNat →
       (t.bel b).pc = d.handler ∧ (t.bel b).gr 29 = sp ∧ (t.bel b).progress = 0 ∧
       (t.bel b).reg 0x801 = k.pc ∧ (t.bel b).reg 0x803 = detail ∧
       (t.bel b).status.toNat / 2 ^ 8 % 4 = p ∧
       (t.bel b).status.getLsbD 0 = (d.ctl.getLsbD 15 && k.status.getLsbD 0) ∧
       t.l2Read (belQuad b) sp.toNat 8 = k.pc.toNat ∧
       t.l2Read (belQuad b) (sp.toNat + 8) 8 = k.status.toNat ∧
       t.l2Read (belQuad b) (sp.toNat + 16) 8 = ((t.bel b).reg 0x802).toNat ∧
       t.l2Read (belQuad b) (sp.toNat + 24) 8 = detail.toNat ∧
       t.l2Read (belQuad b) (sp.toNat + 32) 8 = (k.gr 29).toNat ∧
       t.l2Read (belQuad b) (sp.toNat + 40) 8 = k.progress.toNat ∧
       (∀ n, n < 31 → n ≠ 29 → (t.bel b).gr n = k.gr n) ∧
       (∀ c, c ≠ b → t.bel c = s.bel c) ∧ t.threads = s.threads ∧ t.cores = s.cores ∧
       ((∀ j, j < 16 → held ((k.reg 0x80A).toNat + 16 * vec.toNat + j)) → (∀ j, j < 64 → held (sp.toNat + j)) →
         t.far = s.far ∧
         ∀ a, (a < sp.toNat ∨ sp.toNat + 64 ≤ a) → t.l2Byte (belQuad b) a = s.l2Byte (belQuad b) a)) ∧
  (∀ (s : State) (b : BCore) (g : Reg) (num : BitVec 12) (n : BitVec 7),
     let s0 := s.belfryJudge b
     let k := s0.bel b
     let on := fun t : State => { k with pc := k.pc + 4 } = { t.bel b with g := k.g, status := k.status, regs := k.regs,
                                                                           locked := k.locked } ∧
       { t with belfry := s0.belfry } = s0
     BelRuns s b →
       (((num.toNat < 0x800 ∨ 0x80B < num.toNat) →
          exec (.ctlr (.belfry b) g num) s = .next (s0.belfryEnter b 0x01 0 0)) ∧
        (0x800 ≤ num.toNat → num.toNat ≤ 0x80B → k.priv = .user →
          exec (.ctlr (.belfry b) g num) s = .next (s0.belfryEnter b 0x02 0 0)) ∧
        (0x801 ≤ num.toNat → num.toNat ≤ 0x80A → k.priv ≠ .user →
          (∃ t, exec (.ctlr (.belfry b) g num) s = .next t ∧ on t ∧
            (g ≠ 31 → (t.bel b).gr g.toNat = k.reg num.toNat) ∧
            ∀ r, r ≠ g.toNat → (t.bel b).gr r = k.gr r) ∧
          ∃ t, exec (.ctlw (.belfry b) g num) s = .next t ∧ on t ∧ (t.bel b).g = k.g ∧
            (t.bel b).status = k.status ∧
            (∀ r, r ≠ num.toNat → (t.bel b).reg r = k.reg r) ∧
            (t.bel b).reg num.toNat =
              (if num = 0x804 then k.gr g.toNat
               else if num.toNat < 0x805 ∨ k.locked = true then k.reg num.toNat
               else if num = 0x80A then k.gr g.toNat &&& 0xFFFFFFFFFFFFF000
               else k.gr g.toNat)) ∧
        (k.priv ≠ .user →
          ∃ t, exec (.ctlw (.belfry b) g 0x800) s = .next t ∧ on t ∧ (t.bel b).g = k.g ∧
            (∀ j, (t.bel b).status.getLsbD j =
              if j = 0 then (k.gr g.toNat).getLsbD 0 else k.status.getLsbD j)) ∧
        (k.priv ≠ .user →
          ∃ t, exec (.ctls (.belfry b) g 0x80B) s = .next t ∧ on t ∧ (t.bel b).regs = k.regs ∧
            (t.bel b).locked = (k.locked || (decide (k.priv = .machine) && (k.gr g.toNat).getLsbD 0))) ∧
        (k.priv ≠ .user →
          ∃ t, exec (.ctlc (.belfry b) g 0x800) s = .next t ∧ on t ∧
            (t.bel b).status.getLsbD 0 = (k.status.getLsbD 0 && ! (k.gr g.toNat).getLsbD 0))) ∧
       exec (.brk (.belfry b)) s = .next (s0.belfryEnter b 0x08 0 0) ∧
       exec (.trap (.belfry b) n 0) s = .next (s0.belfryTake b
         { vec := 0x80 + n.setWidth 8, detail := 0, prio := 0, ret := k.pc + 4, level := none }) ∧
       (let a := (k.gr 29).toNat
        let s1 := s0.l2Touch (belQuad b) a 64
        let w := fun o => s1.l2Read (belQuad b) (a + o) 8
        let back := Priv.ofCode (BitVec.ofNat 2 (w 8 / 2 ^ 8))
        k.priv ≠ .user → back.code.toNat ≤ k.priv.code.toNat → s1.l2Bad (belQuad b) a 64 = false → w 0 % 4 = 0 →
          ∃ t, exec (.eret (.belfry b)) s = .next t ∧ (t.bel b).pc.toNat = w 0 ∧
            (t.bel b).status.toNat = w 8 % 2 + w 8 / 2 ^ 8 % 4 * 2 ^ 8 ∧ ((t.bel b).gr 29).toNat = w 0x20 ∧
            (t.bel b).progress.toNat = w 0x28 % 2 ^ 32 ∧ (∀ r, r ≠ 29 → (t.bel b).gr r = k.gr r) ∧
            t.threads = s.threads ∧ t.cores = s.cores)) ∧
  (∀ (s : State) (bf : BCore) (ag : Agent) (q : Quad) (k : BitVec 2) (n : BitVec 10) (v : Word),
     (let b := s.bel bf
      let bq := belQuad bf
      let c := bf.toNat % 4
      b.halted = false → b.held = false → b.block = none → b.status.getLsbD 0 = true →
      s.domCarries (64 + bq.toNat) = true →
      ∀ m, s.bicBest bq c = some m →
       let prio := (s.creg .bicSrc bq.toNat m).toNat / 2 ^ 8 % 2 ^ 6
       ∃ s1 : State, exec (.belfryInterruptDelivery bf) s = .next (s1.belfryTake bf
           { vec := BitVec.ofNat 8 (0x40 + (s.creg .bicSrc bq.toNat m).toNat / 2 ^ 2 % 2 ^ 6)
             detail := BitVec.ofNat 64 m
             prio := prio
             ret := b.pc
             level := if bicLevel m then some (BitVec.ofNat 10 m) else none }) ∧
         (s1.quad bq).bicStack c = (BitVec.ofNat 10 m, BitVec.ofNat 6 prio) :: (s.quad bq).bicStack c ∧
         Store.get false (s1.quad bq).bicEdge m = false ∧
         (∀ j, j ≠ m → Store.get false (s1.quad bq).bicEdge j = Store.get false (s.quad bq).bicEdge j) ∧
         (∀ d, d ≠ c → (s1.quad bq).bicStack d = (s.quad bq).bicStack d) ∧
         { s1 with quads := s.quads } = s) ∧
     (s.gate ag (s.agentPriv ag) .bicEoi q.toNat = .ok →
       let s0 := s.belfryJudge (q ++ k)
       (∀ e rest, (s.quad q).bicStack k.toNat = e :: rest → e.1 = v.setWidth 10 →
         ∃ t, exec (.bicEoiWrite ag q k v) s = .next t ∧ (t.quad q).bicStack k.toNat = rest ∧
           (∀ d, d ≠ k.toNat → (t.quad q).bicStack d = (s.quad q).bicStack d) ∧
           (t.quad q).bicEdge = (s.quad q).bicEdge ∧ t.belfry = s0.belfry ∧ t.threads = s.threads) ∧
       ((∀ e rest, (s.quad q).bicStack k.toNat = e :: rest → e.1 ≠ v.setWidth 10) →
         exec (.bicEoiWrite ag q k v) s =
           .next (s0.belfryEnter (q ++ k) 0x3A ((v.setWidth 10 : BitVec 10).setWidth 64) 0))) ∧
     (s.gate ag (s.agentPriv ag) .bicSrc q.toNat = .ok →
       ∃ t, exec (.bicSrcSetWrite ag q n) s = .next t ∧
         t.creg .bicSrc q.toNat n.toNat = s.creg .bicSrc q.toNat n.toNat ∧
         (t.quad q).bicEdge =
           (if 0x180 ≤ n.toNat ∧ n.toNat < 0x200 then Store.set false (s.quad q).bicEdge n.toNat true
            else (s.quad q).bicEdge) ∧
         { t with
             quads := s.quads
             regs := s.regs } = s))

/-- A fill puts a line where the cache finds it and keeps the locks; the way that a miss fills is not locked while one is
open (which open way: log entry 109). A running thread whose line is not there counts one miss and stalls; the miss
outstanding for it fills its line, and the thread goes on; a line that Far holds poisoned raises `ECC_UNCORRECTED`
instead (R27, R87). `ipreload` in User raises `PRIVILEGE`, of an empty range only goes on, else stalls until its last
line is loaded into its way (R88, R112). The cache range instructions: on a compute core they are illegal; on Duboette,
whose addresses are physical, a range within one line that the L2 holds writes the line's dirty bytes to Far
(`inval.range` only those outside the range), `clean.range` keeps the line, now clean, `inval.range` removes it, and the
core goes on at the next instruction; a range of no bytes only goes on (R112, R225, R226). -/
def Obligations.CacheFillsAndRanges : Prop :=
  ((∀ (k : ICache) (a : Nat) (w : Nat), w < 4 → (k.fill a w).hits a = true ∧ (k.fill a w).lock = k.lock) ∧
   (∀ (k : ICache) (set : Nat), k.lock ≠ 0xF → k.victim set < 4 ∧ bit k.lock (k.victim set) = false) ∧
   (∀ (s : State) (x : Tid) (p : Nat), (s.thread x).status = .running → s.spireRuns (spireOf x.core) = true →
     (s.core x.core).miss = none → (s.fetchPhys x (s.codeAddr x (s.thread x).pc)).1 = some p →
     let f := (s.fetchPhys x (s.codeAddr x (s.thread x).pc)).2
     ((f.core x.core).icache.hits p = true → exec (.icacheFill x) s = .next f) ∧
     ((f.core x.core).icache.hits p = false →
       ∃ t, exec (.icacheFill x) s = .next t ∧ (t.thread x).status = .blocked .fetch ∧
         (t.core x.core).miss = some ((f.core x.core).miss.getD (x, p)) ∧
         (t.core x.core).icmiss = satAdd (f.core x.core).icmiss 1 ∧
         (t.core x.core).icache = (f.core x.core).icache ∧ ∀ y, y ≠ x → t.thread y = f.thread y)) ∧
   (∀ (s : State) (x : Tid) (p : Nat), (s.thread x).status = .blocked .fetch → s.spireRuns (spireOf x.core) = true →
     (s.core x.core).miss = some (x, p) →
     (s.lineBad x.core p = false →
       ∃ t, exec (.icacheFill x) s = .next t ∧ (t.core x.core).icache.hits p = true ∧ (t.core x.core).miss = none ∧
         (t.thread x).status = .running ∧ (t.core x.core).mem = (s.core x.core).mem) ∧
     (s.lineBad x.core p = true →
       exec (.icacheFill x) s = .next
         (((s.modCore x.core fun k => { k with miss := none }).refetch x.core).syncExc x 0x05
           (BitVec.ofNat 32 (s.codeAddr x (s.thread x).pc)) (s.thread x).pc .scalar))) ∧
   (∀ (s : State) (x : Tid) (way first total k p : Nat), way < 4 →
     (s.thread x).status = .blocked (.preload way first total k) → s.spireRuns (spireOf x.core) = true →
     let r := s.fetchPhys x (s.codeAddr x 0 + 64 * (first + k))
     r.1 = some p → r.2.lineBad x.core p = false →
       ∃ t, exec (.icacheFill x) s = .next t ∧ (t.core x.core).icache.line (p / 64 % 128) way = p / 64 + 1 ∧
         (k + 1 < total → (t.thread x).status = .blocked (.preload way first total (k + 1)))) ∧
   ∀ (s : State) (i : Iss) (d a b : Reg), Fires s i { g := [a, b] } →
     let th := s.issuer i
     let lo := (th.g a).toNat
     let n := (th.g b).toNat
     let lines := (lo + n - 1) / 64 + 1 - lo / 64
     (th.priv = .user →
       exec (.ipreload i d a b) s = .next ((s.atIssue i).syncExc (tidOf i) 0x02 0 th.pc .scalar)) ∧
     (th.priv ≠ .user → (n = 0 ∨ lines ≤ th.progressOf 6) →
       exec (.ipreload i d a b) s = .next (((s.atIssue i).modThread (tidOf i) Thread.endProgress).retired (tidOf i))) ∧
     (th.priv ≠ .user → n ≠ 0 → th.progressOf 6 < lines →
       exec (.ipreload i d a b) s = .next (((s.atIssue i).accounted (tidOf i)).modThread (tidOf i) fun th' =>
         { th' with status := .blocked (.preload (d.toNat % 4) (lo / 64) lines (th.progressOf 6)) }))) ∧
  ((∀ (s : State) (i : Iss) (a g : Reg) (lines : Nat), Fires s i {} →
     exec (.cleanRange (.compute i) a g lines) s =
       .next ((s.atIssue i).syncExc (tidOf i) 0x01 0 (s.issuer i).pc .scalar) ∧
     exec (.invalRange (.compute i) a g lines) s =
       .next ((s.atIssue i).syncExc (tidOf i) 0x01 0 (s.issuer i).pc .scalar)) ∧
   ∀ (s : State) (b : BCore) (a g : Reg) (lines : Nat),
     let s0 := s.belfryJudge b
     let q := belQuad b
     let k := s0.bel b
     let lo := (k.gr a.toNat).toNat
     let len := (k.gr g.toNat).toNat
     let n := lo / 64
     let on := fun t : State => { s0 with
       quads := t.quads
       far := t.far } = { t with belfry := s0.belfry } ∧
       t.bel b = { k with pc := k.pc + 4 }
     b.toNat % 4 = 0 → BelRuns s b → k.progress = 0 →
     (len = 0 → (∃ t, exec (.cleanRange (.belfry b) a g lines) s = .next t ∧ on t ∧ t.far = s.far ∧ t.quads = s0.quads) ∧
       ∃ t, exec (.invalRange (.belfry b) a g lines) s = .next t ∧ on t ∧ t.far = s.far ∧ t.quads = s0.quads) ∧
     (0 < len → lo % 64 + len ≤ 64 → 0 < lines →
       ((s.quad q).line? n = none →
         (∃ t, exec (.cleanRange (.belfry b) a g lines) s = .next t ∧ on t ∧ t.far = s.far ∧ t.quads = s0.quads) ∧
         ∃ t, exec (.invalRange (.belfry b) a g lines) s = .next t ∧ on t ∧ t.far = s.far ∧ t.quads = s0.quads) ∧
       ∀ l, (s.quad q).line? n = some l →
         let wrote := fun (t : State) (sel : Nat → Prop) =>
           (∀ o, o < 64 → l.dirty.getLsbD o = true → sel (64 * n + o) → t.far.byte (64 * n + o) = l.byte o) ∧
           ∀ j, (j / 64 ≠ n ∨ l.dirty.getLsbD (j % 64) = false ∨ ¬ sel j) → t.far.byte j = s.far.byte j
         (∃ t, exec (.cleanRange (.belfry b) a g lines) s = .next t ∧ on t ∧
           (t.quad q).line? n = some { l with dirty := 0 } ∧ wrote t fun _ => True) ∧
         ∃ t, exec (.invalRange (.belfry b) a g lines) s = .next t ∧ on t ∧
           (t.quad q).line? n = none ∧ wrote t fun j => j < lo ∨ lo + len ≤ j))

/-- DOZE: a Spire whose conditions hold enters it and counts from that cycle; one that a cause wakes leaves it, with
the cycles counted in `SPD_DOZECC`, and one wake in `SPD_WAKES` unless an edge notice woke it; without the conditions
or the cause nothing changes (R345, R346). The conditions of DOZE: the domain is on, DOZE is enabled, no stream of a
core or of the Turret runs, and every listed thread sleeps or is disabled (R345). The router of a dozing Spire holds
every packet for its cores, its Drum or its control block outside the Cupola: none is taken until the Spire has left
DOZE (R346). -/
def Obligations.SpireDoze : Prop :=
  (∀ (s : State) (sp : Spire) (cause : WakeCause),
     (s.mayDoze sp = true → (s.spire sp).doze.dozing = false →
       exec (.dozeEntry sp) s = .next (s.modSpire sp fun k => { k with doze := { dozing := true, since := s.now } })) ∧
     (s.mayDoze sp = false → exec (.dozeEntry sp) s = .next s) ∧
     (s.wakes sp cause = false → exec (.dozeExit sp cause) s = .next s) ∧
     (s.wakes sp cause = true → (s.spire sp).doze.dozing = true →
       ∃ t, exec (.dozeExit sp cause) s = .next t ∧ (t.spire sp).doze.dozing = false ∧
         t.creg .spdDozecc sp.toNat 0 = satAdd (s.creg .spdDozecc sp.toNat 0) (s.now - (s.spire sp).doze.since) ∧
         t.creg .spdWakes sp.toNat 0 =
           (if cause = .edgeNotice then s.creg .spdWakes sp.toNat 0 else satAdd (s.creg .spdWakes sp.toNat 0) 1) ∧
         (∀ p, p ≠ sp → t.spire p = s.spire p) ∧
         { t with
             spires := s.spires
             regs := s.regs } = s)) ∧
  (∀ (s : State) (sp : Spire), s.mayDoze sp = true →
     (s.dom sp.toNat).st = .on ∧ bit (s.creg .spdCtl sp.toNat 0) 0 = true ∧
     (∀ c k st, spireOf c = sp → (k, st) ∈ (s.core c).slots → st.running = false) ∧
     (∀ k st, (k, st) ∈ (s.spire sp).turret → st.running = false) ∧
     ∀ x : Tid, spireOf x.core = sp → (s.thread x).status ≠ .running ∧ (s.thread x).status ≠ .armed) ∧
  (∀ (s : State) (id : Nat) (p : Packet), s.arrived? id = some p → (s.spire (spireOf p.dst)).doze.dozing = true →
     p.body.forSpire = false) ∧
  (∀ (s : State) (sp : Spire) (p : Packet), p ∈ s.flight → p.pos = p.dst → spireOf p.dst = sp →
     p.body.forSpire = true → s.wakes sp .packet = true ∨ s.wakes sp .answer = true)

/-- A router's time: a cycle runs only once every router that feeds it has passed it, and moves the router one cycle
on where nothing arrives and its entry drives nothing; an entry expires after its last cycle, the last entry, or one
whose successor has DUR = 0, ends the schedule, and the entry after it starts with its DUR; a delivery that is due is
written, and with none due nothing happens (R232, R236, R241, R242, R248). A DATA flit that is due at the core port of
a channel bound to no stream, in Local and with a location inside it: its first WIDTH bytes are Local's bytes there,
every other byte stays, `SMR_FLITS` counts it and the delivery is over; a void flit to Local without MANDATORY or zero
policy changes no byte and is counted in `SMR_VOIDS` (R239, R245, R248, R249). -/
def Obligations.RouterTimeAndDelivery : Prop :=
  (∀ (s : State) (c : CoreId) (ins : List Sampled),
     let r := s.router c
     let w := r.bank.entry r.index
     exec (.smeshFlitArrival c ins) s = .next (if s.cycleReady c then s.routerCycle c ins else s) ∧
     (s.cycleReady c = true → r.live = false → r.reduced = [] → r.deliveries = [] → r.sigs = [] →
       (∀ d, Store.get [] s.links (linkKey c d) = []) →
       ∃ t, exec (.smeshFlitArrival c ins) s = .next t ∧ (t.router c).cycle = r.cycle + 1 ∧
         (t.router c).live = false ∧ t.flight = s.flight ∧ t.threads = s.threads ∧ (t.core c).mem = (s.core c).mem) ∧
     (s.fabricRuns (quadOf (spireOf c)) = true → r.live = true → r.left = 0 → eSig w = false → r.sigs = [] →
       ((eLast w = true ∨ 4095 ≤ r.index ∨ eDur (r.bank.entry (r.index + 1)) = 0) →
         ∃ t, exec (.scheduleEntryExpiry c) s = .next t ∧ (t.router c).live = false ∧ (t.core c).mem = (s.core c).mem ∧
           t.flight = s.flight ∧ ∀ b, b ≠ c → t.core b = s.core b) ∧
       (eLast w = false → r.index < 4095 → eDur (r.bank.entry (r.index + 1)) ≠ 0 →
         evenOnes (r.bank.entry (r.index + 1)) = true →
         ∃ t, exec (.scheduleEntryExpiry c) s = .next t ∧ (t.router c).live = true ∧
           (t.router c).index = r.index + 1 ∧ (t.router c).left = eDur (r.bank.entry (r.index + 1)) ∧
           (t.router c).bank = r.bank ∧ t.flight = s.flight ∧ ∀ b, b ≠ c → t.core b = s.core b)) ∧
     (r.live = false → exec (.scheduleEntryExpiry c) s = .next s) ∧
     ((∀ d ∈ r.deliveries, r.cycle ≤ d.due) → exec (.corePortDelivery c) s = .next s)) ∧
  (∀ (s : State) (c : CoreId) (d : Delivery),
     let r := s.router c
     let chan := r.chan d.chan
     let n := chanBytes chan
     r.deliveries = [d] → d.due < r.cycle → r.sigs = [] → r.reduced = [] → s.domCarries (spireOf c).toNat = true →
     s.boundStream c d.chan = none → d.flit.poison = 0 →
     ∀ a, chanLoc chan d.n = some (.inLocal a) →
       (d.flit.void = false →
         ∃ t, exec (.corePortDelivery c) s = .next t ∧ (t.router c).deliveries = [] ∧
           t.creg .smrFlits c.toNat 0 = satAdd (s.creg .smrFlits c.toNat 0) 1 ∧
           (∀ k, k < n → k < 64 → (t.core c).mem.byte (a + k) = d.flit.data.extractLsb' (8 * k) 8) ∧
           (∀ j, (j < a ∨ a + min n 64 ≤ j) → (t.core c).mem.byte j = (s.core c).mem.byte j) ∧
           (t.core c).tile = (s.core c).tile ∧ t.threads = s.threads ∧ ∀ b, b ≠ c → t.core b = s.core b) ∧
       (d.flit.void = true → eVpol d.entry = 0 →
         ∃ t, exec (.corePortDelivery c) s = .next t ∧ (t.router c).deliveries = [] ∧
           t.creg .smrVoids c.toNat 0 = satAdd (s.creg .smrVoids c.toNat 0) 1 ∧
           (t.core c).mem = (s.core c).mem ∧ (t.core c).tile = (s.core c).tile ∧ t.threads = s.threads))

/-- Access to a router's banks: `SMR_TDHI` with an entry selected commits both halves to the selected bank and clears
READY, `SMR_TDLO` with a descriptor word selected commits that word; a write to the active bank, or while the router
is to swap, changes no bank, sets WREF and is recorded; a read of `SMR_TDLO` latches the whole location for its
reader; `SMR_PREADY` sets bits (R247, R253, R255, R268). The schedule loader: GO with no load running and blocks to
load sets BUSY and starts at the first block's address, with no blocks it does nothing; a block that fails its checks
ends the load with its cause in ERR; one that passes is written to the inactive bank of its router, which becomes
READY for the tenant, and the next one starts, or the load ends (R253 to R255). Arming and cancelling a swap: ARM sets
ARMED, CANCEL clears it, each with the tenant of the write and the causes that it clears (R256). -/
def Obligations.RouterBanksAndSwaps : Prop :=
  (∀ (s : State) (ag : Agent) (c : CoreId) (v : Word),
     let r := s.router c
     let sel := bit (s.creg .smrTidx c.toNat 0) 12
     let desc := bit (s.creg .smrTidx c.toNat 0) 13
     let k := (s.creg .smrTidx c.toNat 0).toNat % 2 ^ 12
     (s.gate ag (s.agentPriv ag) .smrTdhi c.toNat = .ok → desc = false →
       (sel ≠ r.active → r.swap = false →
         ∃ t, exec (.smrTdhiWrite ag c v) s = .next t ∧
           ((t.router c).bankAt sel).entry k = v ++ s.creg .smrTdlo c.toNat 0 ∧
           (∀ j, j ≠ k → ((t.router c).bankAt sel).entry j = (r.bankAt sel).entry j) ∧
           (t.router c).bankAt (!sel) = r.bankAt (!sel) ∧ (t.router c).ready = false ∧
           (t.router c).active = r.active ∧ (∀ b, b ≠ c → t.core b = s.core b)) ∧
       ((sel = r.active ∨ r.swap = true) →
         ∃ t, exec (.smrTdhiWrite ag c v) s = .next t ∧ (t.router c).bank0 = r.bank0 ∧ (t.router c).bank1 = r.bank1 ∧
           (t.router c).wref = true ∧ (t.router c).ready = r.ready)) ∧
     (s.gate ag (s.agentPriv ag) .smrTdlo c.toNat = .ok →
       (desc = false → exec (.smrTdloWrite ag c v) s = .next (s.setCreg .smrTdlo c.toNat 0 v)) ∧
       (desc = true → sel ≠ r.active → r.swap = false →
         ∃ t, exec (.smrTdloWrite ag c v) s = .next t ∧
           (Store.get (0 : BitVec 128) ((t.router c).bankAt sel).chans (k / 4 % 8)).extractLsb' (32 * (k % 4)) 32 = v ∧
           (∀ j, j ≠ k / 4 % 8 → Store.get (0 : BitVec 128) ((t.router c).bankAt sel).chans j =
             Store.get 0 (r.bankAt sel).chans j) ∧
           (t.router c).bankAt (!sel) = r.bankAt (!sel) ∧ (t.router c).ready = r.ready) ∧
       (desc = true → (sel = r.active ∨ r.swap = true) →
         ∃ t, exec (.smrTdloWrite ag c v) s = .next t ∧ (t.router c).bank0 = r.bank0 ∧ (t.router c).bank1 = r.bank1 ∧
           (t.router c).wref = true)) ∧
     (s.blockOpen .smrTdlo c.toNat = true →
       exec (.smrTdloRead ag c) s = .next (s.modRouter c fun r =>
         { r with latch := (ag, s.tidxRead c) :: r.latch.filter fun p => decide (p.1 ≠ ag) })) ∧
     (s.gate ag (s.agentPriv ag) .smrPready c.toNat = .ok →
       ∃ t, exec (.smrPreadySet ag c v) s = .next t ∧
         { t.router c with freed := r.freed } = { r with pready := r.pready ||| v.setWidth 8 } ∧
         (∀ j, j < 8 → ((t.router c).freed.getLsbD j = true ↔ r.freed.getLsbD j = true ∨ (v.getLsbD j = true ∧
           ∃ x : Tid, ag = .thread x ∧ x.core = c ∧ s.chanOwner c (r.chan j) = some x.thread))) ∧
         (∀ b, b ≠ c → t.core b = s.core b) ∧ t.threads = s.threads)) ∧
  (∀ (s : State) (ag : Agent) (q : Quad) (v : Word),
     let ctl := s.creg .smlCtl q.toNat 0
     (s.gate ag (s.agentPriv ag) .smlCtl q.toNat = .ok →
       (v.getLsbD 0 = true → ctl.getLsbD 1 = false → 0 < s.loadNum q →
         ∃ t, exec (.scheduleLoadGo ag q v) s = .next t ∧
           (t.quad q).load = some (0, (s.creg .smlSrcHi q.toNat 0).toNat % 2 ^ 8 * 2 ^ 32 +
             (s.creg .smlSrcLo q.toNat 0).toNat / 64 * 64) ∧
           (t.creg .smlCtl q.toNat 0).getLsbD 1 = true ∧
           (t.creg .smlCtl q.toNat 0).extractLsb' 8 4 = v.extractLsb' 8 4 ∧
           (t.creg .smlCtl q.toNat 0).extractLsb' 16 16 = 0 ∧ t.far = s.far ∧ t.threads = s.threads) ∧
       (v.getLsbD 0 = true → ctl.getLsbD 1 = false → s.loadNum q = 0 →
         ∃ t, exec (.scheduleLoadGo ag q v) s = .next t ∧ { t with regs := s.regs } = s ∧
           (t.creg .smlCtl q.toNat 0).getLsbD 1 = false) ∧
       ((v.getLsbD 0 = false ∨ ctl.getLsbD 1 = true) →
         ∃ t, exec (.scheduleLoadGo ag q v) s = .next t ∧ { t with regs := s.regs } = s ∧
           (t.creg .smlCtl q.toNat 0).getLsbD 1 = ctl.getLsbD 1)) ∧
     ((s.quad q).load = none → exec (.scheduleBlockLoaded q) s = .next s) ∧
     ∀ i a, (s.quad q).load = some (i, a) → s.domCarries (68 + q.toNat) = true →
       (∀ e, s.blockBad q a (s.loadRouter q i) = some e →
         ∃ t, exec (.scheduleBlockLoaded q) s = .next t ∧ (t.quad q).load = none ∧
           (t.creg .smlCtl q.toNat 0).getLsbD 1 = false ∧ (t.creg .smlCtl q.toNat 0).toNat / 2 ^ 4 % 2 ^ 4 = e % 2 ^ 4 ∧
           t.cores = s.cores) ∧
       (s.blockBad q a (s.loadRouter q i) = none → i + 1 = s.loadNum q →
         let c : CoreId := BitVec.ofNat 11 (s.loadRouter q i)
         let r := s.router c
         r.swap = false →
         ∃ t, exec (.scheduleBlockLoaded q) s = .next t ∧ (t.quad q).load = none ∧
           (t.router c).ready = true ∧ (t.router c).tenant = ctl.extractLsb' 8 4 ∧
           (t.router c).bankAt r.active = r.bankAt r.active ∧
           (∀ k, k < s.far.readNat a 2 → ((t.router c).bankAt (!r.active)).entry k =
             BitVec.ofNat 64 (s.far.readNat (a + 192 + 8 * k) 8)) ∧
           (∀ b, b ≠ c → t.core b = s.core b) ∧ t.far = s.far)) ∧
  (∀ (s : State) (ag : Agent) (v : Word), s.gate ag (s.agentPriv ag) .smfSwapctl 0 = .ok →
     let old := s.creg .smfSwapctl 0 0
     (∃ t, exec (.swapArm ag v) s = .next t ∧ { t with regs := s.regs } = s ∧
       (t.creg .smfSwapctl 0 0).getLsbD 16 = ! v.getLsbD 9 ∧
       (t.creg .smfSwapctl 0 0).extractLsb' 0 4 = v.extractLsb' 0 4 ∧
       ((t.creg .smfSwapctl 0 0).getLsbD 17 = (old.getLsbD 17 && ! v.getLsbD 17)) ∧
       ((t.creg .smfSwapctl 0 0).getLsbD 18 = (old.getLsbD 18 && ! v.getLsbD 18))) ∧
     ∃ t, exec (.swapCancel ag v) s = .next t ∧ { t with regs := s.regs } = s ∧
       (t.creg .smfSwapctl 0 0).getLsbD 16 = false ∧
       (t.creg .smfSwapctl 0 0).extractLsb' 0 4 = v.extractLsb' 0 4)

/-- Registers of the Clocktower: setting EN starts the edges at once, with a notice for 64 cycles later, and does no
more while they run; clearing it ends them unless a notice was given; SRC 3 keeps the source; an interval takes only
10,000 to 1,000,000,000 ns, with `TICK_MIN` not above `TICK_MAX`; a read of `CT_TIME_LO` latches the high word for its
reader; a kick restarts the watchdog's period (R350, R352, R356, R366, R368). Edges across devices and from outside:
an input edge less than 10,000 ns after the last sets `TICK_STAT` bit 4 and is ignored, another is noticed at once; a
source that is overdue sets bit 1, once, with a record of class 0x31; a device that is ready says so once, to the
master; the master's edge message goes once to every other device (R361 to R365). The watchdog: once per period
Duboette reads and clears every activity bit, ends a stuck task with the watchdog's status, counts a heartbeat and kicks
(that it does so after a stuck task too is log entry 115); a period without a kick sets `TICK_STAT` bit 3, once, drives `FAULT_N` and
makes a record of class 0x33, severity 3 (R366, R396). -/
def Obligations.ClockCommands : Prop :=
  (∀ (s : State) (ag : Agent) (v : Word),
     let old := s.creg .tickCtl 0 0
     let field := fun (en : Word) =>
       (if v.extractLsb' 2 2 = 3 then (v &&& ~~~ 0xD#32) ||| (old &&& 0xC) ||| en else (v &&& ~~~ 1#32) ||| en) &&& 0x1F
     let range := 10000 ≤ v.toNat ∧ v.toNat ≤ 1000000000
     (s.gate ag (s.agentPriv ag) .tickCtl 0 = .ok →
       (s.ct.running = true → exec (.tickCtlEnSet ag v) s = .next (s.setCreg .tickCtl 0 0 (field 1))) ∧
       (s.ct.running = false → s.tasks = [] → bit (s.creg .smfSwapctl 0 0) 16 = false →
         exec (.tickCtlEnSet ag v) s = .next { s.setCreg .tickCtl 0 0 (field 1) with
           ct := { s.ct with
             running := true
             first := true
             notice := some (s.now + 64)
             target := none
             atMax := false
             lost := false
             sent := false
             readySent := false
             readyFrom := [] } }) ∧
       (s.ct.notice = none → exec (.tickCtlEnClear ag v) s =
         .next { s.setCreg .tickCtl 0 0 (field 0) with ct := { s.ct with running := false } }) ∧
       (∀ n, s.ct.notice = some n → exec (.tickCtlEnClear ag v) s = .next (s.setCreg .tickCtl 0 0 (field 0)))) ∧
     (s.gate ag (s.agentPriv ag) .tickPeriod 0 = .ok →
       (range → exec (.tickPeriodWrite ag v) s = .next (s.setCreg .tickPeriod 0 0 v)) ∧
       (¬ range → exec (.tickPeriodWrite ag v) s = .next s)) ∧
     (s.gate ag (s.agentPriv ag) .tickMin 0 = .ok →
       (range → v.toNat ≤ (s.creg .tickMax 0 0).toNat →
         exec (.tickMinWrite ag v) s = .next (s.setCreg .tickMin 0 0 v)) ∧
       ((¬ range ∨ (s.creg .tickMax 0 0).toNat < v.toNat) → exec (.tickMinWrite ag v) s = .next s)) ∧
     (s.gate ag (s.agentPriv ag) .tickMax 0 = .ok →
       (range → (s.creg .tickMin 0 0).toNat ≤ v.toNat →
         exec (.tickMaxWrite ag v) s = .next (s.setCreg .tickMax 0 0 v)) ∧
       ((¬ range ∨ v.toNat < (s.creg .tickMin 0 0).toNat) → exec (.tickMaxWrite ag v) s = .next s)) ∧
     (s.gate ag (s.agentPriv ag) .ctWdt 0 = .ok →
       exec (.watchdogKick ag) s = .next { s with ct := { s.ct with wdtStart := s.ns } }) ∧
     exec (.ctTimeLoRead ag) s = .next { s with ct := { s.ct with
       latch := (ag, BitVec.ofNat 32 (s.ns / 2 ^ 32)) :: s.ct.latch.filter fun p => decide (p.1 ≠ ag) } }) ∧
  (∀ (s : State),
     let stat := s.creg .tickStat 0 0
     let bound := if s.elastic then (s.creg .tickMax 0 0).toNat else 2 * s.ct.period
     ((s.ct.src ≠ 2 ∨ s.ct.running = false) → exec .tickInEdge s = .next s) ∧
     (s.ct.src = 2 → s.ct.running = true →
       (∀ l, s.ct.lastIn = some l → s.ns < l + 10000 →
         exec .tickInEdge s = .next (s.setCreg .tickStat 0 0 (stat ||| 0x10))) ∧
       ((∀ l, s.ct.lastIn = some l → l + 10000 ≤ s.ns) →
         (∀ k, s.ct.notice = some k → exec .tickInEdge s = .next { s with ct := { s.ct with lastIn := some s.ns } }) ∧
         (s.ct.notice = none → s.tasks = [] → bit (s.creg .smfSwapctl 0 0) 16 = false →
           exec .tickInEdge s = .next { s with ct := { s.ct with
             lastIn := some s.ns
             notice := some s.now } }))) ∧
     (s.ct.running = true → s.ct.src ≠ 0 → s.ct.first = false → s.ct.lost = false →
       (s.ns < s.ct.edgeNs + bound → exec .tickLoss s = .next s) ∧
       (s.ct.edgeNs + bound ≤ s.ns → ∃ t, exec .tickLoss s = .next t ∧ t.ct = { s.ct with lost := true } ∧
         t.creg .tickStat 0 0 = stat ||| 2 ∧
         (∃ r : Report, (t.quad 0).reports = (s.quad 0).reports ++ [r] ∧ r.cls = 0x31 ∧ r.sev = 2 ∧
           r.detail = s.ct.tick.setWidth 64 ∧ r.first = s.ns) ∧
         t.threads = s.threads ∧ t.cores = s.cores)) ∧
     (s.ct.running = true → s.elastic = true → s.ct.first = false → s.ct.readySent = false →
       (s.allReady = false → exec .deviceReadyReport s = .next s) ∧
       (s.allReady = true → s.ct.src = 1 →
         exec .deviceReadyReport s = .next (({ s with ct := { s.ct with readySent := true } } : State).tell
           Config.tickMaster 15 0 0 [])) ∧
       (s.allReady = true → s.distributes = true →
         exec .deviceReadyReport s = .next (({ s with ct := { s.ct with readySent := true } } : State).takeReady s.devId))) ∧
     (s.ct.running = true → s.distributes = true → s.ct.sent = false → ∀ at0, s.masterTarget = some at0 →
       (s.ns + (s.creg .tickLead 0 0).toNat < at0 → exec .edgeMessageSend s = .next s) ∧
       (at0 ≤ s.ns + (s.creg .tickLead 0 0).toNat → ∃ t, exec .edgeMessageSend s = .next t ∧
         t.ct = { s.ct with sent := true } ∧
         (∃ ps : List SkbPacket, t.toSkb = s.toSkb ++ ps ∧ ps.map (·.dst) = s.otherDevices ∧
           ∀ p ∈ ps, p.ptype = 14 ∧ p.addr = BitVec.ofNat 64 s.nextTick ∧ p.arg = BitVec.ofNat 64 at0) ∧
         { t with
             ct := s.ct
             toSkb := s.toSkb } = s))) ∧
  (∀ (s : State),
     let period := (s.creg .ctWdt 0 0).toNat % 2 ^ 6 * 1000000000
     (s.keep.duboette = true → s.domOpen 95 = true →
       (s.ns < s.ct.sampled + period → exec .watchdogSample s = .next s) ∧
       (s.ct.sampled + period ≤ s.ns →
         ((∀ p ∈ s.tasks, s.stuck p.2 = false) → (bit (s.creg .skbRtctl 0 0) 0 = false ∨ s.isManager = true) →
           ∃ t, exec .watchdogSample s = .next t ∧ t.ct = { s.ct with
             sampled := s.ns
             wdtStart := s.ns } ∧
             t.creg .ctHbeat 0 0 = s.creg .ctHbeat 0 0 + 1 ∧ (∀ x, (t.thread x).act = false) ∧
             (∀ x, { t.thread x with act := (s.thread x).act } = s.thread x) ∧
             { t with
               ct := s.ct
               threads := s.threads
               regs := s.regs } = s) ∧
         (∀ h task, s.tasks = [(h, task)] → s.stuck task = true →
           ∃ s1 : State, s1.ct = { s.ct with sampled := s.ns } ∧ (∀ x, (s1.thread x).act = false) ∧ { s1 with
               ct := s.ct
               threads := s.threads } = s ∧
             let e := (s1.endTask h 0x10 none).2
             let f := (e.setCreg .ctHbeat 0 0 (e.creg .ctHbeat 0 0 + 1)).writeWdt 0x100
             exec .watchdogSample s = .next (if bit (f.creg .skbRtctl 0 0) 0 = true ∧ f.isManager = false then
               f.tell f.managerId 12 0 0 [] else f)))) ∧
     (s.domOpen 95 = true → (s.creg .tickStat 0 0).getLsbD 3 = false →
       (s.ns < s.ct.wdtStart + period → exec .watchdogExpiry s = .next s) ∧
       (s.ct.wdtStart + period ≤ s.ns → ∃ t, exec .watchdogExpiry s = .next t ∧
         t.creg .tickStat 0 0 = s.creg .tickStat 0 0 ||| 8 ∧ t.faultSrc = s.faultSrc ||| 4 ∧
         (∃ r : Report, (t.quad 0).reports = (s.quad 0).reports ++ [r] ∧ r.cls = 0x33 ∧ r.sev = 3 ∧ r.first = s.ns) ∧
         t.threads = s.threads ∧ t.cores = s.cores ∧ t.ct = s.ct)) ∧
     ((s.creg .tickStat 0 0).getLsbD 3 = true → exec .watchdogExpiry s = .next s))

/-- The notice: given once it is due, for 64 cycles later; it decides an armed swap whose tick has come, for exactly
the READY routers of its tenant, unless a load for that tenant runs, which it reports; `TICK_MAX` forces the notice of
an ELASTIC device (R256, R353, R355, R362). What the edge does, part by part: it waits for the cycle of its notice;
the tick has the number that comes next and the time of the edge, in the registers too; a pending `DRUM_PP` takes
effect with PHASE 0, else PHASE toggles where HALF is not 0; a router that swaps runs its other bank, and every router
restarts at entry 0; a sleeping tick-bound thread that is not late
starts its tick at `TENTRY` (R68, R199, R256, R257, R352, R353). -/
def Obligations.EdgesAndNotices : Prop :=
  (∀ (s : State),
     let ctl := s.creg .smfSwapctl 0 0
     let tenant := ctl.extractLsb' 0 4
     let noticed := { s with ct := { s.ct with notice := some (s.now + 64) } }
     (s.noticeDue = false → exec .edgeNotice s = .next s) ∧
     (s.noticeDue = true → s.tasks = [] →
       ((ctl.getLsbD 16 = false ∨ s.nextTick < s.swapTick) → exec .edgeNotice s = .next noticed) ∧
       (ctl.getLsbD 16 = true → s.swapTick ≤ s.nextTick →
         (∀ q : Quad, (s.creg .smlCtl q.toNat 0).getLsbD 1 = true → (s.creg .smlCtl q.toNat 0).extractLsb' 8 4 ≠ tenant) →
         ∃ t, exec .edgeNotice s = .next t ∧ t.ct = { s.ct with
           notice := some (s.now + 64)
           swap := true } ∧
           (∀ c, t.router c = { s.router c with
             swap := (s.router c).swap || ((s.router c).ready && decide ((s.router c).tenant = tenant)) }) ∧
           { t with
             ct := s.ct
             cores := s.cores } = s) ∧
       (ctl.getLsbD 16 = true → s.swapTick ≤ s.nextTick →
         (∃ q : Quad, (s.creg .smlCtl q.toNat 0).getLsbD 1 = true ∧ (s.creg .smlCtl q.toNat 0).extractLsb' 8 4 = tenant) →
         exec .edgeNotice s = .next (({ s with ct := { s.ct with notice := some (s.now + 64) } } : State).setCreg
           .smfSwapctl 0 0 (ctl ||| 0x20000)))) ∧
     (s.ct.running = true → s.elastic = true → s.ct.first = false → s.ct.src ≠ 1 → s.ct.notice = none →
       (s.distributes = false → s.noticeTime (s.ct.edgeNs + (s.creg .tickMax 0 0).toNat) = false →
         exec .tickMaxExpiry s = .next s) ∧
       (s.distributes = false → s.noticeTime (s.ct.edgeNs + (s.creg .tickMax 0 0).toNat) = true → s.tasks = [] →
         ctl.getLsbD 16 = false →
         exec .tickMaxExpiry s = .next { s with ct := { s.ct with
           atMax := true
           notice := some (s.now + 64) } }) ∧
       (s.distributes = true → s.ct.target = none → s.ct.lastTarget + (s.creg .tickMax 0 0).toNat ≤ s.ns →
         exec .tickMaxExpiry s = .next { s with ct := { s.ct with
           atMax := true
           target := some (max (s.ns + (s.creg .tickLead 0 0).toNat) (s.ct.lastTarget + (s.creg .tickMin 0 0).toNat),
             BitVec.ofNat 48 s.nextTick) } })) ∧
     (s.ct.running = false → exec .tickMaxExpiry s = .next s)) ∧
  (∀ (s : State) (n : Nat) (sp : Spire) (c : CoreId) (x : Tid),
     (s.edgeDue = true → exec .tickEdge s = .next s.takeEdge) ∧ (s.edgeDue = false → exec .tickEdge s = .next s) ∧
     (s.edgeDue = true ↔ ∃ k, s.ct.notice = some k ∧ k ≤ s.now) ∧
     (let t := s.beginTick n
      t.ct.tick = BitVec.ofNat 48 n ∧ t.ct.edgeNs = s.ns ∧ t.ct.notice = none ∧ t.ct.first = false ∧ t.ct.parity = [] ∧
      t.ct.running = bit (s.creg .tickCtl 0 0) 0 ∧ t.ct.mode = bit (s.creg .tickCtl 0 0) 1 ∧
      t.ct.src = (s.creg .tickCtl 0 0).extractLsb' 2 2 ∧ t.ct.period = (s.creg .tickPeriod 0 0).toNat ∧
      t.creg .ctTickLo 0 0 = BitVec.ofNat 32 n ∧ t.creg .ctTickHi 0 0 = BitVec.ofNat 32 (n / 2 ^ 32) ∧
      t.creg .ctEdgeLo 0 0 = BitVec.ofNat 32 s.ns ∧ t.creg .ctEdgeHi 0 0 = BitVec.ofNat 32 (s.ns / 2 ^ 32)) ∧
     (∀ v, (s.spire sp).ppPend = some v →
       ((s.drumEdge sp).spire sp).ppPend = none ∧ ((s.drumEdge sp).spire sp).phase = false ∧
       (s.drumEdge sp).creg .drumPp sp.toNat 0 = v) ∧
     ((s.spire sp).ppPend = none → ((s.drumEdge sp).spire sp).phase =
       ((s.spire sp).phase ^^ decide ((s.creg .drumPp sp.toNat 0).toNat / 2 ^ 8 % 2 ^ 7 ≠ 0))) ∧
     (let r := s.router c
      let t := (s.routerEdge c).router c
      let now : Bool := r.active ^^ r.swap
      t.active = now ∧ t.swap = false ∧ t.bank0 = r.bank0 ∧ t.bank1 = r.bank1 ∧
      (t.live = true → t.index = 0 ∧ t.left = eDur ((r.bankAt now).entry 0) ∧ 0 < t.left) ∧
      (t.live = true ↔ eDur ((r.bankAt now).entry 0) ≠ 0 ∧ evenOnes ((r.bankAt now).entry 0) = true) ∧
      t.pready = 0 ∧ t.deliveries = [] ∧ t.cycle = 0) ∧
     ((s.thread x).status = .tickSleep → (s.thread x).ctl.boundNext = true → (s.thread x).enabled = true →
       let t := s.threadEdge x false false
       (t.thread x).status = .running ∧ (t.thread x).pc = (s.thread x).ctl.tentry ∧
       (t.thread x).bank = { (s.thread x).bank with depth := 0 } ∧ (t.thread x).ctl.bound = true ∧
       (t.thread x).doneTick = false ∧ { t with threads := s.threads } = s ∧ ∀ y, y ≠ x → t.thread y = s.thread y) ∧
     ((s.thread x).status = .armed → (s.thread x).ctl.boundNext = true →
       let t := s.threadEdge x false false
       (t.thread x).status = .running ∧ (t.thread x).pc = (s.thread x).ctl.tentry ∧ (t.thread x).priv = .user ∧
       (t.thread x).inShadow = false ∧ (t.thread x).ltn.stack = [] ∧ { t with threads := s.threads } = s))

/-- A port's control: setting EN of a port that is down, or RETRAIN of an enabled one, starts training (and counts a
retrain once the port has been up); an enabled port that is set EN again stays as it is; clearing EN takes it DOWN; a
port that has latched FAILED stays so until CLRFAIL, which returns it to DOWN with ATTEMPTS 0 (R371, R372, R400).
Training: an attempt that succeeds takes the port UP, or DEGRADED on half of the lanes where NARROW allows it, with
ATTEMPTS 0, the partner's identity and the latency in the registers and the whole replay buffer kept; one that fails
counts, and the third latches FAILED with a record of class 0x40, severity 2, before the port's traffic moves (R371,
R372, R374, R383). The link layer: a port that is not up takes nothing; a flit that FEC cannot mend or whose CRC
differs is counted and asked for again; symbols that the FEC corrects are counted, and more of them in a millisecond
than `SKB_BERTH` set BERHI (which millisecond is log entry 80); a DATA flit out of sequence is asked for again, one in sequence is accepted,
counted and expected no more, and one with SOP and EOP is a whole packet; a NAK sends again from its SEQ and the
eighth for one SEQ retrains; no ACK for 50,000 ns retrains with a record of class 0x44 (R373 to R375). -/
def Obligations.SkybridgePorts : Prop :=
  (∀ (s : State) (ag : Agent) (p : Port) (v : Word), s.gate ag (s.agentPriv ag) .skbCtl p.toNat = .ok →
     let k := p.toNat
     let was := (s.creg .skbCtl k 0).getLsbD 0
     let only := fun t : State => { t with
       regs := s.regs
       quads := s.quads } = s
     let count := fun t : State => t.creg .skbRetrains k 0 =
       if (s.port k).wasUp then BitVec.ofNat 32 (min 0xFFFF ((s.creg .skbRetrains k 0).toNat + 1))
       else s.creg .skbRetrains k 0
     (v.getLsbD 2 = false → s.portState k ≠ 4 →
       ((was = false ∨ v.getLsbD 1 = true) →
         ∃ t, exec (.portEnable ag p v) s = .next t ∧ t.portState k = 1 ∧ (t.creg .skbCtl k 0).getLsbD 0 = true ∧
           count t ∧ only t) ∧
       (was = true → v.getLsbD 1 = false →
         ∃ t, exec (.portEnable ag p v) s = .next t ∧ t.creg .skbStat k 0 = s.creg .skbStat k 0 ∧
           (t.creg .skbCtl k 0).getLsbD 0 = true ∧ only t) ∧
       (v.getLsbD 0 = true →
         ∃ t, exec (.portRetrain ag p v) s = .next t ∧ t.portState k = 1 ∧ count t ∧ only t) ∧
       (v.getLsbD 0 = false →
         ∃ t, exec (.portRetrain ag p v) s = .next t ∧ t.portState k = 0 ∧ (t.creg .skbCtl k 0).getLsbD 0 = false ∧
           only t)) ∧
     (s.portState k = 4 → v.getLsbD 2 = false →
       (∃ t, exec (.portEnable ag p v) s = .next t ∧ t.portState k = 4 ∧ only t) ∧
       ∃ t, exec (.portRetrain ag p v) s = .next t ∧ t.portState k = 4 ∧ only t) ∧
     (s.portState k = 4 → (v.getLsbD 0 = false ∨ (was = true ∧ v.getLsbD 1 = false)) →
       ∃ t, exec (.portClearFail ag p v) s = .next t ∧ (t.creg .skbStat k 0).toNat % 2 ^ 6 = 0 ∧ only t)) ∧
  (∀ (s : State) (p : Port) (peer : BitVec 64) (lat : BitVec 16) (narrow : Bool),
     let k := p.toNat
     let tries := (s.creg .skbStat k 0).toNat / 2 ^ 4 % 2 ^ 2
     let fails := fun (c : Instr) =>
       (tries < 2 → ∃ t, exec c s = .next t ∧ t.portState k = 0 ∧
         (t.creg .skbStat k 0).toNat / 2 ^ 4 % 2 ^ 2 = tries + 1 ∧ { t with regs := s.regs } = s) ∧
       (tries = 2 → ∃ t : State, exec c s = .next (t.moveTraffic k) ∧ t.portState k = 4 ∧
         (∃ r : Report, (t.quad (BitVec.ofNat 2 (k / 2))).reports = (s.quad (BitVec.ofNat 2 (k / 2))).reports ++ [r] ∧
           r.cls = 0x40 ∧ r.sev = 2 ∧ r.kind = 4 ∧ r.index = BitVec.ofNat 12 k) ∧
         { t with
           regs := s.regs
           quads := s.quads } = s)
     (s.portState k ≠ 1 → exec (.trainingComplete p peer lat narrow) s = .next s ∧
       exec (.trainingFailed p) s = .next s) ∧
     (s.portState k = 1 → fails (.trainingFailed p)) ∧
     (s.portState k = 1 → s.domCarries (84 + k) = true →
       (narrow = true → (s.creg .skbCtl k 0).getLsbD 3 = false → fails (.trainingComplete p peer lat narrow)) ∧
       ((narrow = true → (s.creg .skbCtl k 0).getLsbD 3 = true) →
         ∃ t, exec (.trainingComplete p peer lat narrow) s = .next t ∧ t.portState k = (if narrow then 3 else 2) ∧
           (t.creg .skbStat k 0).toNat / 2 ^ 4 % 2 ^ 2 = 0 ∧ t.creg .skbPeerLo k 0 = peer.setWidth 32 ∧
           t.creg .skbLatns k 0 = lat.setWidth 32 ∧ (t.port k).replay = (s.port k).replay ∧ (t.port k).nak = false ∧
           (t.port k).resent = 0 ∧ (t.port k).wasUp = true ∧ (t.port k).waiting = (s.port k).waiting ∧
           (t.port k).expect = (s.port k).expect ∧ (∀ j, j ≠ k → t.port j = s.port j) ∧
           { t with
             regs := s.regs
             ports := s.ports } = s))) ∧
  (∀ (s : State) (p : Port) (flit : List Byte) (e : BitVec 12),
     let k := p.toNat
     let w : BitVec 48 := BitVec.ofNat 48 (leNat (flit.take 6))
     let good := flit.length = 256 ∧ leNat (flit.drop 252) = (crc32 (flit.take 252)).toNat
     let again := fun t : State => t.modPort k fun x => { x with nak := true }
     let retrains := fun t : State => t.portState k = 1 ∧
       (∃ r : Report, (t.quad (BitVec.ofNat 2 (k / 2))).reports = (s.quad (BitVec.ofNat 2 (k / 2))).reports ++ [r] ∧
         r.cls = 0x44 ∧ r.sev = 0) ∧ (t.port k).resent = 0 ∧ (t.port k).replay = (s.port k).replay
     (s.portUp k = false → (∀ fec, exec (.skbFlitReceive p flit fec) s = .next s) ∧ exec (.nak p e) s = .next s ∧
       exec (.ackTimeout p) s = .next s) ∧
     (s.portUp k = true →
       exec (.skbFlitReceive p flit none) s = .next (again (s.bump .skbFecunc k 0 1)) ∧
       (∀ n : BitVec 8, exec (.skbFlitReceive p flit (some n)) s = exec (.skbFlitReceive p flit (some 0)) (s.corrected k n.toNat) ∧
         let c := s.corrected k n.toNat
         c.creg .skbFeccorr k 0 = satAdd (s.creg .skbFeccorr k 0) n.toNat ∧ c.portUp k = true ∧
         { c with
           regs := s.regs
           ports := s.ports } = s ∧
         (n ≠ 0 → (s.port k).ber.1 ≠ s.ns / 1000000 → (c.port k).ber = (s.ns / 1000000, n.toNat) ∧
           ((c.creg .skbStat k 0).getLsbD 8 = true ↔
             (s.creg .skbStat k 0).getLsbD 8 = true ∨ (s.creg .skbBerth k 0).toNat < n.toNat))) ∧
       (¬ good → exec (.skbFlitReceive p flit (some 0)) s = .next (again (s.bump .skbCrcerr k 0 1))) ∧
       (good → w.extractLsb' 0 2 = 1 → w.extractLsb' 2 12 ≠ (s.port k).expect →
         exec (.skbFlitReceive p flit (some 0)) s = .next (again s)) ∧
       (good → w.extractLsb' 0 2 = 1 → w.extractLsb' 2 12 = (s.port k).expect →
         ∃ t, exec (.skbFlitReceive p flit (some 0)) s = .next t ∧ (t.port k).expect = (s.port k).expect + 1 ∧
           (t.port k).nak = false ∧ t.creg .skbRxdata k 0 = satAdd (s.creg .skbRxdata k 0) 1 ∧
           (w.getLsbD 29 = true → w.getLsbD 30 = true → t.skbIn = s.skbIn ++
             [(s.compensate k (parsePkt (((flit.drop 6).take 246).take (w.extractLsb' 31 8).toNat)), k)]) ∧
           (w.getLsbD 30 = false → t.skbIn = s.skbIn) ∧ (∀ j, j ≠ k → t.port j = s.port j) ∧ t.threads = s.threads ∧
           t.far = s.far) ∧
       ((s.port k).replay.findIdx? (fun f => decide (f.seq = e)) = none → exec (.nak p e) s = .next s) ∧
       (∀ i, (s.port k).replay.findIdx? (fun f => decide (f.seq = e)) = some i →
         let n := if (s.port k).nakSeq = e ∧ (s.port k).resent ≠ 0 then (s.port k).resent + 1 else 1
         ∃ t, exec (.nak p e) s = .next t ∧
           t.creg .skbReplay k 0 = satAdd (s.creg .skbReplay k 0) ((s.port k).replay.length - i) ∧
           (t.port k).nakSeq = e ∧ (n < 8 → (t.port k).resent = n ∧ t.portState k = s.portState k) ∧
           (8 ≤ n → retrains t)) ∧
       (((s.port k).replay = [] ∨ s.ns < (s.port k).ackNs + 50000) → exec (.ackTimeout p) s = .next s) ∧
       ((s.port k).replay ≠ [] → (s.port k).ackNs + 50000 ≤ s.ns →
         ∃ t, exec (.ackTimeout p) s = .next t ∧ retrains t)))

/-- The packets that a device takes at their destination, each with its type: one of another type or for another
device changes nothing, and a request whose end-to-end check fails is removed and answered with POISON (R375).
Requests from other devices: READ answers with the bytes of the tenant's window; WRITE stores its data there and
acknowledges; an ATOMIC for a device of the group goes on to it, for this one is performed; a COUNTER_OP goes on to
its home Cupola; a forwarded COMMAND waits for Duboette (R207, R375, R395, R397). Answers and notices from other
devices: WRITE_ACK, READ_DATA, ATOMIC_RSP and COUNTER_RSP end the wait under their tag; a reply reaches the command
that waits for its device; a heartbeat is noted and its worker lost no more; an edge message sets the target of the
next edge after the time is followed; READY is counted; a record is taken (R289, R290, R361, R362, R375, R395 to R397,
R472). Routing: a through packet joins the output of its route, or is answered with POISON where it is a CTRL packet
that fails its check; a PATH packet goes on at the port of its lowest digit, or, at digit 15, writes the ID, the
dimensions and the group unless routing has locked them; a device whose host interface or power domain manager has
failed forwards nothing; enabling routing locks them, and the manager of a group other than 0 then forwards errors to
the system (R30, R378, R384, R388, R474; when Duboette sets it is log entry 114). -/
def Obligations.SkybridgePackets : Prop :=
  (∀ (s : State) (p : SkbPacket),
     let all : List (Instr × BitVec 4) :=
       [(.read p, 0), (.write p, 1), (.writeAck p, 2), (.readData p, 3), (.atomic p, 4), (.atomicRsp p, 5),
        (.counterOp p, 6), (.counterRsp p, 7), (.collectiveSegment p, 8), (.command p, 9), (.commandReply p, 10),
        (.errorRecord p, 11), (.heartbeat p, 12), (.path p, 13), (.edge p, 14), (.ready p, 15)]
     (∀ x ∈ all, p.ptype ≠ x.2 → exec x.1 s = .next s) ∧
     (∀ x ∈ all, x.2 ≠ 13 → p.dst ≠ s.devId → exec x.1 s = .next s) ∧
     (p.dst = s.devId → p.e2eOk = false → ∀ x ∈ all, p.ptype = x.2 → (x.2 = 0 ∨ x.2 = 1 ∨ x.2 = 4 ∨ x.2 = 6) →
       exec x.1 s = .next ((s.dropIn p).respond p true 0 0 [])) ∧
     (p.src ≠ s.devId → ∀ (poison : Bool) (addr arg : DWord) (data : List Byte) (ty : BitVec 4),
       (p.ptype, ty) ∈ [(0#4, 3#4), (1, 2), (4, 5), (6, 7), (9, 10)] →
       s.respond p poison addr arg data = { s with
         toSkb := s.toSkb ++
           [{ dst := p.src, src := s.devId, ptype := ty, tenant := p.tenant, epoch := p.epoch, tag := p.tag,
              poison := poison, addr := addr, arg := arg, e2eOk := true, data := data }] })) ∧
  (∀ (s : State) (p : SkbPacket), p.dst = s.devId → p.src ≠ s.devId → p.e2eOk = true →
     let s0 := s.dropIn p
     let q := s.inQuad p
     let at0 := p.addr.toNat % 2 ^ 48
     let answer := fun (t : State) (ty : BitVec 4) (poison : Bool) (data : List Byte) =>
       t.toSkb = s.toSkb ++
         [{ dst := p.src, src := s.devId, ptype := ty, tenant := p.tenant, epoch := p.epoch, tag := p.tag,
            poison := poison, addr := 0, arg := 0, e2eOk := true, data := data }]
     (p.ptype = 0 →
       (∀ bs, (s0.readWindow q p.tenant at0 (min 4096 p.arg.toNat)).1 = some bs →
         ∃ t, exec (.read p) s = .next t ∧ answer t 3 (bs.any (·.2)) (bs.map (·.1)) ∧ t.far = s.far ∧
           t.threads = s.threads) ∧
       ((s0.readWindow q p.tenant at0 (min 4096 p.arg.toNat)).1 = none →
         ∃ t, exec (.read p) s = .next t ∧ answer t 3 true (List.replicate (min 4096 p.arg.toNat) 0) ∧
           t.far = s.far)) ∧
     (p.ptype = 1 →
       let data := p.data.take p.arg.toNat
       (∀ f, p.poison = false → (s0.windowRuns q p.tenant .write at0 data.length).1 = some [(f, data.length)] →
         (s.farDead f = false →
           ∃ t, exec (.write p) s = .next t ∧ answer t 2 false [] ∧
             (∀ j b, data[j]? = some b → t.far.byte (f + j) = b) ∧
             (∀ a, (a < f ∨ f + data.length ≤ a) → t.far.byte a = s.far.byte a) ∧ t.threads = s.threads) ∧
         (s.farDead f = true → ∃ t, exec (.write p) s = .next t ∧ answer t 2 true [] ∧ t.far = s.far)) ∧
       ((s0.windowRuns q p.tenant .write at0 data.length).1 = none →
         ∃ t, exec (.write p) s = .next t ∧ answer t 2 true [] ∧ t.far = s.far)) ∧
     (p.ptype = 4 →
       let dev : BitVec 10 := BitVec.ofNat 10 (leNat (p.data.take 8) / 2 ^ 16)
       (dev ≠ s.devId → exec (.atomic p) s = .next { s0 with toSkb := s.toSkb ++ [{ p with dst := dev }] }) ∧
       (dev = s.devId → exec (.atomic p) s = .next (s0.remoteAtomic q p))) ∧
     (p.ptype = 6 →
       let c : BitVec 16 := p.addr.setWidth 16
       let go := fun b : Body => exec (.counterOp p) s =
         .next (s0.send (servicePort 0) (cupolaRouter (ctrSpire c)) false false p.tenant b)
       let code := p.addr.toNat / 2 ^ 32 % 2 ^ 8
       (code = 0 → go (.signal (.remote p.src p.tag) c (p.arg.setWidth 32) p.poison)) ∧
       (code = 1 → go (.signal (.remote p.src p.tag) c (p.arg.setWidth 32) true)) ∧
       (code = 2 → go (.swait (.remote p.src p.tag) p.tag.toNat c (p.arg.setWidth 32))) ∧
       (code = 3 → go (.withdraw (.remote p.src p.tag) p.tag.toNat false c)) ∧
       (code = 4 → go (.watchReg (.remote p.src p.tag) p.tenant c (some (p.arg.setWidth 32)))) ∧
       (code = 5 → go (.watchReg (.remote p.src p.tag) p.tenant c none)) ∧
       (5 < code → exec (.counterOp p) s = .next s0)) ∧
     (p.ptype = 9 → s.keep.duboette = true →
       let c : Cmd :=
         { origin := .remote p.src p.tag, header := p.addr &&& ~~~ 0x40000800#64, params := p.data, st := .waiting,
           waitFor := [], replies := [], since := s.ns, image := [], slot := none, ended := none, step := 0 }
       let s1 : State := { s0 with
         nextId := s.nextId + 1
         cmds := Store.put s.cmds s.nextId c }
       exec (.command p) s = .next (if s.isManager then s1 else s1.raiseBicAll 0x143))) ∧
  (∀ (s : State) (p : SkbPacket), p.dst = s.devId → p.e2eOk = true →
     let s0 := s.dropIn p
     let code : BitVec 8 := p.arg.extractLsb' 32 8
     (∀ w : SkbWait, s.skbWaits = [w] → w.tag = p.tag → w.dev = p.src →
       let s1 : State := { s0 with skbWaits := [] }
       (∀ e row, p.ptype = 2 → w.what = .streamWrite e row →
         exec (.writeAck p) s = .next ((s1.partAcked e row p.tag.toNat p.poison 0).pollEngine e)) ∧
       (∀ e row, p.ptype = 3 → w.what = .streamRead e row →
         exec (.readData p) s =
           .next ((s1.partRead e row p.tag.toNat (p.data.map fun b => (b, p.poison)) 0).pollEngine e)) ∧
       (∀ t tag, p.ptype = 5 → w.what = .atomic t tag →
         exec (.atomicRsp p) s = .next (s1.atomicAnswered t tag p.arg
           (if p.poison then some 0x05 else if p.addr = 0 then none else some (p.addr.setWidth 8)))) ∧
       (∀ t op, p.ptype = 7 → w.what = .posted (.thread t) op →
         (code = 0 → exec (.counterRsp p) s = .next
           ((s1.modThread t fun th => ({ th with posted := th.posted - 1 } : Thread).holdRefusal none).poll t)) ∧
         (4 ≤ code.toNat → code.toNat < 0x40 → p.poison = false → exec (.counterRsp p) s = .next
           ((s1.modThread t fun th =>
             ({ th with posted := th.posted - 1 } : Thread).holdRefusal (some (code, op))).poll t))) ∧
       (∀ who tag, p.ptype = 7 → w.what = .counter who tag → code.toNat < 3 → p.poison = false →
         exec (.counterRsp p) s = .next (s1.swaitAnswered who tag (p.arg.setWidth 32) (code.setWidth 2) none))) ∧
     (p.ptype = 7 → p.poison = false → (code = 0x40 ∨ code = 0x41) →
       exec (.counterRsp p) s = .next (s0.watchTold
         (.belfry (p.tag.extractLsb' 9 2) (p.tag.setWidth 9)) (decide (code = 0x41)))) ∧
     (∀ id c, p.ptype = 10 → s.cmds = [(id, c)] → id % 2 ^ 16 = p.tag.toNat → c.waitFor.contains p.src = true →
       exec (.commandReply p) s = .next (s0.addReply id
         { dev := p.src, status := if p.poison then 0x11 else leNat (p.data.take 2),
           r0 := BitVec.ofNat 64 (leNat ((p.data.drop 8).take 8)), r1 := BitVec.ofNat 64 (leNat ((p.data.drop 16).take 8)),
           r2 := BitVec.ofNat 64 (leNat ((p.data.drop 24).take 8)) })) ∧
     (p.ptype = 11 → exec (.errorRecord p) s = .next (s0.takeRecord (parseRecord p.data))) ∧
     (p.ptype = 12 → ∃ t, exec (.heartbeat p) s = .next t ∧ Store.find? t.heard p.src.toNat = some s.ns ∧
       (∀ k, k ≠ p.src.toNat → Store.find? t.heard k = Store.find? s.heard k) ∧
       (∀ d, d ∈ t.lostWorkers ↔ d ∈ s.lostWorkers ∧ d ≠ p.src) ∧
       { t with
         heard := s.heard
         lostWorkers := s.lostWorkers
         skbIn := s.skbIn } = s) ∧
     (p.ptype = 14 →
       let f := s0.follow (leNat (p.data.take 8))
       ((s.ct.running = false ∨ s.ct.src ≠ 1) → exec (.edge p) s = .next f) ∧
       (s.ct.running = true → s.ct.src = 1 → f.ns ≤ p.arg.toNat →
         exec (.edge p) s = .next { f with ct := { f.ct with target := some (p.arg.toNat, p.addr.setWidth 48) } })) ∧
     (p.ptype = 15 →
       (s.distributes = true → s.elastic = true → s.ct.target = none → s.ct.readyFrom.contains p.src = false →
         Config.tickDevices.all (fun d => (p.src :: s.ct.readyFrom).contains d) = false →
         exec (.ready p) s = .next { s0 with ct := { s.ct with readyFrom := p.src :: s.ct.readyFrom } }) ∧
       (s.distributes = false → exec (.ready p) s = .next s0))) ∧
  (∀ (s : State) (p : Port) (k : SkbPacket) (ag : Agent) (v : Word),
     let s0 := s.dropIn k
     (k.dst = s.devId → exec (.packetForward p k) s = .next s) ∧
     (k.dst ≠ s.devId → k.ptype ≠ 13 → s.forwards = false → exec (.packetForward p k) s = .next s0) ∧
     (k.dst ≠ s.devId → k.ptype ≠ 13 → s.forwards = true → (k.e2eOk = true ∨ (pktClass k.ptype 0).toNat ≠ 1) →
       ∀ h o, s.hop (pktEntered k) k.dst = some h → s.outPort h k.src k.dst = some o →
         exec (.packetForward p k) s = .next (s0.modPort o fun x => { x with waiting := x.waiting ++
           [{ cls := pktClass k.ptype h.vc, inp := p.toNat, since := s.ns, pkt := k }] })) ∧
     (k.dst ≠ s.devId → k.ptype ≠ 13 → s.forwards = true → (pktClass k.ptype 0).toNat = 1 → k.e2eOk = false →
       exec (.packetForward p k) s = .next (s0.respond k true 0 0 [])) ∧
     (k.ptype = 13 → k.e2eOk = true →
       let d := k.addr.toNat % 2 ^ 4
       let inp := ((s.skbIn.find? fun x => x.1 = k).map (·.2)).getD 8
       (d < 8 → s.portState d ≠ 4 → exec (.path k) s = .next (s0.modPort d fun x => { x with waiting := x.waiting ++
         [{ cls := pktClass 13 0, inp := inp, since := s.ns,
            pkt := { k with addr := (k.addr >>> 4) ||| 0xF000000000000000#64 } }] })) ∧
       (d = 15 → ∃ t, exec (.path k) s = .next t ∧
         (s.locked = true → t.creg .skbDevid 0 0 = s.creg .skbDevid 0 0 ∧ t.creg .skbDims 0 0 = s.creg .skbDims 0 0) ∧
         (s.locked = false →
           (t.creg .skbDevid 0 0).toNat % 2 ^ 10 = leNat (k.data.take 4) % 2 ^ 10 ∧
           (t.creg .skbDims 0 0) &&& 0x77F = BitVec.ofNat 32 (leNat ((k.data.drop 4).take 4)) &&& 0x77F ∧
           (t.creg .skbGroup 0 0) &&& 0x3FFF = BitVec.ofNat 32 (leNat ((k.data.drop 8).take 4)) &&& 0x3FFF) ∧
         { t with
           regs := s.regs
           skbIn := s.skbIn } = s) ∧
       (8 ≤ d → d ≠ 15 → exec (.path k) s = .next s0)) ∧
     (s.gate ag (s.agentPriv ag) .skbRtctl 0 = .ok →
       ∃ t, exec (.routingEnable ag v) s = .next t ∧ (t.creg .skbRtctl 0 0).getLsbD 0 = true ∧ t.locked = true ∧
         (s.keep.duboette = true → s.isManager = true → (s.creg .skbGroup 0 0).toNat % 2 ^ 4 ≠ 0 →
           (t.creg .ehCtl 0 0).getLsbD 1 = true) ∧
         { t with
           regs := s.regs
           locked := s.locked } = s))

/-- Collectives: a submission with none of the 16 free sets `SKB_COLL_STAT` bit 8 and a faulty one bits 8 and 9; a good one
takes the lowest free number, forms what it can of each segment and may complete; a segment joins its collective,
waits where there is none, and ends the collective where it tells of a failure; a collective that is overdue fails,
with a record of class 0x42 that names the device it waited for (R390 to R393). Groups: a worker without a heartbeat
for three periods is lost, once, with a record of class 0x43, severity 2, from its device; a command whose answers
have not all come by its time limit is settled with those that have (R395, R396, R419). -/
def Obligations.CollectivesAndGroups : Prop :=
  (∀ (s : State) (ag : Agent) (v : Word) (p : SkbPacket) (n : BitVec 4),
     let stat := s.creg .skbCollStat 0 0
     let failed := fun (t : State) (k : Nat) (suspect : BitVec 10) => t.coll k = Coll.reset ∧
       (∀ j, j ≠ k → t.coll j = s.coll j) ∧
       (∃ r : Report, (t.quad 0).reports = (s.quad 0).reports ++ [r] ∧ r.cls = 0x42 ∧ r.sev = 1 ∧
         r.detail = BitVec.ofNat 64 (0xFFFF + suspect.toNat * 2 ^ 16)) ∧ t.far = s.far ∧ t.threads = s.threads
     (s.gate ag (s.agentPriv ag) .skbCollSubHi 0 = .ok →
       let r := s.farDesc ((s.creg .skbCollSubLo 0 0).toNat / 64 * 64 + v.toNat % 2 ^ 8 * 2 ^ 32)
       ((∀ k, k < 16 → (s.coll k).busy = true) →
         exec (.collectiveSubmit ag v) s = .next (s.setCreg .skbCollStat 0 0 (stat ||| 0x100))) ∧
       (∀ k, k < 16 → (s.coll k).busy = false → (∀ j, j < k → (s.coll j).busy = true) →
         ((r.2.isSome = true ∨ s.collOk r.1 (s.agentTenant ag) = false) →
           exec (.collectiveSubmit ag v) s = .next (s.setCreg .skbCollStat 0 0 (stat ||| 0x300))) ∧
         (r.2 = none → s.collOk r.1 (s.agentTenant ag) = true → s.skbIn = [] →
           let c : Coll := { busy := true, desc := r.1, due := s.dueNs (fld r.1 346 336) (bit r.1 347), segs := [] }
           exec (.collectiveSubmit ag v) s = .next
             (((List.range (cSegs r.1)).foldl (fun s i => s.advanceColl k i) (s.modColl k fun _ => c)).checkColl k)))) ∧
     (p.ptype = 8 → p.dst = s.devId → p.e2eOk = true →
       (∀ k, s.collOf p = some k →
         exec (.collectiveSegment p) s = .next ((s.dropIn p).takeSeg k p) ∧
         ((p.addr.toNat / 2 ^ 40 % 2 ^ 3 = 4 ∨ p.addr.toNat / 2 ^ 40 % 2 ^ 3 = 5) →
           ∃ t, exec (.collectiveSegment p) s = .next t ∧ failed t k (p.arg.setWidth 10))) ∧
       (s.collOf p = none → (∀ x ∈ s.skbIn, x.1 ≠ p) →
         exec (.collectiveSegment p) s = .next { s with skbIn := s.skbIn ++ [(p, 8)] })) ∧
     (((s.coll n.toNat).busy = false ∨ (s.coll n.toNat).due = none) → exec (.collectiveTimeout n) s = .next s) ∧
     (∀ due, (s.coll n.toNat).busy = true → (s.coll n.toNat).due = some due →
       (s.ns < due → exec (.collectiveTimeout n) s = .next s) ∧
       (due ≤ s.ns → ∃ t, exec (.collectiveTimeout n) s = .next t ∧ failed t n.toNat (s.collWaits n.toNat)))) ∧
  (∀ (s : State) (dev : BitVec 10) (id : Nat),
     let overdue := Store.get 0 s.heard dev.toNat + 3 * s.wdtNs
     ((s.isWorker dev = false ∨ s.lostWorkers.contains dev = true ∨ s.ns < overdue) →
       exec (.workerLost dev) s = .next s) ∧
     (s.isWorker dev = true → s.lostWorkers.contains dev = false → overdue ≤ s.ns →
       (∀ q ∈ s.cmds, q.2.waitFor.contains dev = false) →
       ∃ t, exec (.workerLost dev) s = .next t ∧ t.lostWorkers = dev :: s.lostWorkers ∧
         (∃ r : Report, (t.quad 0).reports = (s.quad 0).reports ++ [r] ∧ r.cls = 0x43 ∧ r.sev = 2 ∧ r.device = dev) ∧
         t.cmds = s.cmds ∧ t.threads = s.threads) ∧
     (s.cmd id = none → exec (.fanoutTimeout id) s = .next s) ∧
     (∀ c, s.cmd id = some c →
       ((c.waitFor = [] ∨ s.ns < c.since + 1000000 * (s.creg .skbFantmo 0 0).toNat) →
         exec (.fanoutTimeout id) s = .next s) ∧
       (c.waitFor ≠ [] → c.since + 1000000 * (s.creg .skbFantmo 0 0).toNat ≤ s.ns →
         exec (.fanoutTimeout id) s = .next (s.settleFan id c))))

/-- The registers of a ring: a doorbell in range sets TAIL, one out of range stops the ring and sets `RING_STAT` bit
1; setting EN of a ring that was off sets its four indices to 0 and starts it afresh, with a LOG2N outside 4 to 16
left as it was; `RING_QHEAD` consumes entries and sends the vector at once only where an entry with NOTIFY is left
(R410, R411, R413, R414). COMMAND_FETCH: with nothing to fetch, no room for a completion or the ring off or stopped,
nothing happens; an entry that host memory does not return stops the ring with a record of class 0x20; an entry that
passes its checks becomes a waiting command with its parameters, and HEAD advances (R411, R415, R418). -/
def Obligations.RingsAndFetch : Prop :=
  (∀ (s : State) (ag : Agent) (r : Ring) (v : Word),
     let k := r.toNat
     (s.gate ag (s.agentPriv ag) .ringDb k = .ok →
       ∃ t, exec (.ringDbWrite ag r v) s = .next t ∧
         (v.toNat % 2 ^ 16 < s.ringN r → t.ring r = { s.ring r with tail := v.toNat % 2 ^ 16 } ∧
           t.creg .ringStat k 0 = s.creg .ringStat k 0) ∧
         (s.ringN r ≤ v.toNat % 2 ^ 16 → t.ring r = { s.ring r with stopped := true } ∧
           t.creg .ringStat k 0 = s.creg .ringStat k 0 ||| 2) ∧
         (∀ q, q ≠ r → t.ring q = s.ring q) ∧ t.cmds = s.cmds ∧ t.threads = s.threads ∧ t.far = s.far) ∧
     (s.gate ag (s.agentPriv ag) .ringCfg k = .ok →
       ∃ t, exec (.ringCfgWrite ag r v) s = .next t ∧
         (t.creg .ringCfg k 0).getLsbD 0 = v.getLsbD 0 ∧
         (t.creg .ringCfg k 0).extractLsb' 4 5 =
           (if 4 ≤ (v.extractLsb' 4 5).toNat ∧ (v.extractLsb' 4 5).toNat ≤ 16 then v.extractLsb' 4 5
            else (s.creg .ringCfg k 0).extractLsb' 4 5) ∧
         (v.getLsbD 0 = true → (s.creg .ringCfg k 0).getLsbD 0 = false →
           t.ring r = RingSt.reset ∧ t.creg .ringHead k 0 = 0 ∧ t.creg .ringQtail k 0 = 0 ∧ t.creg .ringQhead k 0 = 0) ∧
         ((v.getLsbD 0 = false ∨ (s.creg .ringCfg k 0).getLsbD 0 = true) → { t with regs := s.regs } = s) ∧
         (∀ q, q ≠ r → t.ring q = s.ring q)) ∧
     (s.gate ag (s.agentPriv ag) .ringQhead k = .ok →
       let n := s.ringN r
       let h := v.toNat % 2 ^ 16 % n
       let left := (s.ring r).notes.filter fun i =>
         decide ((i + n - h) % n < ((s.creg .ringQtail k 0).toNat + n - h) % n)
       ∃ t, exec (.ringQheadWrite ag r v) s = .next t ∧ t.creg .ringQhead k 0 = BitVec.ofNat 32 h ∧
         t.ring r = { s.ring r with
           notes := left
           armed := left.isEmpty } ∧
         t.toHost = s.toHost ++ (if left.isEmpty then [] else
           [.msix (ringTenant r) ((s.creg .ringCfg k 0).extractLsb' 16 7)]) ∧
         { t with
           regs := s.regs
           rings := s.rings
           toHost := s.toHost } = s)) ∧
  (∀ (s : State) (r : Ring) (hd blk : HostData),
     let head := (s.creg .ringHead r.toNat 0).toNat
     ((s.keep.duboette = false ∨ s.ringOn r = false ∨ (s.ring r).stopped = true ∨ (s.ring r).tail = head ∨
         s.qfull r = true) → exec (.commandFetch r hd blk) s = .next s) ∧
     (s.keep.duboette = true → s.ringOn r = true → (s.ring r).stopped = false → (s.ring r).tail ≠ head →
       s.qfull r = false → bit (s.creg .ringCfg r.toNat 0) 1 = false →
       (hd = none → ∃ t, exec (.commandFetch r hd blk) s = .next t ∧ (t.ring r).stopped = true ∧
         t.creg .ringStat r.toNat 0 = s.creg .ringStat r.toNat 0 ||| 2 ∧ t.cmds = s.cmds ∧
         ∃ x : Report, (t.quad 0).reports = (s.quad 0).reports ++ [x] ∧ x.cls = 0x20 ∧ x.sev = 1 ∧
           x.tenant = ringTenant r) ∧
       (∀ bytes, hd = some bytes → bytes.length = 64 →
         let header : DWord := BitVec.ofNat 64 (leNat (bytes.take 8))
         let c : Cmd :=
           { origin := .ring r, header := header, params := (bytes.drop 8).take (header.toNat / 2 ^ 48), st := .waiting,
             waitFor := [], replies := [], since := s.ns, image := [], slot := none, ended := none, step := 0 }
         header.getLsbD 10 = false → s.headerFault (ringTenant r) c = none →
         ∃ t, exec (.commandFetch r hd blk) s = .next t ∧ t.cmd s.nextId = some c ∧
           (∀ j, j ≠ s.nextId → t.cmd j = s.cmd j) ∧
           t.creg .ringHead r.toNat 0 = BitVec.ofNat 32 ((head + 1) % s.ringN r) ∧ t.nextId = s.nextId + 1 ∧
           t.rings = s.rings ∧ t.toHost = s.toHost ∧ t.threads = s.threads ∧ t.far = s.far)))

/-- Starting a command: without the command, with another opcode or while answers are awaited nothing happens; one
that waits and may not start stays; one for other devices is forwarded; one that may start goes on exactly as one that
has started; under a device fault all but two opcodes are answered with 0x14 (R412, R417, R419, R458). A completion on
a ring in host memory: the command is over, `HIF_CMDS` counts it, its 32-byte status packet is written at QTAIL, which
advances, the phase changes where it wraps, and the vector is sent only for NOTIFY while armed (R412, R413, R416). -/
def Obligations.CommandStartAndCompletion : Prop :=
  (∀ (s : State) (id : Nat) (hd : HostData),
     let opcodes : List (Instr × Nat) :=
       [(.nopCommand id, 0x01), (.queryCaps id, 0x02), (.readErrlog id, 0x03), (.partition id, 0x08), (.setPower id, 0x09),
        (.setPowerRetain id, 0x09), (.setTick id, 0x0A), (.allocCounters id, 0x10), (.freeCounters id, 0x11),
        (.allocLocks id, 0x12), (.freeLocks id, 0x13), (.setWindow id, 0x18), (.winv id, 0x19), (.copy id, 0x20),
        (.fill id, 0x21), (.loadImage id hd, 0x28), (.unloadImage id, 0x29), (.runTicks id, 0x2A), (.stop id, 0x2B),
        (.cancel id, 0x2C), (.cancelDispatch id, 0x2C), (.migrate id, 0x2D), (.dispatch id, 0x2E)]
     ∀ x ∈ opcodes,
     (s.cmd id = none → exec x.1 s = .next s) ∧
     ∀ c, s.cmd id = some c →
       ((c.op ≠ x.2 ∨ s.keep.duboette = false ∨ c.waitFor ≠ []) → exec x.1 s = .next s) ∧
       (c.op = x.2 → s.keep.duboette = true → c.waitFor = [] →
         (c.st = .waiting → s.mayStart id c = false → exec x.1 s = .next s) ∧
         (c.st = .waiting → s.mayStart id c = true → s.targets c ≠ [] → exec x.1 s = .next (s.forwardCmd id c)) ∧
         (c.st = .waiting → s.mayStart id c = true → s.targets c = [] →
           exec x.1 s = exec x.1 (s.modCmd id fun k => { k with
             st := .started
             since := s.ns })) ∧
         (c.st = .started → s.devFault = true → x.2 ≠ 0x02 → x.2 ≠ 0x03 → exec x.1 s = .next (s.failCmd id 0x14 0)))) ∧
  (∀ (s : State) (id status : Nat) (c : Cmd) (r : Ring) (r0 r1 r2 : DWord),
     s.cmd id = some c → c.origin = .ring r → (s.creg .ringCfg r.toNat 0).getLsbD 0 = true →
     (s.creg .ringCfg r.toNat 0).getLsbD 1 = false →
     let tail := (s.creg .ringQtail r.toNat 0).toNat
     let next := (tail + 1) % s.ringN r
     let at0 := s.ringBase .ringQbaseLo .ringQbaseHi r + 32 * tail
     let k := s.ring r
     let t := s.completeCmd id status r0 r1 r2
     t.cmd id = none ∧ (∀ j, j ≠ id → t.cmd j = s.cmd j) ∧
     t.creg .ringQtail r.toNat 0 = BitVec.ofNat 32 next ∧
     t.creg .hifCmds 0 0 = satAdd (s.creg .hifCmds 0 0) 1 ∧
     (t.ring r).phase = (if next = 0 then ! k.phase else k.phase) ∧
     t.toHost = s.toHost ++ (.write (ringTenant r) (BitVec.ofNat 64 at0) (statusBytes c status k.phase r0 r1 r2) ::
       (if c.notify && k.armed then [.msix (ringTenant r) ((s.creg .ringCfg r.toNat 0).extractLsb' 16 7)] else [])) ∧
     (statusBytes c status k.phase r0 r1 r2).length = 32 ∧
     (c.notify = true → (t.ring r).armed = false ∧ (t.ring r).notes = k.notes ++ [tail]) ∧
     t.threads = s.threads ∧ t.far = s.far ∧ t.tasks = s.tasks)

/-- Commands of the device: NOP completes; QUERY_CAPS answers with the masks and the ID, and writes the capability
record where an address is given; READ_ERRLOG writes the first records of the caller's selection; a parameter out of
range is answered with 0x03 and its offset (R417, R420, R421, R467). PARTITION with EN: a Spire of another tenant's,
or one that leaves while an image uses it, is refused with 0x06; else the registers of the tenant hold the flags,
quotas, weight and Spires given. SET_POWER writes the cap first and replies once the loop has settled or after 100
windows; STATE 1 is refused while work runs, else the device begins to enter RETAIN with its tick control saved.
SET_TICK with a clock above 1,600 MHz needed is refused with 0x0A, else its intervals are set (R433, R435, R451,
R458). -/
def Obligations.DeviceAndConfigurationCommands : Prop :=
  (∀ (s : State) (id : Nat) (c : Cmd),
     (Serves s id 0x01 c → exec (.nopCommand id) s = .next (s.completeOk id 0 0 0)) ∧
     (Serves s id 0x02 c →
       let r2 := s.devId.toNat + (s.creg .skbGroup 0 0).toNat % 2 ^ 4 * 2 ^ 16 + s.version % 2 ^ 16 * 2 ^ 32
       (c.par 0 8 = 0 → exec (.queryCaps id) s = .next (s.completeOk id s.enableMask s.failedMask r2)) ∧
       (c.par 0 8 ≠ 0 → s.cmdWindow c = false → exec (.queryCaps id) s =
         .next ((s.hostOut (.write c.tenant (BitVec.ofNat 64 (c.par 0 8)) (s.capRecord c.tenant))).completeOk id
           s.enableMask s.failedMask r2))) ∧
     (Serves s id 0x03 c →
       let n := c.par 8 2
       let sel := s.service.filter fun h => decide (c.tenant = 0) || decide (h.rep.tenant = c.tenant)
       ((n = 0 ∨ 256 < n) → exec (.readErrlog id) s = .next (s.failCmd id 0x03 8)) ∧
       (0 < n → n ≤ 256 → 1 < c.par 10 1 → exec (.readErrlog id) s = .next (s.failCmd id 0x03 10)) ∧
       (0 < n → n ≤ 256 → c.par 10 1 = 0 → s.cmdWindow c = false → exec (.readErrlog id) s =
         .next ((s.hostOut (.write c.tenant (BitVec.ofNat 64 (c.par 0 8)) ((sel.take n).flatMap HubRec.bytes))).completeOk
           id (sel.take n).length (sel.length - (sel.take n).length) (s.lostTotal + (s.creg .ehOvf 0 0).toNat))))) ∧
  (∀ (s : State) (id : Nat) (c : Cmd),
     (Serves s id 0x08 c → c.par 0 1 ≤ 15 → c.par 1 1 ≤ 7 → c.par 4 1 ≤ 127 → c.flag 1 0 = true →
       let t : BitVec 4 := BitVec.ofNat 4 (c.par 0 1)
       let new := c.par 8 8
       let has := fun n : Nat => new / 2 ^ n % 2 = 1
       let busy := ∃ n, n < 64 ∧
         ((¬ has n ∧ s.inPartition t (BitVec.ofNat 6 n) = true ∧ s.tenantUses t n = true) ∨
          (has n ∧ ∃ u, u < 16 ∧ u ≠ t.toNat ∧ s.inPartition (BitVec.ofNat 4 u) (BitVec.ofNat 6 n) = true))
       (busy → exec (.partition id) s = .next (s.failCmd id 0x06 0)) ∧
       (¬ busy → ∃ s1 : State, exec (.partition id) s = .next (s1.completeOk id new 0 0) ∧
         s1.creg .partSpLo t.toNat 0 = BitVec.ofNat 32 new ∧ s1.creg .partSpHi t.toNat 0 = BitVec.ofNat 32 (new / 2 ^ 32) ∧
         s1.creg .partCfg t.toNat 0 =
           BitVec.ofNat 32 (c.par 1 1 + c.par 4 1 * 2 ^ 8 + c.par 2 1 * 2 ^ 16 + c.par 3 1 * 2 ^ 24) ∧
         { s1 with regs := s.regs } = s)) ∧
     (Serves s id 0x09 c → 900 ≤ c.par 0 2 → c.par 0 2 ≤ 1800 → c.par 2 2 ≤ 2047 →
       let w : Word := BitVec.ofNat 32 (c.par 0 2 + c.par 2 2 * 2 ^ 16)
       (c.par 4 1 = 0 →
         (c.step = 0 → exec (.setPower id) s = .next ((s.writePwrCtl w).cmdStep id 1)) ∧
         (c.step ≠ 0 → (bit (s.creg .pwrStatus 0 0) 4 = true ∨ 100 ≤ s.power.windows) →
           exec (.setPower id) s = .next (s.powerReply id)) ∧
         (c.step ≠ 0 → bit (s.creg .pwrStatus 0 0) 4 = false → s.power.windows < 100 →
           exec (.setPower id) s = .next s) ∧
         exec (.setPowerRetain id) s = .next s) ∧
       (c.par 4 1 = 1 →
         exec (.setPower id) s = .next s ∧
         (s.retainBusy = true → exec (.setPowerRetain id) s = .next (s.failCmd id 0x06 0)) ∧
         (s.retainBusy = false → ∃ s1 : State, exec (.setPowerRetain id) s = .next (s1.powerReply id) ∧
           s1.power.phase = .entering ∧ s1.power.savedCtl = s.creg .tickCtl 0 0 ∧
           (s1.creg .tickCtl 0 0).getLsbD 0 = false ∧ (s1.creg .pwrCtl 0 0) = w ∧ s1.cmds = s.cmds ∧
           s1.threads = s.threads))) ∧
     (Serves s id 0x09 c → (c.par 0 2 < 900 ∨ 1800 < c.par 0 2) → c.par 4 1 ≠ 1 →
       exec (.setPower id) s = .next (s.failCmd id 0x03 0)) ∧
     (Serves s id 0x0A c →
       let ok := fun o => 10000 ≤ c.par o 4 ∧ c.par o 4 ≤ 1000000000
       let need := s.tasks.foldl (fun m p => max m (imgClock p.2.image (c.par 0 4))) 0
       (¬ ok 0 → exec (.setTick id) s = .next (s.failCmd id 0x03 0)) ∧
       (ok 0 → ok 4 → ok 8 → c.par 4 4 ≤ c.par 8 4 → c.par 12 1 < 12 →
         (1600 < need → exec (.setTick id) s = .next (s.failCmd id 0x0A need)) ∧
         (need ≤ 1600 → s.tasks = [] → bit (s.creg .smfSwapctl 0 0) 16 = false →
           ∃ s1 : State, exec (.setTick id) s = .next (s1.completeOk id need s1.nextTick 0) ∧
           s1.creg .tickPeriod 0 0 = BitVec.ofNat 32 (c.par 0 4) ∧ s1.creg .tickMin 0 0 = BitVec.ofNat 32 (c.par 4 4) ∧
           s1.creg .tickMax 0 0 = BitVec.ofNat 32 (c.par 8 4) ∧
           (s1.creg .tickCtl 0 0).extractLsb' 0 4 = BitVec.ofNat 4 (c.par 12 1) ∧
           s1.cmds = s.cmds ∧ s1.threads = s.threads))))

/-- Counters and locks: with quota and free units ALLOC gives the caller units of one Spire of its partition, none of
which had an owner, and touches no other unit; without it answers 0x05; FREE of the caller's units that no task names
frees exactly those, of another's is answered with 0x03 (R431). Which units it gives is a free choice of the model
(Config.choice). Windows: SET_WINDOW of named granules within the table writes exactly its entries, with the flags
given, and completes unless it is to invalidate; one of a granule that is not there, Duboette's or another tenant's is
answered with 0x04 and its address; WINV starts in all four quadrants once none is in progress, and completes once all
are done (R204, R208, R432). The DMA engine: COPY and FILL start once their spaces are allowed; a FILL of one piece of
Far repeats its pattern over exactly its bytes, a COPY of one piece of Far to another writes the bytes that it read,
and each completes with its length; nothing else of Far changes (R404, R420). -/
def Obligations.UnitWindowAndDmaCommands : Prop :=
  (∀ (s : State) (id : Nat) (c : Cmd),
     let given := fun (s1 : State) (lock : Bool) (u n : Nat) => u % 16 + n ≤ 16 ∧ u < 1024 ∧
       (∀ i, i < n → s.unitOwner lock (u + i) = none ∧ s1.unitOwner lock (u + i) = some c.tenant) ∧
       (∀ k, k < 1024 → (k < u ∨ u + n ≤ k) → s1.unitOwner lock k = s.unitOwner lock k) ∧
       s.inPartition c.tenant (BitVec.ofNat 6 (u / 16)) = true ∧ s1.threads = s.threads ∧ s1.far = s.far
     (Serves s id 0x10 c → 1 ≤ c.par 0 1 → c.par 0 1 ≤ 16 → s.badSpire c (c.par 1 1) = false → c.par 2 1 = 0 →
       let n := c.par 0 1
       let room := (s.unitsOf false c.tenant).length + n ≤ s.quota false c.tenant ∧
         s.freeUnits false c.tenant (c.par 1 1) n ≠ []
       (¬ room → ∃ s1 : State, exec (.allocCounters id) s = .next (s1.failCmd id 0x05 0) ∧
         { s1 with free := s.free } = s) ∧
       (room → ∃ (u : Nat) (s1 : State),
         exec (.allocCounters id) s = .next (s1.completeOk id (64 * u) (64 * n) s.devId.toNat) ∧ given s1 false u n)) ∧
     (Serves s id 0x12 c → s.badSpire c (c.par 0 1) = false →
       let room := (s.unitsOf true c.tenant).length + 1 ≤ s.quota true c.tenant ∧
         s.freeUnits true c.tenant (c.par 0 1) 1 ≠ []
       (¬ room → ∃ s1 : State, exec (.allocLocks id) s = .next (s1.failCmd id 0x05 0) ∧ { s1 with free := s.free } = s) ∧
       (room → ∃ (u : Nat) (s1 : State), exec (.allocLocks id) s = .next (s1.completeOk id (16 * u) 0 0) ∧
         given s1 true u 1)) ∧
     (Serves s id 0x11 c →
       let w : Word := BitVec.ofNat 32 (c.par 0 4)
       let n := c.par 4 1
       let u := w.toNat / 2 ^ 6 % 2 ^ 10
       s.notHere w = false → w.toNat % 64 = 0 → 1 ≤ n → n ≤ 16 →
       ((16 < u % 16 + n ∨ ∃ i, i < n ∧ s.unitOwner false (u + i) ≠ some c.tenant) →
         exec (.freeCounters id) s = .next (s.failCmd id 0x03 0)) ∧
       (u % 16 + n ≤ 16 → (∀ i, i < n → s.unitOwner false (u + i) = some c.tenant) →
         ((∃ i, i < n ∧ s.namedUnit false (u + i) = true) → exec (.freeCounters id) s = .next (s.failCmd id 0x06 0)) ∧
         ((∀ i, i < n → s.namedUnit false (u + i) = false) →
           ∃ s1 : State, exec (.freeCounters id) s = .next (s1.completeOk id 0 0 0) ∧
             (∀ i, i < n → s1.unitOwner false (u + i) = none) ∧
             (∀ k, k < 1024 → (k < u ∨ u + n ≤ k) → s1.unitOwner false k = s.unitOwner false k) ∧
             { s1 with regs := s.regs } = s))) ∧
     (Serves s id 0x13 c → c.par 0 2 ≤ 0x3FFF → c.par 0 2 % 16 = 0 →
       let u := c.par 0 2 / 16
       (s.unitOwner true u ≠ some c.tenant → exec (.freeLocks id) s = .next (s.failCmd id 0x03 0)) ∧
       (s.unitOwner true u = some c.tenant → s.namedUnit true u = false →
         ∃ s1 : State, exec (.freeLocks id) s = .next (s1.completeOk id 0 0 0) ∧ s1.unitOwner true u = none ∧
           { s1 with regs := s.regs } = s))) ∧
  (∀ (s : State) (id : Nat) (c : Cmd),
     (Serves s id 0x18 c → c.step = 0 → c.par 0 8 + c.par 8 4 ≤ 2 ^ 20 → 0 < c.par 8 4 → c.par 12 1 ≤ 63 →
       c.flag 12 0 = true → c.flag 12 5 = false → c.flag 12 4 = false →
       let n := c.par 8 4
       let pg := c.par 16 8
       let bad := fun g => farPopulated (g * 2 ^ 21) = false ∨ duboettes g = true ∨
         ∃ u, u < 16 ∧ u ≠ c.tenant.toNat ∧ s.mapsGranule (BitVec.ofNat 4 u) g = true
       (∀ k, k < n → bad (pg + k) → (∀ j, j < k → ¬ bad (pg + j)) →
         exec (.setWindow id) s = .next (s.failCmd id 0x04 ((pg + k) * 2 ^ 21))) ∧
       ((∀ k, k < n → ¬ bad (pg + k)) → c.par 0 8 + n ≤ (s.creg .winLen 0 c.tenant.toNat).toNat →
         ∃ s1 : State, exec (.setWindow id) s = .next (s1.completeOk id pg 0 0) ∧
           (∀ k, k < n → s1.far.readNat (s.tableBase c.tenant + 8 * (c.par 0 8 + k)) 8 =
             c.par 12 1 % 16 + (pg + k) * 2 ^ 8) ∧
           (∀ a, (a < s.tableBase c.tenant + 8 * c.par 0 8 ∨ s.tableBase c.tenant + 8 * (c.par 0 8 + n) ≤ a) →
             s1.far.byte a = s.far.byte a) ∧
           { s1 with far := s.far } = s)) ∧
     (Serves s id 0x19 c → c.par 0 8 < 2 ^ 27 → c.par 8 4 < 2 ^ 21 →
       (c.step = 0 → (∃ q : Quad, (s.quad q).winv.isSome = true) →
         exec (.winv id) s = .next (s.cmdStep id 0)) ∧
       (c.step = 0 → (∀ q : Quad, (s.quad q).winv = none) →
         ∃ t, exec (.winv id) s = .next t ∧ (t.cmd id).map (·.step) = some 1 ∧
           ∀ q : Quad, (t.quad q).winv = some { tenant := c.tenant, first := BitVec.ofNat 27 (c.par 0 8),
                                                count := BitVec.ofNat 21 (c.par 8 4) }) ∧
       (0 < c.step → s.winvDone = true → exec (.winv id) s = .next (s.completeOk id 0 0 0)) ∧
       (0 < c.step → s.winvDone = false → exec (.winv id) s = .next s))) ∧
  (∀ (s : State) (id : Nat) (c : Cmd) (hd : HostData),
     (Serves s id 0x20 c → badSpace c 24 = false → badSpace c 25 = false → c.par 24 1 ≠ 3 → c.par 25 1 ≠ 3 →
       c.par 28 4 < 2 ^ 27 →
       (c.step = 0 → exec (.copy id) s = .next (s.cmdStep id 1)) ∧ (c.step ≠ 0 → exec (.copy id) s = .next s)) ∧
     (Serves s id 0x20 c → badSpace c 24 = true → exec (.copy id) s = .next (s.failCmd id 0x03 24)) ∧
     (Serves s id 0x21 c → badSpace c 24 = false → c.par 24 1 ≠ 3 →
       (c.step = 0 → exec (.fill id) s = .next (s.cmdStep id 1)) ∧ (c.step ≠ 0 → exec (.fill id) s = .next s)) ∧
     (Serves s id 0x21 c → badSpace c 24 = true → exec (.fill id) s = .next (s.failCmd id 0x03 24)) ∧
     (s.cmd id = none → exec (.dmaComplete id hd) s = .next s) ∧
     (s.cmd id = some c → c.st = .started → c.step = 1 → c.waitFor = [] →
       (c.op = 0x21 → (c.par 24 1 = 1 ∨ c.par 24 1 = 2) →
         let n := c.par 8 8
         ∀ f, (s.dmaRuns c.tenant (c.par 24 1) .write (c.par 0 8 % 2 ^ 48) n).1 = ([(f, n)], none) →
           ∃ s1 : State, exec (.dmaComplete id hd) s = .next (s1.completeOk id n 0 0) ∧
             (∀ k, k < n → s1.far.byte (f + k) = ((c.params.drop 16).take 8)[k % 8]?.getD 0) ∧
             (∀ a, (a < f ∨ f + n ≤ a) → s1.far.byte a = s.far.byte a) ∧ s1.threads = s.threads ∧ s1.cmds = s.cmds) ∧
       (c.op = 0x20 → c.par 24 1 = 2 → c.par 25 1 = 2 → c.par 28 4 = 0 → c.par 32 4 = 0 → s.far.poison = [] →
         let n := c.par 16 8
         ∀ f g, (s.dmaRuns c.tenant 2 .read (c.par 0 8 % 2 ^ 48) n).1 = ([(f, n)], none) →
           (s.dmaRuns c.tenant 2 .write (c.par 8 8 % 2 ^ 48) n).1 = ([(g, n)], none) →
           ∃ s1 : State, exec (.dmaComplete id hd) s = .next (s1.completeCmd id 0 (BitVec.ofNat 64 n) 0 0) ∧
             (∀ k, k < n → s1.far.byte (g + k) = s.far.byte (f + k)) ∧
             (∀ a, (a < g ∨ g + n ≤ a) → s1.far.byte a = s.far.byte a) ∧ { s1 with far := s.far } = s)))

/-- LOAD_IMAGE: an image that fails its checks is answered with the first failure; one whose Spires all run is
installed. UNLOAD_IMAGE of a handle that is not the caller's is answered with 0x03, of a task that runs with 0x06,
else the task is retired and the leaked counters, the locks held and the overruns are the answer (R422, R423, R428).
Runs: RUN_TICKS of a task without one, with the clock at its floor, is armed for the tick asked for or the earliest
one, and counts to its last tick; with the clock below it waits; a second run is answered with 0x06; after the last
tick and its write-backs the run replies. STOP of a running task makes the tick in progress, or the next where the
notice has passed, its last. CANCEL ends the task, or withdraws a DISPATCH that waits (R424 to R427, R457). -/
def Obligations.ImageAndRunCommands : Prop :=
  (∀ (s : State) (id : Nat) (c : Cmd) (hd : HostData),
     (Serves s id 0x28 c → c.par 16 1 = 0 → c.step = 0 →
       let s1 := s.hostAccess
       let im := (hd.getD []).take (c.par 8 8)
       (im.length < c.par 8 8 → exec (.loadImage id hd) s = .next (s1.failCmd id 0x04 (c.par 0 8 + im.length))) ∧
       (im.length = c.par 8 8 →
         (∀ f, s1.loadRefused c.tenant im (c.par 17 1) = some f →
           exec (.loadImage id hd) s = .next (s1.refuseCmd id f)) ∧
         (s1.loadRefused c.tenant im (c.par 17 1) = none →
           (∀ sp, sp ∈ plSpires im (c.par 17 1) → s.domOpen sp.toNat = true) →
           exec (.loadImage id hd) s = .next (((s1.modCmd id fun k => { k with image := im }).cmdStep id 1).install id
             c.tenant im (c.par 17 1))))) ∧
     (Serves s id 0x28 c → 3 ≤ c.par 16 1 → exec (.loadImage id hd) s = .next (s.failCmd id 0x03 16)) ∧
     (Serves s id 0x29 c →
       ((s.task (c.par 0 2) = none ∨ ∃ t, s.task (c.par 0 2) = some t ∧ t.tenant ≠ c.tenant) →
         exec (.unloadImage id) s = .next (s.failCmd id 0x03 0)) ∧
       ∀ t, s.task (c.par 0 2) = some t → t.tenant = c.tenant →
         ((t.run.isSome = true ∨ t.mig.isSome = true) → exec (.unloadImage id) s = .next (s.failCmd id 0x06 0)) ∧
         (t.run = none → t.mig = none → exec (.unloadImage id) s =
           .next ((s.retireTask (c.par 0 2) t).completeOk id (min 0xFFFF (s.leaks t).length + (s.leaks t).headD 0 * 2 ^ 16)
             (s.heldLocks t).length t.overruns)))) ∧
  (∀ (s : State) (id h : Nat) (c : Cmd) (t : Task), s.task h = some t →
     (Serves s id 0x2A c → h = c.par 0 2 → t.tenant = c.tenant → c.par 8 8 < 2 ^ 48 →
       let n0 := max (c.par 8 8) (s.nextTick + 1)
       let count := c.par 4 4
       (t.run = none → ∃ u r, exec (.runTicks id) s = .next u ∧ u.task h = some { t with run := some r } ∧
         { u with tasks := s.tasks } = s ∧ (∀ j, j ≠ h → u.task j = s.task j) ∧ r.cmd = id ∧ r.count = count ∧
         r.damaged = [] ∧ r.overruns = 0 ∧ r.stopped = false ∧
         (s.floorClk ≤ s.cclk → r.st = .armed ∧ r.n0 = n0 ∧
           r.last = if count = 0 then none else some ((n0 + count - 1) % 2 ^ 48)) ∧
         (s.cclk < s.floorClk → r.st = .waiting)) ∧
       (∀ r, t.run = some r → r.cmd ≠ id → exec (.runTicks id) s = .next (s.failCmd id 0x06 0))) ∧
     (∀ r, s.tasks = [(h, t)] → t.run = some r → r.cmd = id →
       (r.st = .ending → (∀ sp, sp ∈ t.spires → s.listBusy sp = false) →
         exec (.runTicksComplete id) s = .next (s.replyRun h (if r.stopped then 0x0B else 0) none)) ∧
       (r.st ≠ .ending → exec (.runTicksComplete id) s = .next s)) ∧
     (Serves s id 0x2B c → h = c.par 0 2 → t.tenant = c.tenant →
       (t.run = none → exec (.stop id) s = .next (s.completeOk id t.lastTick 0 0)) ∧
       ∀ r, t.run = some r → r.st = .running → r.last = none →
         let last := if s.ct.notice = none then s.ct.tick.toNat else (s.ct.tick.toNat + 1) % 2 ^ 48
         exec (.stop id) s = .next ((s.modTask h fun t => { t with run := some { r with
           last := some last
           stopped := true } }).completeOk id last 0 0)) ∧
     (Serves s id 0x2C c → h = c.par 0 2 → h ≠ 0xFFFF → t.tenant = c.tenant →
       (let x := s.endTask h 0x0C none
        exec (.cancel id) s = .next (x.2.completeOk id x.1.threads x.1.streams x.1.slots)) ∧
       exec (.cancelDispatch id) s = .next s) ∧
     (Serves s id 0x2C c → c.par 0 2 = 0xFFFF →
       exec (.cancel id) s = .next s ∧
       (c.plen < 6 → exec (.cancelDispatch id) s = .next (s.failCmd id 0x03 0)) ∧
       (6 ≤ c.plen → (∀ p ∈ s.cmds, dispatchOf c p.2 = false) →
         exec (.cancelDispatch id) s = .next (s.failCmd id 0x03 2)) ∧
       (6 ≤ c.plen → ∀ p sp k, s.cmds.find? (fun p => dispatchOf c p.2) = some p → p.2.slot = some (sp, k) →
         (s.slotSt (BitVec.ofNat 6 sp) k = .waiting → exec (.cancelDispatch id) s =
           .next ((s.writeCupDctl (BitVec.ofNat 6 sp) k
             (s.creg .cupDctl (BitVec.ofNat 6 sp : Spire).toNat k ||| 0x200)).completeOk id 0 0 1)) ∧
         (s.slotSt (BitVec.ofNat 6 sp) k ≠ .waiting → exec (.cancelDispatch id) s = .next (s.completeOk id 0 0 0)))))

/-- MIGRATE of the caller's task: a second migration is answered with 0x06, the placement it has with 0x03, a target
that fails its checks with the first failure; with the target's Spires running it is armed. Once the old placement has
drained the migration replies with the epoch and its counts; not drained 100,000,000 ns after the edge it replies with
0x0E and keeps the old placement. DISPATCH takes the lowest empty slot of the Spire, or is answered with 0x05, and
completes when the slot has ended (R427, R429, R430). Function resets and the BAR: a VF's reset drops the commands of
its rings, frees its units and turns its rings off, with those of other tenants as they were; the PF's resets the
registers of the rings and the host interface and drops the commands of all rings, with no completion written; a BAR2
access outside the BAR reaches nothing, one that is not there is recorded with class 0x08 and, for a read, answered as
unsupported, another reads or writes exactly its bytes; an ATS invalidation completes once no read of host memory is
under way (R404, R405, R407, R436). -/
def Obligations.MigrateDispatchAndFunctions : Prop :=
  (∀ (s : State) (id h : Nat) (c : Cmd) (t : Task), s.task h = some t →
     (Serves s id 0x2D c → h = c.par 0 2 → t.tenant = c.tenant →
       let p := c.par 2 1
       (∀ m, t.mig = some m → m.cmd = id → exec (.migrate id) s = .next s) ∧
       (t.mig = none → (imgPlaces t.image ≤ p ∨ p = t.place) → exec (.migrate id) s = .next (s.failCmd id 0x03 2)) ∧
       (p < imgPlaces t.image → p ≠ t.place →
         (∀ m, t.mig = some m → m.cmd ≠ id → exec (.migrate id) s = .next (s.failCmd id 0x06 0)) ∧
         (t.mig = none → t.old = none →
           (∀ f, s.migrateRefused h t p = some f → exec (.migrate id) s = .next (s.refuseCmd id f)) ∧
           (s.migrateRefused h t p = none → c.step = 0 →
             (∀ sp, sp ∈ plSpires t.image p → s.domOpen sp.toNat = true) →
             exec (.migrate id) s = .next (((s.modCmd id fun k => { k with image := [] }).cmdStep id 1).armMigrate id h t p
               []))))) ∧
     (∀ m o, s.tasks = [(h, t)] → t.mig = some m → t.old = some o → m.cmd = id →
       (m.switched = none → exec (.migrateDrained id) s = .next s ∧ exec (.migrateTimeout id) s = .next s) ∧
       (∀ at0, m.switched = some at0 →
         (s.oldDrained t o = false → exec (.migrateDrained id) s = .next s) ∧
         (s.oldDrained t o = true →
           (∃ s1 : State, exec (.migrateDrained id) s = .next (s1.completeOk id t.epoch.toNat (s.retiredCounts t o).1
               (s.retiredCounts t o).2) ∧
             s1.task h = some { t with
               mig := none
               old := none } ∧ s1.threads = s.threads ∧ s1.cmds = s.cmds) ∧
           exec (.migrateTimeout id) s = .next s) ∧
         (s.oldDrained t o = false → s.ns < at0 + 100000000 → exec (.migrateTimeout id) s = .next s) ∧
         (s.oldDrained t o = false → at0 + 100000000 ≤ s.ns → exec (.migrateTimeout id) s =
           .next ((s.modTask h fun t => { t with mig := none }).completeCmd id 0x0E (BitVec.ofNat 64 t.epoch.toNat)
             (BitVec.ofNat 64 (s.retiredCounts t o).1) (BitVec.ofNat 64 (s.retiredCounts t o).2))))) ∧
     (Serves s id 0x2E c → c.slot = none → h = c.par 0 2 → t.tenant = c.tenant → c.par 2 1 ≤ 63 →
       t.spires.contains (BitVec.ofNat 6 (c.par 2 1)) = true → c.flag 3 7 = false →
       s.notHere (BitVec.ofNat 32 (c.par 12 4)) = false → s.notHere (BitVec.ofNat 32 (c.par 20 4)) = false →
       let sp : Spire := BitVec.ofNat 6 (c.par 2 1)
       ((∀ k, k < 64 → s.slotSt sp k ≠ .empty) → exec (.dispatch id) s = .next (s.failCmd id 0x05 0)) ∧
       (∀ k, k < 64 → s.slotSt sp k = .empty → (∀ j, j < k → s.slotSt sp j ≠ .empty) →
         ∃ s1 : State, exec (.dispatch id) s = .next (s1.writeCupDctl sp k
             (BitVec.ofNat 32 (c.par 3 1 % 2 ^ 7 + 2 ^ 7 + 2 ^ 8 + c.tenant.toNat * 2 ^ 12))) ∧
           s1.cmd id = some { c with slot := some (c.par 2 1, k) } ∧ { s1 with
             cmds := s.cmds
             regs := s.regs } = s)) ∧
     (Serves s id 0x2E c → ∀ sp k, c.slot = some (sp, k) →
       (c.ended = none → exec (.dispatch id) s = .next s) ∧
       (∀ st, c.ended = some st → exec (.dispatch id) s =
         .next (s.completeCmd id st (BitVec.ofNat 64 sp) (BitVec.ofNat 64 k) 0)))) ∧
  (∀ (s : State) (fn : BitVec 4) (off : BitVec 64) (size tag : Nat) (data : List Byte),
     exec (.vfFlr 0) s = .next s ∧
     (fn ≠ 0 → s.tasks = [] → ∃ t, exec (.vfFlr fn) s = .next t ∧
       (∀ p, p ∈ t.cmds ↔ p ∈ s.cmds ∧ ∀ r, p.2.origin = .ring r → ringTenant r ≠ fn) ∧
       (∀ k : BitVec 4, t.ring (fn ++ k) = RingSt.reset ∧ (t.creg .ringCfg (fn ++ k : Ring).toNat 0).getLsbD 0 = false) ∧
       (∀ r, ringTenant r ≠ fn → t.ring r = s.ring r) ∧
       (∀ lock u, u < 1024 → s.unitOwner lock u = some fn → t.unitOwner lock u = none) ∧
       t.toHost = s.toHost ∧ t.threads = s.threads) ∧
     (∃ t, exec .pfFlr s = .next t ∧ (∀ r, t.ring r = RingSt.reset) ∧
       (∀ p, p ∈ t.cmds ↔ p ∈ s.cmds ∧ ∀ r, p.2.origin ≠ .ring r) ∧
       (∀ r : Ring, t.creg .ringCfg r.toNat 0 = CReg.ringCfg.row.reset ∧
         t.creg .ringQtail r.toNat 0 = CReg.ringQtail.row.reset) ∧
       { t with
         regs := s.regs
         rings := s.rings
         cmds := s.cmds } = s) ∧
     (s.bar2Hits off.toNat size = false → exec (.bar2Read fn off size) s = .next s) ∧
     (s.bar2Hits off.toNat data.length = false → exec (.bar2Write fn off data) s = .next s) ∧
     (s.bar2Hits off.toNat size = true →
       (∀ f, (s.bar2Runs fn off.toNat size .read).1 = some [(f, size)] →
         ∃ t, exec (.bar2Read fn off size) s = .next t ∧ t.toHost = s.toHost ++ [.data (s.far.read f size)] ∧
           t.far = s.far ∧ t.threads = s.threads) ∧
       ((s.bar2Runs fn off.toNat size .read).1 = none →
         ∃ t, exec (.bar2Read fn off size) s = .next t ∧ t.toHost = s.toHost ++ [.unsupported] ∧ t.far = s.far ∧
           ∃ r ∈ (t.quad 0).reports, r.cls = 0x08 ∧ r.sev = 0 ∧ r.detail = off)) ∧
     (s.bar2Hits off.toNat data.length = true →
       ∀ f, (s.bar2Runs fn off.toNat data.length .write).1 = some [(f, data.length)] →
         ∃ t, exec (.bar2Write fn off data) s = .next t ∧ (∀ k b, data[k]? = some b → t.far.byte (f + k) = b) ∧
           (∀ a, (a < f ∨ f + data.length ≤ a) → t.far.byte a = s.far.byte a) ∧ t.toHost = s.toHost ∧
           t.threads = s.threads) ∧
     exec (.atsInvalidation tag) s = .next (if s.readsHost then s else s.hostOut (.invalidated tag)))

/-- Requests to the power manager: ON of a domain that is OFF, with its parents ON, starts its ramp; one for a domain
that is ON withdraws an OFF; OFF of a domain that is ON with nothing powered below closes it at once where no edges
are fired, else at the next edge; CLEAR takes a FAILED domain to OFF and counts, three times at most; any other is
refused, with `PDM_DREQ` bit 16 set and every domain as it was (R440, R442 to R445). Ramps and failures: a stage that
ends with the voltage below 90 % of the rail, or meets overcurrent, aborts the ramp with that cause; another stage
follows, and after the last the domain is ON once what it needs has happened; one whose trims cannot be read fails; a
unit that fails in service fails its domain. A failed domain shows its cause and has no request pending, and its
record has class 0x38, the domain's index and the severity of the domain, in the collector of its quadrant (R28, R264, R440, R444, R446, R487); the power
domain manager's own failure stops forwarding and is recorded with severity 3 (R14, R30; its record's fields are log entry
113). Closing:
a domain that has drained goes OFF and raises source 0x072; one that has not by its time limit is cut, with a record
of class 0x21 that counts what was cut; a Spire that no placement uses for `PWR_IDLE` ms is asked to go OFF (R443,
R448, R449). -/
def Obligations.PowerDomains : Prop :=
  (∀ (s : State) (ag : Agent) (n : BitVec 7), s.gate ag (s.agentPriv ag) .pdmDreq 0 = .ok →
     let k := n.toNat
     let refused := fun c : Instr => ∃ t, exec c s = .next t ∧ (t.creg .pdmDreq 0 0).getLsbD 16 = true ∧
       { t with regs := s.regs } = s
     let only := fun t : State => (∀ j, j ≠ k → t.dom j = s.dom j) ∧ t.far = s.far
     ((96 ≤ k ∨ (k < 64 ∧ s.spireDisabled k = true) ∨ s.parentsOn k = false ∨ (s.dom k).st = .failed) →
       refused (.domainOnRequest ag n)) ∧
     (k < 96 → (k < 64 → s.spireDisabled k = false) → s.parentsOn k = true →
       ((s.dom k).st = .off → (∀ j, (s.dom j).pend = false) → s.ramping < 12 → bit s.fuses.badRamp k = false →
         ∃ t, exec (.domainOnRequest ag n) s = .next t ∧ (t.dom k).st = .ramp ∧ (t.dom k).stage = 0 ∧
           (t.dom k).since = s.ns ∧ (t.dom k).pend = false ∧ only t ∧ t.threads = s.threads) ∧
       ((s.dom k).st = .on → ∃ t, exec (.domainOnRequest ag n) s = .next t ∧
         t.dom k = { s.dom k with offAtEdge := false } ∧ only t ∧ t.threads = s.threads)) ∧
     ((96 ≤ k ∨ k = 92 ∨ k = 93 ∨ k = 95 ∨ s.childrenOff k = false ∨ (s.dom k).st = .failed) →
       refused (.domainOffRequest ag n)) ∧
     (k < 96 → k ≠ 92 → k ≠ 93 → k ≠ 95 → s.childrenOff k = true → (s.dom k).st = .on →
       (s.ct.running = true → ∃ t, exec (.domainOffRequest ag n) s = .next t ∧
         t.dom k = { s.dom k with
           pend := false
           offAtEdge := true } ∧ only t ∧ t.threads = s.threads) ∧
       (s.ct.running = false → 68 ≤ k → ∃ t, exec (.domainOffRequest ag n) s = .next t ∧ (t.dom k).st = .closing ∧
         (t.dom k).since = s.ns ∧ only t ∧ t.threads = s.threads) ∧
       (s.ct.running = false → k < 64 → ∃ t, exec (.domainOffRequest ag n) s = .next t ∧ (t.dom k).st = .closing ∧
         ∀ j, j ≠ k → t.dom j = s.dom j)) ∧
     (((s.dom k).st ≠ .failed ∨ (s.dom k).fails = 3 ∨ 96 ≤ k) → refused (.domainClear ag n)) ∧
     (k < 96 → (s.dom k).st = .failed → (s.dom k).fails ≠ 3 →
       ∃ t, exec (.domainClear ag n) s = .next t ∧ (t.dom k).st = .off ∧ (t.dom k).fails = (s.dom k).fails + 1 ∧
         (t.dom k).cause = 0 ∧ only t ∧ t.threads = s.threads)) ∧
  (∀ (s : State) (n : BitVec 7) (mv : BitVec 16) (cal : BridgeCal × BridgeCal) (cause stage volts : Nat),
     let k := n.toNat
     let early := s.switching k = false ∨ s.ns < (s.dom k).since + 250 * (s.creg .pdmRamp 0 0).toNat
     (early → exec (.rampStageEnd n mv) s = .next s) ∧
     (¬ early → mv.toNat * 10 < s.railMv k * 9 → exec (.rampStageEnd n mv) s = .next (s.abortRamp k 2 mv.toNat)) ∧
     (¬ early → s.railMv k * 9 ≤ mv.toNat * 10 → exec (.rampStageEnd n mv) s =
       .next (s.modDom k fun d => { d with
         stage := d.stage + 1
         since := s.ns }).startHeld) ∧
     exec (.rampAbort n mv) s = .next (if s.switching k then s.abortRamp k 1 mv.toNat else s) ∧
     (k < 68 ∨ 72 ≤ k →
       (((s.dom k).st ≠ .ramp ∨ (s.dom k).stage < 4) → exec (.domainInitComplete n cal) s = .next s) ∧
       ((s.dom k).st = .ramp → 4 ≤ (s.dom k).stage →
         (bit s.fuses.badTrim k = true → exec (.domainInitComplete n cal) s =
           .next (s.failUnmeasured k).startHeld.bootStep) ∧
         (bit s.fuses.badTrim k = false → exec (.domainInitComplete n cal) s = .next (s.domainUp k)) ∧
         (bit s.fuses.badTrim k = false → k < 64 → (∀ j, (s.dom j).pend = false) → (s.dom k).offAtEdge = false →
           s.power.phase ≠ .boot → ∃ t, exec (.domainInitComplete n cal) s = .next t ∧ (t.dom k).st = .on ∧
             (∀ j, j ≠ k → t.dom j = s.dom j) ∧ t.threads = s.threads ∧ t.far = s.far))) ∧
     (68 ≤ k → k < 72 → (s.dom k).st = .ramp → 4 ≤ (s.dom k).stage → bit s.fuses.badTrim k = false →
       (cal.1.ok = true → cal.2.ok = true →
         ∃ s1 : State, exec (.domainInitComplete n cal) s = .next (s1.domainUp k) ∧
           (s1.creg .smfBcalH (k - 68) 0) = bcalWord cal.1 ∧ (s1.creg .smfBcalV (k - 68) 0) = bcalWord cal.2 ∧
           { s1 with regs := s.regs } = s) ∧
       ((cal.1.ok = false ∨ cal.2.ok = false) →
         ∃ s1 : State, exec (.domainInitComplete n cal) s = .next s1.startHeld.bootStep ∧
           { s1 with regs := (s.failUnmeasured k).regs } = s.failUnmeasured k)) ∧
     (∀ j : Fin 96,
       (((s.dom j.val).st = .on ∨ (s.dom j.val).st = .closing) →
         exec (.failsInService (.domain j)) s = .next (s.failUnmeasured j.val)) ∧
       ((s.dom j.val).st ≠ .on → (s.dom j.val).st ≠ .closing → exec (.failsInService (.domain j)) s = .next s)) ∧
     (∃ t, exec (.failsInService .pdm) s = .next t ∧ t.power = { s.power with failed := true } ∧ t.forwards = false ∧
       (∃ r : Report, (t.quad 0).reports = (s.quad 0).reports ++ [r] ∧ r.cls = 0x38 ∧ r.sev = 3 ∧ r.kind = 8) ∧
       t.doms = s.doms ∧ t.threads = s.threads ∧ t.tasks = s.tasks) ∧
     (let t := s.latchFailed k cause
      (t.dom k).st = .failed ∧ (t.dom k).cause = BitVec.ofNat 3 cause ∧ (t.dom k).pend = false ∧
      (t.dom k).since = s.ns) ∧
     (let q : Quad := BitVec.ofNat 2 (if k < 64 then k / 16 else if k < 76 then k % 4 else if k < 92 then (k - 76) / 2 % 4 else 0)
      domQuad k = q ∧
      ∃ r : Report, ((s.recordFail k cause stage volts).quad q).reports = (s.quad q).reports ++ [r] ∧ r.cls = 0x38 ∧
       r.kind = 8 ∧ r.index = BitVec.ofNat 12 k ∧
       r.sev = (if k = 94 then 1 else if k = 64 ∨ 92 ≤ k then 3 else 2))) ∧
  (∀ (s : State) (n : BitVec 7) (sp : Spire),
     let k := n.toNat
     let limit := (s.dom k).since + 1000 * (s.creg .pdmDrain 0 0).toNat
     (((s.dom k).st ≠ .closing ∨ s.drained k = false) → exec (.domainDrained n) s = .next s) ∧
     ((s.dom k).st = .closing → s.drained k = true →
       exec (.domainDrained n) s = .next ((s.finishOff k).raiseBicAll 0x072)) ∧
     (((s.dom k).st ≠ .closing ∨ s.ns < limit) → exec (.drainTimeout n) s = .next s) ∧
     ((s.dom k).st = .closing → limit ≤ s.ns →
       ∃ s1 : State, exec (.drainTimeout n) s = .next (s1.finishOff k) ∧
         ∃ r : Report, (s1.quad (domQuad k)).reports = ((s.cutStreams k).quad (domQuad k)).reports ++ [r] ∧ r.cls = 0x21 ∧ r.sev = 1 ∧
           r.kind = 8 ∧ r.index = BitVec.ofNat 12 k ∧ r.count = (s.enginesIn k).length + (s.dmasIn k).length) ∧
     (let idle := s.keep.duboette = true ∧ (s.dom sp.toNat).st = .on ∧ s.spireUsed sp = false ∧
        Store.get 0 s.power.used sp.toNat + 1000000 * (s.creg .pwrIdle 0 0).toNat ≤ s.ns
      (idle → exec (.spireIdleTimeout sp) s = .next (s.requestOff sp.toNat)) ∧
      (¬ idle → exec (.spireIdleTimeout sp) s = .next s)))

/-- RETAIN and the rails: the device enters RETAIN once it is quiet, with every powered domain RETAINED, every port
stopped and the regulators let go, unless a match came meanwhile; a match in RETAIN starts the wake, which restores
the domains and, unless PERST asked for a reset, the tick control; `VR_GOOD` lets the boot or the wake go on, and its
fall, like THERMTRIP, takes the device OFF with its cause; the fall of the always-on rails leaves what is fused,
flashed or outside (R450 to R453, R478, R520). -/
def Obligations.RetainAndRails : Prop :=
  ∀ (s : State),
    ((s.power.phase ≠ .entering ∨ s.quiet = false) → exec .retainEntry s = .next s) ∧
    (s.power.phase = .entering → s.quiet = true → s.power.match_ = false →
      (∀ n, n < 96 → (s.dom n).st ≠ .ramp) →
      ∃ t, exec .retainEntry s = .next t ∧ t.power.phase = .retain ∧ t.power.pwrReq = false ∧ t.power.sramMv = 600 ∧
        (∀ p, p < 8 → t.portState p = 0) ∧
        (∀ n, n < 96 → (t.dom n).st =
          (if (s.dom n).st = .on ∨ (s.dom n).st = .closing then .retained else (s.dom n).st)) ∧
        t.threads = s.threads ∧ t.cores = s.cores ∧ t.far = s.far) ∧
    exec .wakeAddressMatch s = .next (match s.power.phase with
      | .retain => { s with power := { s.power with
          phase := .wakeWait
          pwrReq := true
          match_ := false
          perstWake := false } }
      | .entering => { s with power := { s.power with match_ := true } }
      | _ => s) ∧
    (s.power.phase ≠ .waking → exec .wakeComplete s = .next s) ∧
    (s.power.phase = .waking → s.power.perstWake = false →
      ∃ t, exec .wakeComplete s = .next t ∧ t.power.phase = .on ∧ t.power.sramMv = 800 ∧
        (∀ n, n < 96 → (t.dom n).st = (if (s.dom n).st = .retained then .on else (s.dom n).st)) ∧
        t.creg .tickCtl 0 0 = s.power.savedCtl ∧ t.ct.running = s.power.savedCtl.getLsbD 0 ∧ t.ct.first = true ∧
        t.creg .pdmWakes 0 0 = BitVec.ofNat 32 (min 65535 ((s.creg .pdmWakes 0 0).toNat % 2 ^ 16 + 1)) ∧
        t.threads = s.threads ∧ t.cores = s.cores ∧ t.far = s.far) ∧
    ((s.power.phase = .dark ∨ s.power.pwrReq = false) → exec .vrGoodRise s = .next s) ∧
    (s.power.pwrReq = true →
      (s.power.phase = .bootWait → exec .vrGoodRise s = .next (({ s with power := { s.power with
        vrGood := true
        phase := .boot } } : State).rampAll [93])) ∧
      (s.power.phase = .wakeWait → exec .vrGoodRise s = .next { s with power := { s.power with
        vrGood := true
        phase := .waking } })) ∧
    (s.power.vrGood = false → exec .vrGoodFall s = .next s) ∧
    (let off := fun (c : Instr) (cause : Nat) => ∃ t, exec c s = .next t ∧ t.power.phase = .off ∧
       t.creg .pdmLastoff 0 0 = BitVec.ofNat 32 cause ∧ t.threads = [] ∧ t.cores = [] ∧ t.tasks = [] ∧
       (∀ n, n < 96 → (t.dom n).st = (if (s.dom n).st = .failed then .failed else .off) ∧
         (t.dom n).fails = (s.dom n).fails) ∧ t.fuses = s.fuses ∧ t.keep.flash = s.keep.flash ∧ t.pending = s.pending
     (s.power.vrGood = true → s.power.phase ≠ .off → s.power.phase ≠ .dark → off .vrGoodFall 1) ∧
     (s.power.phase ≠ .dark → off .thermtrip 2) ∧ (s.power.phase = .dark → exec .thermtrip s = .next s)) ∧
    ∃ t, exec .alwaysOnRailsFall s = .next t ∧ t.power.phase = .dark ∧ t.threads = [] ∧ t.regs = [] ∧ t.fuses = s.fuses ∧
      t.keep.flash = s.keep.flash ∧ t.toHost = s.toHost ∧ t.pending = s.pending

/-- The power loop: `PWR_CTL` takes a cap of 900 to 1,800 W, restarts the window and withdraws a step; a window that
ends shows the average and the hottest junction, is judged against the cap and the limit, and counts; at the lowest
clock an excess is flagged at once, over the cap with a record of class 0x39; the regulator's report lets a raised
clock apply (R454, R456, R457, R459). -/
def Obligations.PowerLoop : Prop :=
  ∀ (s : State) (ag : Agent) (v : Word) (watts : BitVec 11) (tj : BitVec 8),
    (s.gate ag (s.agentPriv ag) .pwrCtl 0 = .ok →
      let asked := v.toNat % 2 ^ 11
      ∃ t, exec (.pwrCtlWrite ag v) s = .next t ∧
        (t.creg .pwrCtl 0 0).toNat % 2 ^ 11 =
          (if 900 ≤ asked ∧ asked ≤ 1800 then asked else (s.creg .pwrCtl 0 0).toNat % 2 ^ 11) ∧
        (t.creg .pwrCtl 0 0).extractLsb' 16 11 = v.extractLsb' 16 11 ∧
        t.cclk = s.cclk ∧ t.cclkNext = s.cclk ∧
        t.power = { s.power with
          window := s.ns
          verdict := .none
          windows := 0 } ∧ { t with
          regs := s.regs
          power := s.power } = s) ∧
    (let ends := s.power.phase = .on ∧ s.power.window + 1000000 * (s.creg .pwrWin 0 0).toNat ≤ s.ns
     (¬ ends → exec (.powerWindowEnd watts tj) s = .next s) ∧
     (ends →
       let cap := (s.creg .pwrCtl 0 0).toNat % 2 ^ 11
       let limit := (s.creg .pwrTemp 0 0).toNat / 2 ^ 16 % 2 ^ 8
       let low := s.cclk ≤ s.floorClk
       let hard := cap < watts.toNat ∨ limit < tj.toNat
       ∃ t, exec (.powerWindowEnd watts tj) s = .next t ∧ t.creg .pwrMeas 0 0 = watts.setWidth 32 ∧
         (t.creg .pwrTemp 0 0).toNat % 2 ^ 8 = tj.toNat ∧ t.power.window = s.ns ∧
         t.power.windows = s.power.windows + 1 ∧
         (hard → ¬ low → t.power.verdict = .lower) ∧
         (hard → low → t.power.verdict = .none ∧ (t.creg .pwrStatus 0 0).getLsbD 4 = true) ∧
         (cap < watts.toNat → low → (t.creg .pwrStatus 0 0).getLsbD 2 = true ∧
           ∃ r ∈ (t.quad 0).reports, r.cls = 0x39 ∧ r.sev = 1 ∧ r.detail = watts.setWidth 64) ∧
         (watts.toNat ≤ cap → (t.creg .pwrStatus 0 0).getLsbD 2 = false ∧ t.quads = s.quads) ∧
         (limit < tj.toNat → low → (t.creg .pwrStatus 0 0).getLsbD 3 = true) ∧
         (tj.toNat ≤ limit → (t.creg .pwrStatus 0 0).getLsbD 3 = false) ∧
         t.cclk = s.cclk ∧ t.threads = s.threads ∧ t.cores = s.cores ∧ t.doms = s.doms)) ∧
    exec .avsComplete s = .next { s with power := { s.power with avs := none } }

/-- `DEBUG_UNLOCK`: every MODE answers the level now open and the attempts left. A password of 8 to 64 bytes that
matches the newest slot opens LIMITED, a wrong one uses an attempt, and none is taken once no attempt is left;
CHALLENGE delivers a nonce and the serial; a token that is right opens its level, and either way uses up the nonce;
CLOSE closes all; SETPW burns the next slot. A MODE or a length out of range answers BAD_PARAM with the offset (R493
to R496, R420). A token that the Keep takes has the magic number, this part's serial, a level, the nonce that waits
and a signature by the debug key; none is taken in END (R487, R495). -/
def Obligations.DebugAccess : Prop :=
  (∀ (s : State) (id : Nat) (c : Cmd) (hd : HostData), Serves s id 0x0B c →
     let mode := c.par 0 1
     let n := c.par 16 2
     let answered := fun (i : Instr) (status : Nat) (t : State) =>
       exec i s = .next (t.completeCmd id status (BitVec.ofNat 64 t.dbgLevel) (BitVec.ofNat 64 t.attempts) 0)
     (mode = 0 → answered (.debugStatus id) 0 s) ∧
     (5 < mode → exec (.debugStatus id) s = .next (s.failCmd id 0x03 0)) ∧
     (mode = 1 →
       ((n < 8 ∨ 64 < n) → exec (.debugPassword id hd) s = .next (s.failCmd id 0x03 16)) ∧
       (8 ≤ n → n ≤ 64 →
         (s.attempts = 0 → answered (.debugPassword id hd) 0x13 s) ∧
         (s.attempts ≠ 0 → s.cmdWindow c = false →
           (hd = none → exec (.debugPassword id hd) s = .next (s.hostAccess.failCmd id 0x04 (c.par 8 8))) ∧
           (∀ pw : List Byte, hd = some pw → pw.length = n →
             ∃ t, answered (.debugPassword id hd) (if s.passwordRight pw then 0 else 0x12) t ∧
               (s.passwordRight pw = true → t.dbgLevel = max 1 s.dbgLevel ∧ t.attempts = s.attempts) ∧
               (s.passwordRight pw = false → t.dbgLevel = s.dbgLevel ∧ t.attempts = s.attempts - 1) ∧
               { t with regs := s.hostAccess.regs } = s.hostAccess)))) ∧
     (mode = 2 → s.cmdWindow c = false →
       ∃ (t : State) (nonce : BitVec 256), answered (.debugChallenge id) 0 t ∧ t.keep = { s.keep with nonce := some nonce } ∧
         t.toHost = s.toHost ++ [.write c.fn (BitVec.ofNat 64 (c.par 8 8))
           (leBytes 32 nonce.toNat ++ leBytes 6 s.fuses.serial.toNat)] ∧
         t.dbgLevel = s.dbgLevel ∧ t.attempts = s.attempts) ∧
     (mode = 3 →
       (n ≠ 140 → exec (.debugToken id hd) s = .next (s.failCmd id 0x03 16)) ∧
       (n = 140 → s.cmdWindow c = false → ∀ tok : List Byte, hd = some tok → tok.length = 140 →
         ∃ t, answered (.debugToken id hd) (if s.tokenRight tok then 0 else 0x12) t ∧ t.keep.nonce = none ∧
           t.attempts = s.attempts ∧
           t.dbgLevel = (if s.tokenRight tok then max (leNat ((tok.drop 10).take 1)) s.dbgLevel else s.dbgLevel) ∧
           t.keep.rma = (s.keep.rma || (s.tokenRight tok && decide (leNat ((tok.drop 10).take 1) = 2) &&
             decide (leNat ((tok.drop 11).take 1) % 2 = 1))))) ∧
     (mode = 4 → ∃ t, answered (.debugClose id) 0 t ∧ t.dbgLevel = 0 ∧ t.attempts = s.attempts ∧ t.keep.nonce = none ∧
       t.keep.jtag = .idcode ∧ (t.creg .ocuCtl 0 0).getLsbD 0 = false ∧
       (∀ p, p < 8 → (t.creg .skbTfiCtl p 0).toNat % 4 = 0) ∧ t.cores = s.cores ∧ t.far = s.far ∧ t.doms = s.doms) ∧
     (mode = 5 →
       ((n < 8 ∨ 64 < n) → exec (.debugSetpw id hd) s = .next (s.failCmd id 0x03 16)) ∧
       (8 ≤ n → n ≤ 64 →
         (s.attempts = 0 → answered (.debugSetpw id hd) 0x13 s) ∧
         (s.attempts ≠ 0 → s.fuses.slots ≠ [] → s.dbgLevel = 0 → answered (.debugSetpw id hd) 0x12 s) ∧
         (s.attempts ≠ 0 → (s.fuses.slots = [] ∨ s.dbgLevel ≠ 0) → s.fuses.slots.length < 8 → s.cmdWindow c = false →
           ∀ pw : List Byte, hd = some pw → pw.length = n →
             ∃ (t : State) (salt : BitVec 128), answered (.debugSetpw id hd) 0 t ∧
               t.fuses = { s.fuses with
                 slots := s.fuses.slots ++ [(salt, Config.sha384 (leBytes 16 salt.toNat ++ pw))] } ∧
               (t.creg .keepDbg 0 0).extractLsb' 16 4 = BitVec.ofNat 4 (s.fuses.slots.length + 1) ∧
               t.dbgLevel = s.dbgLevel ∧ t.attempts = s.attempts)))) ∧
  (∀ (s : State) (tok : List Byte), s.tokenRight tok = true →
     leNat (tok.take 4) = 0x4E454B54 ∧ leNat ((tok.drop 4).take 6) = s.fuses.serial.toNat ∧
     (leNat ((tok.drop 10).take 1) = 1 ∨ leNat ((tok.drop 10).take 1) = 2) ∧
     (∃ nonce, s.keep.nonce = some nonce ∧ nonce = BitVec.ofNat 256 (leNat ((tok.drop 12).take 32))) ∧
     s.keep.lifecycle ≠ 3 ∧ s.fuses.badDebug = false ∧
     Config.ecdsaHashOk s.fuses.debugKey (tok.take 44) ((tok.drop 44).take 96) = true)

/-- Resets: what a reset leaves; a boot that fuse errors stop; END boots nothing; a boot takes the preferred slot
where it passes its checks, else the other, and with both rejected the device enters recovery (R445, R450, R478 to
R483, R490). The checks of a slot's image: one that passes has the magic number and a length in range, a key whose
hash a slot that is not revoked holds, an SVN that is not below the fused minimum, a signature and the body's digest
(R481, R482, R487). -/
def Obligations.ResetsAndBoot : Prop :=
  (∀ (s : State) (ag : Agent) (key : Word) (straps : BitVec 5) (flash : List SlotImage),
     (s.power.phase ≠ .dark → exec (.coldBoot straps flash) s = .next s) ∧
     (s.power.phase = .dark → ∃ t, exec (.coldBoot straps flash) s = .next t ∧ t.power.phase = .bootWait ∧
       t.power.pwrReq = true ∧ t.power.straps = straps ∧ t.threads = [] ∧ t.cores = [] ∧ t.doms = [] ∧ t.tasks = [] ∧
       t.fuses = s.fuses ∧ t.keep.flash = (if flash.isEmpty then s.keep.flash else flash) ∧
       t.creg .pdmLastoff 0 0 = s.power.lastOff.setWidth 32 ∧ t.attempts = 8 ∧ t.pending = s.pending) ∧
     (s.gate ag (s.agentPriv ag) .keepRst 0 = .ok →
       exec (.deviceReset ag key) s = .next (if key = 0x5EED then s.resetDevice else s)) ∧
     exec .perstNAssert s = .next (
       if s.mgrStrap = false then s
       else match s.power.phase with
         | .on | .boot => if s.domOpen 93 = true ∧ s.keep.stopped = false then s.resetDevice else s
         | .retain => { s with power := { s.power with
             phase := .wakeWait
             pwrReq := true
             match_ := false
             perstWake := true } }
         | .entering => { s with power := { s.power with
             match_ := true
             perstWake := true } }
         | .wakeWait | .waking => { s with power := { s.power with perstWake := true } }
         | _ => s) ∧
     (let t := s.clearDevice true
      t.threads = [] ∧ t.cores = [] ∧ t.spires = [] ∧ t.quads = [] ∧ t.flight = [] ∧ t.tasks = [] ∧ t.cmds = [] ∧
      t.rings = [] ∧ t.far = Mem.zeros ∧ t.hubQueue = [] ∧ t.fuses = s.fuses ∧ t.pending = s.pending ∧
      t.toHost = s.toHost ∧ ∀ n, n < 96 → (t.dom n).fails = (s.dom n).fails ∧
        (t.dom n).st = (if (s.dom n).st = .failed then .failed else if n = 93 then .on else .off)) ∧
     ((s.dom 93).st ≠ .failed →
       let t := s.resetDevice
       let first := (s.creg .keepCtl 0 0).getLsbD 0
       let passes := fun b => s.slotCheck (s.slotImage b) = 0
       (s.fuses.stop = true → t.keep.stopped = true ∧ t.faultSrc.getLsbD 5 = true ∧ t.threads = [] ∧
         t.fuses = s.fuses ∧ t.keep.flash = s.keep.flash ∧ (∀ n, n ≠ 93 → t.domOpen n = false) ∧
         (t.creg .keepBootstat 0 0).toNat / 2 ^ 16 % 2 ^ 8 =
           min 255 ((s.creg .keepBootstat 0 0).toNat / 2 ^ 16 % 2 ^ 8 + 1)) ∧
       (s.fuses.stop = false → s.mgrStrap = false → s.fuses.badRamp = 0 →
         (s.fuses.lifecycle = 3 → t.keep.booted = false ∧ t.power.phase = .on ∧ t.creg .keepLc 0 0 = 3 ∧ t.threads = []) ∧
         (s.fuses.lifecycle ≠ 3 →
           (¬ passes first → ¬ passes (! first) → t.keep.booted = false ∧ t.power.phase = .on ∧
             (t.creg .keepBootstat 0 0).getLsbD 7 = true ∧ t.faultSrc.getLsbD 4 = true) ∧
           (passes first → t.keep.booted = true ∧ t.keep.slot = first ∧ t.power.phase = .boot) ∧
           (¬ passes first → passes (! first) → t.keep.booted = true ∧ t.keep.slot = ! first ∧ t.power.phase = .boot) ∧
           t.keep.duboette = false ∧ t.threads = [])))) ∧
  (∀ (s : State) (im : SlotImage), s.slotCheck im = 0 ↔
     let len := leNat ((im.header.drop 12).take 4)
     let key := (im.header.drop 24).take 96
     leNat (im.header.take 4) = 0x5045454B ∧ im.header.length = 512 ∧ 4096 ≤ len ∧ len ≤ 67108352 ∧
     len ≤ im.body.length ∧
     (∃ k, k < 4 ∧ bit s.fuses.revoked k = false ∧ s.fuses.keys[k]? = some (Config.sha384 key)) ∧
     s.fuses.svn ≤ leNat ((im.header.drop 8).take 4) % 64 ∧
     Config.ecdsaOk key (im.header.take 120 ++ im.header.drop 216) ((im.header.drop 120).take 96) = true ∧
     BitVec.ofNat 384 (leNat ((im.header.drop 216).take 48)) = Config.sha384 (im.body.take len))

/-- SVN_COMMIT, the write of 1 to SVNCOMMIT, raises the fused SVN minimum to the booted SVN where COMMIT is set in the
booted header and the minimum is lower, and otherwise changes no fuse (R485). -/
def Obligations.SvnCommitRaisesMinimum : Prop :=
  ∀ (s : State) (ag : Agent),
    s.gate ag (s.agentPriv ag) .keepCtl 0 = .ok →
      let svn := leNat ((s.bootImage.header.drop 8).take 4)
      let commits := s.keep.booted = true ∧ svn / 2 ^ 8 % 2 = 1 ∧ s.fuses.svn < svn % 64
      ∃ t, exec (.svnCommit ag) s = .next t ∧
        (commits → t.fuses = { s.fuses with svn := svn % 64 } ∧ t.creg .keepSvn 0 0 = BitVec.ofNat 32 (svn % 64)) ∧
        (¬ commits → t.fuses = s.fuses ∧ t.creg .keepSvn 0 0 = s.creg .keepSvn 0 0) ∧
        { t with
          regs := s.regs
          fuses := s.fuses } = s

/-- `BFC_CTL`: HOLD holds cores and a released core starts at `BFC_ENTRY` in Machine; core 0 of Q0 is never held and
Q0's cluster never reset; a reset of another cluster writes its dirty bytes back, empties its caches and starts the
cores that are not held (R478, R500). The Keep's registers: PROG refuses the booted slot outside recovery, else erases
the slot, which then holds the mailbox's image, with the outcome in RES; `KEEP_LCREQ` burns the transitions that R491
allows and no other; `OCU_HALT` latches DEBUG in the thread while debug access is open; scan mode needs FULL and no
task (R486, R491, R492, R499). -/
def Obligations.KeepAndClusterCommands : Prop :=
  (∀ (s : State) (ag : Agent) (q : Quad) (v : Word), s.gate ag (s.agentPriv ag) .bfcCtl q.toNat = .ok →
     let old := s.creg .bfcCtl q.toNat 0
     let new : Word := v &&& (if q = 0 then 0xE else 0xF)
     let core := fun k : Nat => (q ++ BitVec.ofNat 2 k : BCore)
     let fresh := fun (hold : Bool) => { Belfry.reset with
       held := hold
       pc := if hold then 0 else s.bfcEntry q }
     let others := fun t : State => ∀ b : BCore, b.extractLsb' 2 2 ≠ q → t.bel b = s.bel b
     let holdWrite := fun c : Instr => ∃ t, exec c s = .next t ∧ t.creg .bfcCtl q.toNat 0 = new ∧ others t ∧
       (∀ k, k < 4 → t.bel (core k) =
         if new.getLsbD k = old.getLsbD k then s.bel (core k) else fresh (new.getLsbD k)) ∧
       { t with
         regs := s.regs
         belfry := s.belfry } = s
     ((v.getLsbD 8 = false ∨ q = 0) → holdWrite (.bfcHoldWrite ag q v)) ∧
     (q = 0 → holdWrite (.clusterReset ag q v)) ∧
     (q ≠ 0 → ∃ t, exec (.clusterReset ag q v) s = .next t ∧ t.creg .bfcCtl q.toNat 0 = new ∧ others t ∧
       (t.quad q).l2 = [] ∧ (∀ k, k < 4 → t.bel (core k) = fresh (new.getLsbD k)) ∧ t.threads = s.threads ∧
       t.doms = s.doms)) ∧
  (∀ (s : State) (ag : Agent) (v : Word),
     (s.gate ag (s.agentPriv ag) .keepMbctl 0 = .ok →
       let b := v.getLsbD 1
       let res := fun (t : State) => (t.creg .keepMbctl 0 0).extractLsb' 2 2
       (s.keep.progSlot ≠ none → exec (.flashProgram ag v) s = .next s) ∧
       (s.keep.progSlot = none → s.keep.booted = true → b = s.keep.slot →
         ∃ t, exec (.flashProgram ag v) s = .next t ∧ res t = 3 ∧ { t with regs := s.regs } = s) ∧
       (s.keep.progSlot = none → (s.keep.booted = false ∨ b ≠ s.keep.slot) →
         ∃ t, exec (.flashProgram ag v) s = .next t ∧ res t = 1 ∧ t.keep.progSlot = some b ∧
           t.slotImage b = { header := [], body := [] } ∧ t.slotImage (! b) = s.slotImage (! b) ∧
           { t with
             regs := s.regs
             keep := s.keep } = s)) ∧
     (s.keep.progSlot = none → exec .flashProgramDone s = .next s) ∧
     (∀ b, s.keep.progSlot = some b →
       let im : SlotImage :=
         { header := s.keep.upload.take 512
           body := (s.keep.upload.take 0x4000000).drop 512 }
       ∃ t, exec .flashProgramDone s = .next t ∧ t.slotImage b = im ∧ t.slotImage (! b) = s.slotImage (! b) ∧
         t.keep.progSlot = none ∧ (t.creg .keepMbctl 0 0).extractLsb' 2 2 = (if s.slotCheck im = 0 then 2 else 3) ∧
         { t with
           regs := s.regs
           keep := s.keep } = s) ∧
     (s.gate ag (s.agentPriv ag) .keepLcreq 0 = .ok →
       let old := s.fuses.lifecycle
       let target : BitVec 2 := v.setWidth 2
       let allowed := (old = 0 ∧ target = 1) ∨ (old = 1 ∧ target = 2 ∧ s.dbgLevel = 2 ∧ s.keep.rma = true) ∨
         ((old = 1 ∨ old = 2) ∧ target = 3 ∧ s.dbgLevel = 2)
       (allowed → exec (.lifecycleTransition ag v) s = .next { s with fuses := { s.fuses with lifecycle := target } }) ∧
       (¬ allowed → exec (.lifecycleTransition ag v) s = .next s)) ∧
     (s.gate ag (s.agentPriv ag) .ocuHalt 0 = .ok →
       let who : Tid :=
         { core := v.extractLsb' 2 11
           thread := v.setWidth 2 }
       let halts := s.dbgLevel ≠ 0 ∧ v.toNat / 2 ^ 13 % 4 = 0 ∧ s.domOpen (spireOf who.core).toNat = true
       (halts → exec (.ocuHaltWrite ag v) s = .next (s.latch who 30)) ∧
       (¬ halts → exec (.ocuHaltWrite ag v) s = .next s)) ∧
     ((s.dbgLevel = 2 ∧ s.tasks = []) →
       exec .scanModeEntry s = .next { s with keep := { s.keep with scan := true } }) ∧
     (¬ (s.dbgLevel = 2 ∧ s.tasks = []) → exec .scanModeEntry s = .next s))

/-- Attestation: the Keep answers the seven SPDM requests while it and the link are powered; END has no attestation;
measurement 4 is the fuse map's as sensed and 5 the lifecycle's, the debug level's and the booted slot's, and
GET_MEASUREMENTS answers one index, all of them for 0xFF or an error (R488 to R490). That index 0 answers no record,
only their number, and what END's error holds are the model's choice (log 96). The management bus answers a block read
of its own address with the count 4 and the register, `PDM_WAKES` clearing as it is read; in RETAIN it starts the wake
and acknowledges nothing; a bus timeout releases the bus. A port whose signal is lost goes DOWN unless it latched
FAILED. The host's L1 exit in RETAIN completes with the wake. Configuration requests answer Retry until the boot is
done, and there are sixteen functions. `HIF_LINK` shows what the link trained to (R403, R404, R452, R453, R479, R515).
What a read of configuration space returns is a free value. -/
def Obligations.AttestationBusesAndLinks : Prop :=
  (∀ (s : State) (off len : BitVec 16) (nonce : BitVec 256) (ix : BitVec 8),
     let answers := fun (c : Instr) (m : SpdmMsg) =>
       (s.domOpen 93 = true → s.domOpen 92 = true →
         exec c s = .next { s with keep := { s.keep with spdm := s.keep.spdm ++ [m] } }) ∧
       ((s.domOpen 93 = false ∨ s.domOpen 92 = false) → exec c s = .next s)
     let chain := Config.certChain s.keep.lifecycle
     answers .getVersion .version ∧ answers .getCapabilities .capabilities ∧
     answers .negotiateAlgorithms .algorithms ∧ answers .getDigests (.digests (Config.sha384 chain)) ∧
     (off.toNat < chain.length → answers (.getCertificate off len)
       (.certificate ((chain.drop off.toNat).take len.toNat) (chain.length - off.toNat - len.toNat))) ∧
     (chain.length ≤ off.toNat → answers (.getCertificate off len) .error) ∧
     (s.keep.lifecycle ≠ 3 → answers (.challenge nonce) (.challengeAuth nonce)) ∧
     (s.keep.lifecycle = 3 → answers (.challenge nonce) .error ∧ answers (.getMeasurements ix) .error) ∧
     (s.keep.lifecycle ≠ 3 →
       (ix = 0xFF → answers (.getMeasurements ix) (.measurements s.measurements)) ∧
       (ix = 0 → answers (.getMeasurements ix) (.measurements [])) ∧
       (1 ≤ ix.toNat → ix.toNat ≤ 5 → (s.keep.booted = true ∨ ix = 1 ∨ ix = 4 ∨ ix = 5) →
         ∃ d, answers (.getMeasurements ix) (.measurements [(ix.toNat, d)]) ∧
           (ix = 1 → d = Config.sha384 Config.keepRom) ∧ (ix = 2 → d = Config.sha384 s.bootImage.header) ∧
           (ix = 3 → d = Config.sha384 (s.bootImage.body.take (leNat ((s.bootImage.header.drop 12).take 4)))) ∧
           (ix = 4 → d = s.keep.fuseDigest) ∧
           (ix = 5 → d = Config.sha384 (leBytes 1 s.keep.lifecycle.toNat ++
             (leBytes 1 s.dbgLevel ++ leBytes 1 (b2n s.keep.slot))))) ∧
       (5 < ix.toNat → ix ≠ 0xFF → answers (.getMeasurements ix) .error))) ∧
  (∀ (s : State) (addr : BitVec 7) (ask : SmbusAsk) (p : Port) (fn : BitVec 8) (reg : BitVec 10) (wr : Option Word)
     (gen : LinkGen) (width : LinkWidth),
     let own := addr.toNat = 0x58 + s.power.straps.toNat % 8
     let code := ask.code
     let reads := fun (w : Word) => ∃ t, exec (.smbusBlockRead addr ask) s = .next t ∧
       t.smbus = s.smbus ++ [4#8 :: leBytes 4 w.toNat ++ (if ask.pec then [Config.smbusPec
         ([addr ++ 0#1, code, addr ++ 1#1, 4#8] ++ leBytes 4 w.toNat)] else [])] ∧ t.smbHeld = true ∧ t.power = s.power ∧
       (code ≠ 1 → t.regs = s.regs) ∧ (code = 1 → t.creg .pdmWakes 0 0 = 0)
     (¬ own → exec (.smbusBlockRead addr ask) s = .next s) ∧
     (own →
       (s.power.phase = .retain → exec (.smbusBlockRead addr ask) s = .next { s with power := { s.power with
         phase := .wakeWait
         pwrReq := true
         match_ := false
         perstWake := false } }) ∧
       ((s.power.phase = .dark ∨ s.power.phase = .wakeWait ∨ s.power.phase = .waking) →
         exec (.smbusBlockRead addr ask) s = .next s) ∧
       ((s.power.phase = .on ∨ s.power.phase = .off) →
         (code = 0 → reads (s.creg .pdmLastoff 0 0)) ∧ (code = 1 → reads (s.creg .pdmWakes 0 0))) ∧
       (s.power.phase = .on → (code = 2 → reads s.pwrStatus) ∧ (code = 3 → reads (s.creg .pwrTemp 0 0)) ∧
         (code = 4 → reads (s.creg .pwrMeas 0 0)) ∧ (code = 5 → reads (s.creg .keepBootstat 0 0)))) ∧
     exec .smbusBusTimeout s = .next { s with smbHeld := false } ∧
     (∃ t, exec (.linkSignalLoss p) s = .next t ∧
       t.portState p.toNat = (if s.portState p.toNat = 4 then 4 else 0) ∧ { t with regs := s.regs } = s ∧
       ∀ o : Port, o ≠ p → t.portState o.toNat = s.portState o.toNat) ∧
     exec .hostL1Exit s = .next (
       if s.power.phase = .retain ∨ s.power.phase = .wakeWait ∨ s.power.phase = .waking then
         { s with power := { s.power with l1Exit := true } }
       else s) ∧
     (let outputs := fun (o : HostOut) => exec (.configurationRequest fn reg wr) s =
         .next { s with toHost := s.toHost ++ [o] }
      (s.domOpen 92 = false → exec (.configurationRequest fn reg wr) s = .next s) ∧
      (s.domOpen 92 = true →
         (15 < fn.toNat → outputs .unsupported) ∧
         (fn.toNat ≤ 15 → s.configReady = false → outputs .retry) ∧
         (fn.toNat ≤ 15 → s.configReady = true → wr ≠ none → outputs .ok) ∧
         (fn.toNat ≤ 15 → s.configReady = true → wr = none → ∃ w : Word,
           exec (.configurationRequest fn reg wr) s = .next { s with
             free := s.free + 1
             toHost := s.toHost ++ [.data (leBytes 4 w.toNat)] }))) ∧
     (s.domOpen 92 = false → exec (.hostLinkTraining gen width) s = .next s) ∧
     (s.domOpen 92 = true → ∃ t, exec (.hostLinkTraining gen width) s = .next t ∧
       (t.creg .hifLink 0 0).extractLsb' 0 4 = (match gen with | .gen4 => 4 | .gen5 => 5 | .gen6 => 6) ∧
       (t.creg .hifLink 0 0).extractLsb' 4 5 = (match width with | .x4 => 4 | .x8 => 8 | .x16 => 16) ∧
       (t.creg .hifLink 0 0).getLsbD 16 = decide (gen = .gen6) ∧ { t with regs := s.regs } = s))

/-- The hub's queue: a report that merges with a queued record counts there, raises its severity and is marked
repeated; one that does not enters with the next SEQ and its tenant's error vector is sent, beside the PF's where it
is fatal to the device; in a full queue it is lost, `EH_OVF` counts and the newest record shows it (R466, R468, R470).
A suspect filter: a contribution that meets no entry passes and opens one where fewer than 64 are open, and passes
without one in a full filter; within the window of its entry it is held and counted; after the window the entry
closes, what it held passes first, and the contribution opens a fresh one (R469, R472, R473). Reports and windows: a
collector's oldest report goes to the hub, a suspect's through the quadrant's filter; an entry whose window has ended
closes and passes what it held, W for a quadrant's filter, 3 W for the group's and 5 W for the system's (R466, R469,
R472, R473). A report reaches the hub: what is fatal to a unit ends the tasks that use it, what is fatal to the device
sets its fault and ends every task; a worker queues the record and, with forwarding on, sends it to its manager; a
manager queues all but suspects, which pass the group's filter (R30, R465, R471, R472). Reading errors: `EH_POP`
removes the first record in service order, which has the highest severity and, among those, the lowest SEQ; a read of
`EH_REC0` latches its ten words for the reader; `COL_INJ_HI` with GO injects a report while debug access is open and
does nothing while it is closed (R467, R477). -/
def Obligations.ErrorHub : Prop :=
  (∀ (s : State) (r : Report) (fwd : Bool),
     let t := s.hubEnter r fwd
     let vector := fun k : BitVec 4 =>
       HostOut.msix k ((s.creg .partCfg k.toNat 0).extractLsb' 8 7)
     ((∀ h ∈ s.hubQueue, r.mergesWith h.rep = false) →
       (s.hubQueue.length < 256 → ∃ h : HubRec, t.hubQueue = s.hubQueue ++ [h] ∧ h.rep = r ∧ h.seq = s.hubSeq ∧
         h.rpt = decide (1 < r.count) ∧ h.overflow = false ∧ t.hubSeq = (s.hubSeq + 1) % 2 ^ 32 ∧
         t.toHost = s.toHost ++ [vector r.tenant] ++ (if r.sev = 3 ∧ r.tenant ≠ 0 then [vector 0] else [])) ∧
       (256 ≤ s.hubQueue.length → t.hubQueue.map (·.rep) = s.hubQueue.map (·.rep) ∧ t.hubSeq = s.hubSeq ∧
         t.creg .ehOvf 0 0 = satAdd (s.creg .ehOvf 0 0) r.count ∧ (t.creg .ehStat 0 0).getLsbD 16 = true ∧
         t.toHost = s.toHost ++ (if (s.creg .ehStat 0 0).getLsbD 16 then [] else [vector 0]))) ∧
     (∀ (pre : List HubRec) (h : HubRec) (post : List HubRec), s.hubQueue = pre ++ h :: post →
       (∀ x ∈ pre, r.mergesWith x.rep = false) → r.mergesWith h.rep = true →
         ∃ x : HubRec, t.hubQueue = pre ++ x :: post ∧ x.rpt = true ∧ x.seq = h.seq ∧ x.overflow = h.overflow ∧
           x.rep = { h.rep with
             count := min (h.rep.count + r.count) (2 ^ 32 - 1)
             last := max h.rep.last r.last
             poison := h.rep.poison || r.poison
             sev := if h.rep.sev < r.sev then r.sev else h.rep.sev } ∧
           t.hubSeq = s.hubSeq ∧ (¬ h.rep.sev < r.sev → t.toHost = s.toHost)) ∧
     t.threads = s.threads ∧ t.cores = s.cores ∧ t.far = s.far ∧ t.doms = s.doms ∧ t.tasks = s.tasks) ∧
  (∀ (es : List FiltEnt) (w : Nat) (r : Report),
     let f := filterTake es w r
     let opened : FiltEnt :=
       { rep := r
         pend := 0
         since := r.first
         last := r.last }
     ((∀ e ∈ es, e.rep.sameSuspect r = false) →
       f.out = [r] ∧ (es.length < 64 → f.ents = es ++ [opened] ∧ f.full = false) ∧
       (64 ≤ es.length → f.ents = es ∧ f.full = true)) ∧
     (∀ (pre : List FiltEnt) (e : FiltEnt) (post : List FiltEnt), es = pre ++ e :: post →
       (∀ x ∈ pre ++ post, x.rep.sameSuspect r = false) → e.rep.sameSuspect r = true →
         (r.first ≤ e.rep.first + w → f.out = [] ∧ f.full = false ∧ f.ents = pre ++ { e with
           rep := { e.rep with first := min e.rep.first r.first }
           pend := min (e.pend + r.count) (2 ^ 32 - 1)
           since := if e.pend = 0 then r.first else min e.since r.first
           last := max e.last r.last } :: post) ∧
         (e.rep.first + w < r.first →
           f.out = (if e.pend = 0 then [] else [{ e.rep with
             count := e.pend
             first := e.since
             last := e.last }]) ++ [r] ∧
           (es.length ≤ 64 → f.ents = pre ++ post ++ [opened] ∧ f.full = false)))) ∧
  (∀ (s : State) (q : Quad) (k : Nat),
     let w := 100000 * ((s.creg .ehWin 0 0).toNat % 2 ^ 14)
     let held := fun (e : FiltEnt) => { e.rep with
       count := e.pend
       first := e.since
       last := e.last }
     ((s.quad q).reports = [] → exec (.errorReport q) s = .next s) ∧
     (∀ (r : Report) (rest : List Report), (s.quad q).reports = r :: rest →
       let s1 := s.modQuad q fun x => { x with reports := rest }
       ((r.cls.toNat < 0x40 ∨ 0x43 < r.cls.toNat) → exec (.errorReport q) s = .next (s1.hubTake r)) ∧
       (0x40 ≤ r.cls.toNat → r.cls.toNat ≤ 0x43 →
         let f := filterTake (s.quad q).filter w r
         f.full = false → exec (.errorReport q) s =
           .next (f.out.foldl (fun s r => s.hubTake r) (s1.modQuad q fun x => { x with filter := f.ents })))) ∧
     ((s.quad q).filter[k]? = none → exec (.coalescingWindowEnd q k) s = .next s) ∧
     (∀ e, (s.quad q).filter[k]? = some e →
       (s.ns < e.rep.first + w → exec (.coalescingWindowEnd q k) s = .next s) ∧
       (e.rep.first + w ≤ s.ns →
         let s1 := s.modQuad q fun x => { x with filter := x.filter.eraseIdx k }
         exec (.coalescingWindowEnd q k) s = .next (if e.pend = 0 then s1 else s1.hubTake (held e)))) ∧
     (s.grpFilter[k]? = none → exec (.groupWindowEnd k) s = .next s) ∧
     (∀ e, s.grpFilter[k]? = some e →
       (s.ns < e.rep.first + 3 * w → exec (.groupWindowEnd k) s = .next s) ∧
       (e.rep.first + 3 * w ≤ s.ns →
         let s1 : State := { s with grpFilter := s.grpFilter.eraseIdx k }
         exec (.groupWindowEnd k) s = .next (if e.pend = 0 then s1 else
           s1.groupPassed (decide (e.rep.device ≠ s.devId)) (held e)))) ∧
     (s.sysFilter[k]? = none → exec (.systemWindowEnd k) s = .next s) ∧
     (∀ e, s.sysFilter[k]? = some e →
       (s.ns < e.rep.first + 5 * w → exec (.systemWindowEnd k) s = .next s) ∧
       (e.rep.first + 5 * w ≤ s.ns →
         let s1 : State := { s with sysFilter := s.sysFilter.eraseIdx k }
         exec (.systemWindowEnd k) s = .next (if e.pend = 0 then s1 else
           s1.hubEnter { held e with level := 2 } (decide (e.rep.device ≠ s.devId)))))) ∧
  (∀ (s : State) (r : Report),
     (r.device ≠ s.devId ∨ r.sev = 0 ∨ r.sev = 1 → s.fatal r = s) ∧
     (r.device = s.devId → r.sev = 2 → s.fatal r =
       s.endTasks (fun t => s.usesUnit t r.kind.toNat r.index.toNat || r.ofCluster t) 0x0F
         (some (r.index.toNat + 2 ^ 12 * r.kind.toNat))) ∧
     (r.device = s.devId → r.sev = 3 → s.fatal r =
       ({ s with
           devFault := true
           faultSrc := if (s.creg .ehCtl 0 0).getLsbD 2 then s.faultSrc ||| 8 else s.faultSrc } : State).endTasks
         (fun _ => true) 0x14 none) ∧
     (let t := s.fatal r
      (t.isManager = false →
        s.hubTake r = (if (t.creg .ehCtl 0 0).getLsbD 0 = true ∧
            (t.hubQueue.length < 256 ∨ ∃ h ∈ t.hubQueue, r.mergesWith h.rep = true) then
          (t.hubEnter r false).sendRecord (t.hubEnter r false).managerId r else t.hubEnter r false)) ∧
      (t.isManager = true → (r.cls.toNat < 0x40 ∨ 0x43 < r.cls.toNat) → s.hubTake r = t.hubEnter r false) ∧
      (t.isManager = true → 0x40 ≤ r.cls.toNat → r.cls.toNat ≤ 0x43 → s.hubTake r = t.groupTake false r))) ∧
  (∀ (s : State) (ag : Agent) (q : Quad) (v : Word),
     (s.hubQueue = [] → s.service = []) ∧
     (s.hubQueue ≠ [] → ∃ (h : HubRec) (rest : List HubRec), s.service = h :: rest ∧ h ∈ s.hubQueue ∧
       ∀ x ∈ s.hubQueue, x.rep.sev < h.rep.sev ∨ (x.rep.sev = h.rep.sev ∧ h.seq ≤ x.seq)) ∧
     (s.gate ag (s.agentPriv ag) .ehPop 0 = .ok →
       (s.service = [] → exec (.ehPop ag) s = .next s) ∧
       (∀ (h : HubRec) (rest : List HubRec), s.service = h :: rest → exec (.ehPop ag) s =
         .next { s with hubQueue := s.hubQueue.filter fun x => x.seq ≠ h.seq })) ∧
     (∃ t, exec (.ehRec0Read ag) s = .next t ∧ { t with hubLatch := s.hubLatch } = s ∧
       (t.hubLatch.find? fun p => p.1 = ag) = some (ag, s.recWords) ∧
       (∀ other, other ≠ ag → (t.hubLatch.find? fun p => p.1 = other) = s.hubLatch.find? fun p => p.1 = other)) ∧
     (s.gate ag (s.agentPriv ag) .colInjHi q.toNat = .ok →
       (s.dbgLevel = 0 → exec (.colInjGo ag q v) s = .next s) ∧
       (s.dbgLevel ≠ 0 → ∃ (t : State) (r : Report), exec (.colInjGo ag q v) s = .next t ∧
         (t.quad q).reports = (s.quad q).reports ++ [r] ∧ r.kind = v.extractLsb' 12 4 ∧ r.index = v.extractLsb' 0 12 ∧
         r.cls = v.extractLsb' 16 8 ∧ r.sev = v.extractLsb' 24 2 ∧
         r.detail = (s.creg .colInjLo q.toNat 0).setWidth 64 ∧ r.count = 1 ∧
         (∀ p, p ≠ q → t.quad p = s.quad p) ∧ t.threads = s.threads ∧ t.far = s.far)))
end

