-- ==== Sys2Proof/Laws/Store.lean ====
section
/-! SUPPORT. The laws of the keyed store and of the data spaces: reading after a write, and the canonical form. -/

namespace Sys2Proof.Machine

open Sys2Proof

variable {α : Type}

theorem Store.find?_put_same (st : Store α) (k : Nat) (v : α) : Store.find? (Store.put st k v) k = some v := by
  induction st with
  | nil => simp [Store.put, Store.find?]
  | cons e r ih =>
    obtain ⟨j, w⟩ := e
    simp only [Store.put]
    split
    · simp [Store.find?]
    · split
      · simp [Store.find?]
      · have : j ≠ k := by omega
        simpa [Store.find?, this] using ih

theorem Store.find?_put_other (st : Store α) {k j : Nat} (h : j ≠ k) (v : α) :
    Store.find? (Store.put st k v) j = Store.find? st j := by
  induction st with
  | nil => simp [Store.put, Store.find?, Ne.symm h]
  | cons e r ih =>
    obtain ⟨i, w⟩ := e
    simp only [Store.put]
    split
    · simp [Store.find?, Ne.symm h]
    · split
      · rename_i hk
        subst hk
        simp [Store.find?, Ne.symm h]
      · simp only [Store.find?]
        split
        · rfl
        · exact ih

theorem Store.find?_del_same (st : Store α) (k : Nat) : Store.find? (Store.del st k) k = none := by
  induction st with
  | nil => rfl
  | cons e r ih =>
    obtain ⟨j, w⟩ := e
    by_cases hj : j = k
    · simpa [Store.del, hj] using ih
    · simp only [Store.del, List.filter_cons, ne_eq, hj, not_false_eq_true, decide_true, ↓reduceIte, Store.find?]
      simpa [Store.del] using ih

theorem Store.find?_del_other (st : Store α) {k j : Nat} (h : j ≠ k) :
    Store.find? (Store.del st k) j = Store.find? st j := by
  induction st with
  | nil => rfl
  | cons e r ih =>
    obtain ⟨i, w⟩ := e
    by_cases hi : i = k
    · subst hi
      simp only [Store.del, List.filter_cons, ne_eq, not_true_eq_false, decide_false, Store.find?, Ne.symm h, ↓reduceIte]
      simpa [Store.del] using ih
    · simp only [Store.del, List.filter_cons, ne_eq, hi, not_false_eq_true, decide_true, ↓reduceIte, Store.find?]
      split
      · rfl
      · simpa [Store.del] using ih

/-- Reading a key that has just been set gives the value. -/
@[simp] theorem Store.get_set_same [DecidableEq α] (d : α) (st : Store α) (k : Nat) (v : α) :
    Store.get d (Store.set d st k v) k = v := by
  unfold Store.get Store.set
  split
  · rename_i h
    simp [Store.find?_del_same, h]
  · simp [Store.find?_put_same]

/-- Setting a key leaves every other key alone. -/
theorem Store.get_set_other [DecidableEq α] (d e : α) (st : Store α) {k j : Nat} (h : j ≠ k) (v : α) :
    Store.get e (Store.set d st k v) j = Store.get e st j := by
  unfold Store.get Store.set
  split
  · rw [Store.find?_del_other st h]
  · rw [Store.find?_put_other st h]

@[simp] theorem Store.get_nil (d : α) (k : Nat) : Store.get d [] k = d := rfl

/-! ### The canonical form -/

/-- Every key of a store is above a bound. -/
def Store.above (k : Nat) (st : Store α) : Prop := ∀ e ∈ st, k < e.1

theorem Store.rising_iff : ∀ st : Store α, Store.rising st = true ↔ st.Pairwise (fun a b => a.1 < b.1)
  | [] => by simp [Store.rising]
  | [e] => by simp [Store.rising]
  | (k, v) :: (j, w) :: r => by
    rw [Store.rising, Bool.and_eq_true, decide_eq_true_iff, Store.rising_iff ((j, w) :: r),
      List.pairwise_cons (a := (k, v))]
    constructor
    · rintro ⟨h, hp⟩
      refine ⟨?_, hp⟩
      intro e he
      rcases List.mem_cons.mp he with rfl | he
      · exact h
      · exact Nat.lt_trans h ((List.pairwise_cons.mp hp).1 e he)
    · rintro ⟨h, hp⟩
      exact ⟨h _ List.mem_cons_self, hp⟩

theorem Store.mem_put {st : Store α} {k : Nat} {v : α} {e : Nat × α} (h : e ∈ Store.put st k v) :
    e = (k, v) ∨ e ∈ st := by
  induction st with
  | nil => simpa [Store.put] using h
  | cons f r ih =>
    obtain ⟨j, w⟩ := f
    simp only [Store.put] at h
    split at h
    · simpa [List.mem_cons] using h
    · split at h
      · rcases List.mem_cons.mp h with h | h
        · exact .inl h
        · exact .inr (List.mem_cons_of_mem _ h)
      · rcases List.mem_cons.mp h with h | h
        · exact .inr (h ▸ List.mem_cons_self)
        · rcases ih h with h | h
          · exact .inl h
          · exact .inr (List.mem_cons_of_mem _ h)

/-- Listing a value keeps the keys rising. -/
theorem Store.rising_put {st : Store α} (h : Store.rising st = true) (k : Nat) (v : α) :
    Store.rising (Store.put st k v) = true := by
  rw [Store.rising_iff] at h ⊢
  induction st with
  | nil => simp [Store.put]
  | cons e r ih =>
    obtain ⟨j, w⟩ := e
    obtain ⟨hj, hr⟩ := List.pairwise_cons.mp h
    simp only [Store.put]
    split
    · rename_i hk
      refine List.pairwise_cons.mpr ⟨?_, h⟩
      intro e he
      rcases List.mem_cons.mp he with rfl | he
      · exact hk
      · exact Nat.lt_trans hk (hj e he)
    · split
      · rename_i hk
        subst hk
        exact List.pairwise_cons.mpr ⟨hj, hr⟩
      · refine List.pairwise_cons.mpr ⟨?_, ih hr⟩
        intro e he
        rcases Store.mem_put he with rfl | he
        · show j < k
          omega
        · exact hj e he

/-- Unlisting keys keeps the keys rising. -/
theorem Store.rising_filter {st : Store α} (h : Store.rising st = true) (p : Nat × α → Bool) :
    Store.rising (st.filter p) = true := by
  rw [Store.rising_iff] at h ⊢
  exact h.filter p

/-- Setting a key keeps the keys rising. -/
theorem Store.rising_set [DecidableEq α] {st : Store α} (h : Store.rising st = true) (d : α) (k : Nat) (v : α) :
    Store.rising (Store.set d st k v) = true := by
  unfold Store.set
  split
  · exact Store.rising_filter h _
  · exact Store.rising_put h k v

/-- The canonical form in one sentence: rising keys, and no default listed. -/
theorem Store.wf_iff [DecidableEq α] (d : Nat → α) :
    ∀ st : Store α, Store.wf d st = true ↔ Store.rising st = true ∧ ∀ e ∈ st, e.2 ≠ d e.1
  | [] => by simp [Store.wf, Store.rising]
  | [e] => by simp [Store.wf, Store.rising]
  | (k, v) :: (j, w) :: r => by
    rw [Store.wf, Bool.and_eq_true, Bool.and_eq_true, decide_eq_true_iff, decide_eq_true_iff,
      Store.wf_iff d ((j, w) :: r), Store.rising, Bool.and_eq_true, decide_eq_true_iff]
    constructor
    · rintro ⟨⟨h1, h2⟩, h3, h4⟩
      refine ⟨⟨h2, h3⟩, ?_⟩
      intro e he
      rcases List.mem_cons.mp he with rfl | he
      · exact h1
      · exact h4 e he
    · rintro ⟨⟨h2, h3⟩, h4⟩
      exact ⟨⟨h4 _ List.mem_cons_self, h2⟩, h3, fun e he => h4 e (List.mem_cons_of_mem _ he)⟩

/-- Setting a key to a value keeps the canonical form. -/
theorem Store.wf_set [DecidableEq α] {d : Nat → α} {st : Store α} (h : Store.wf d st = true) (k : Nat) (v : α) :
    Store.wf d (Store.set (d k) st k v) = true := by
  rw [Store.wf_iff] at h ⊢
  refine ⟨Store.rising_set h.1 _ _ _, ?_⟩
  intro e he
  unfold Store.set at he
  split at he
  · exact h.2 e (List.mem_filter.mp he).1
  · rename_i hv
    rcases Store.mem_put he with rfl | he
    · exact hv
    · exact h.2 e he

/-! ### The data spaces -/

/-- A byte just written reads back. -/
@[simp] theorem Mem.byte_setByte_same (m : Mem) (a : Nat) (b : Byte) : (m.setByte a b).byte a = b := by
  simp [Mem.byte, Mem.setByte]

/-- A write leaves every other byte alone. -/
theorem Mem.byte_setByte_other (m : Mem) {a a' : Nat} (h : a' ≠ a) (b : Byte) : (m.setByte a b).byte a' = m.byte a' := by
  simp [Mem.byte, Mem.setByte, Store.get_set_other _ _ _ h]

/-- Writing bytes leaves every byte outside them alone. -/
theorem Mem.byte_write_other (bs : List Byte) (m : Mem) (a a' : Nat) (h : a' < a ∨ a + bs.length ≤ a') :
    (m.write a bs).byte a' = m.byte a' := by
  induction bs generalizing m a with
  | nil => rfl
  | cons b r ih =>
    simp only [List.length_cons] at h
    rw [Mem.write, ih _ _ (by omega), Mem.byte_setByte_other m (by omega)]

/-- Written bytes read back. -/
theorem Mem.byte_write_at (bs : List Byte) (m : Mem) (a k : Nat) (h : k < bs.length) :
    (m.write a bs).byte (a + k) = bs[k] := by
  induction bs generalizing m a k with
  | nil => simp at h
  | cons b r ih =>
    rw [Mem.write]
    cases k with
    | zero => rw [Mem.byte_write_other _ _ _ _ (by omega)]; simp
    | succ k =>
      have := ih (m.setByte a b) (a + 1) k (by simpa using h)
      simpa [Nat.add_assoc, Nat.add_comm 1 k] using this

/-- Storing bytes leaves every byte outside them alone. -/
theorem Mem.byte_store_other (m : Mem) (a a' : Nat) (bs : List Byte) (h : a' < a ∨ a + bs.length ≤ a') :
    (m.store a bs).byte a' = m.byte a' := Mem.byte_write_other bs m a a' h

/-- Stored bytes read back. -/
theorem Mem.byte_store_at (m : Mem) (a k : Nat) (bs : List Byte) (h : k < bs.length) :
    (m.store a bs).byte (a + k) = bs[k] := Mem.byte_write_at bs m a k h

/-- The low bytes of a number read back as the number modulo their range. -/
theorem leNat_leBytes (n x : Nat) : leNat (leBytes n x) = x % 2 ^ (8 * n) := by
  induction n generalizing x with
  | zero => simp [leBytes, leNat, Nat.mod_one]
  | succ n ih =>
    simp only [leBytes, leNat, ih, BitVec.toNat_ofNat]
    have h : 8 * (n + 1) = 8 + 8 * n := by omega
    rw [h, Nat.pow_add, Nat.mod_mul]

theorem leBytes_length (n x : Nat) : (leBytes n x).length = n := by
  induction n generalizing x with
  | zero => rfl
  | succ n ih => simp [leBytes, ih]

/-- One byte written keeps the canonical form. -/
theorem Mem.wf_setByte {m : Mem} (h : m.wf = true) (a : Nat) (b : Byte) : (m.setByte a b).wf = true :=
  Store.wf_set h a b

/-- Bytes written keep the canonical form. -/
theorem Mem.wf_write {m : Mem} (h : m.wf = true) (a : Nat) (bs : List Byte) : (m.write a bs).wf = true := by
  induction bs generalizing m a with
  | nil => exact h
  | cons b r ih => exact ih (Mem.wf_setByte h a b) _

/-- Poisoning and curing words leave the bytes alone. -/
theorem Mem.wf_poisonWord {m : Mem} (h : m.wf = true) (a : Nat) : (m.poisonWord a).wf = true := h

theorem Mem.wf_cure {m : Mem} (h : m.wf = true) (a n : Nat) : (m.cure a n).wf = true := h

/-- A store keeps the canonical form. -/
theorem Mem.wf_store {m : Mem} (h : m.wf = true) (a : Nat) (bs : List Byte) : (m.store a bs).wf = true :=
  Mem.wf_cure (Mem.wf_write h a bs) _ _

theorem Mem.wf_storeNat {m : Mem} (h : m.wf = true) (a n x : Nat) : (m.storeNat a n x).wf = true :=
  Mem.wf_store h a _

theorem Mem.wf_zeros : Mem.zeros.wf = true := rfl

end Sys2Proof.Machine
end

