-- ==== Sys2Proof/Laws/State.lean ====
section
/-! SUPPORT. The updates of the state's records: what each leaves alone, field by field, and what a reader of a record
finds after an update. -/

namespace Sys2Proof.Machine

open Sys2Proof

/-! ### `setThread` -/

@[simp] theorem State.setThread_pending (s : State) (t : Tid) (x : Thread) : (s.setThread t x).pending = s.pending := rfl
@[simp] theorem State.setThread_now (s : State) (t : Tid) (x : Thread) : (s.setThread t x).now = s.now := rfl
@[simp] theorem State.setThread_ns (s : State) (t : Tid) (x : Thread) : (s.setThread t x).ns = s.ns := rfl
@[simp] theorem State.setThread_free (s : State) (t : Tid) (x : Thread) : (s.setThread t x).free = s.free := rfl
@[simp] theorem State.setThread_nextId (s : State) (t : Tid) (x : Thread) : (s.setThread t x).nextId = s.nextId := rfl
@[simp] theorem State.setThread_cores (s : State) (t : Tid) (x : Thread) : (s.setThread t x).cores = s.cores := rfl
@[simp] theorem State.setThread_spires (s : State) (t : Tid) (x : Thread) : (s.setThread t x).spires = s.spires := rfl
@[simp] theorem State.setThread_quads (s : State) (t : Tid) (x : Thread) : (s.setThread t x).quads = s.quads := rfl
@[simp] theorem State.setThread_regs (s : State) (t : Tid) (x : Thread) : (s.setThread t x).regs = s.regs := rfl
@[simp] theorem State.setThread_flight (s : State) (t : Tid) (x : Thread) : (s.setThread t x).flight = s.flight := rfl
@[simp] theorem State.setThread_cleared (s : State) (t : Tid) (x : Thread) : (s.setThread t x).cleared = s.cleared := rfl
@[simp] theorem State.setThread_douts (s : State) (t : Tid) (x : Thread) : (s.setThread t x).douts = s.douts := rfl
@[simp] theorem State.setThread_dcredits (s : State) (t : Tid) (x : Thread) : (s.setThread t x).dcredits = s.dcredits := rfl
@[simp] theorem State.setThread_links (s : State) (t : Tid) (x : Thread) : (s.setThread t x).links = s.links := rfl
@[simp] theorem State.setThread_far (s : State) (t : Tid) (x : Thread) : (s.setThread t x).far = s.far := rfl
@[simp] theorem State.setThread_ct (s : State) (t : Tid) (x : Thread) : (s.setThread t x).ct = s.ct := rfl
@[simp] theorem State.setThread_doms (s : State) (t : Tid) (x : Thread) : (s.setThread t x).doms = s.doms := rfl
@[simp] theorem State.setThread_belfry (s : State) (t : Tid) (x : Thread) : (s.setThread t x).belfry = s.belfry := rfl
@[simp] theorem State.setThread_faultSrc (s : State) (t : Tid) (x : Thread) : (s.setThread t x).faultSrc = s.faultSrc := rfl
@[simp] theorem State.setThread_hubQueue (s : State) (t : Tid) (x : Thread) : (s.setThread t x).hubQueue = s.hubQueue := rfl
@[simp] theorem State.setThread_toSkb (s : State) (t : Tid) (x : Thread) : (s.setThread t x).toSkb = s.toSkb := rfl
@[simp] theorem State.setThread_skbWaits (s : State) (t : Tid) (x : Thread) : (s.setThread t x).skbWaits = s.skbWaits := rfl
@[simp] theorem State.setThread_skbTag (s : State) (t : Tid) (x : Thread) : (s.setThread t x).skbTag = s.skbTag := rfl
@[simp] theorem State.setThread_ports (s : State) (t : Tid) (x : Thread) : (s.setThread t x).ports = s.ports := rfl
@[simp] theorem State.setThread_skbIn (s : State) (t : Tid) (x : Thread) : (s.setThread t x).skbIn = s.skbIn := rfl
@[simp] theorem State.setThread_colls (s : State) (t : Tid) (x : Thread) : (s.setThread t x).colls = s.colls := rfl
@[simp] theorem State.setThread_locked (s : State) (t : Tid) (x : Thread) : (s.setThread t x).locked = s.locked := rfl
@[simp] theorem State.setThread_heard (s : State) (t : Tid) (x : Thread) : (s.setThread t x).heard = s.heard := rfl
@[simp] theorem State.setThread_lostWorkers (s : State) (t : Tid) (x : Thread) : (s.setThread t x).lostWorkers = s.lostWorkers := rfl
@[simp] theorem State.setThread_hubSeq (s : State) (t : Tid) (x : Thread) : (s.setThread t x).hubSeq = s.hubSeq := rfl
@[simp] theorem State.setThread_grpFilter (s : State) (t : Tid) (x : Thread) : (s.setThread t x).grpFilter = s.grpFilter := rfl
@[simp] theorem State.setThread_sysFilter (s : State) (t : Tid) (x : Thread) : (s.setThread t x).sysFilter = s.sysFilter := rfl
@[simp] theorem State.setThread_hubLatch (s : State) (t : Tid) (x : Thread) : (s.setThread t x).hubLatch = s.hubLatch := rfl
@[simp] theorem State.setThread_lostTotal (s : State) (t : Tid) (x : Thread) : (s.setThread t x).lostTotal = s.lostTotal := rfl
@[simp] theorem State.setThread_devFault (s : State) (t : Tid) (x : Thread) : (s.setThread t x).devFault = s.devFault := rfl
@[simp] theorem State.setThread_power (s : State) (t : Tid) (x : Thread) : (s.setThread t x).power = s.power := rfl
@[simp] theorem State.setThread_fuses (s : State) (t : Tid) (x : Thread) : (s.setThread t x).fuses = s.fuses := rfl
@[simp] theorem State.setThread_keep (s : State) (t : Tid) (x : Thread) : (s.setThread t x).keep = s.keep := rfl
@[simp] theorem State.setThread_toHost (s : State) (t : Tid) (x : Thread) : (s.setThread t x).toHost = s.toHost := rfl
@[simp] theorem State.setThread_rings (s : State) (t : Tid) (x : Thread) : (s.setThread t x).rings = s.rings := rfl
@[simp] theorem State.setThread_cmds (s : State) (t : Tid) (x : Thread) : (s.setThread t x).cmds = s.cmds := rfl
@[simp] theorem State.setThread_tasks (s : State) (t : Tid) (x : Thread) : (s.setThread t x).tasks = s.tasks := rfl
@[simp] theorem State.setThread_smbus (s : State) (t : Tid) (x : Thread) : (s.setThread t x).smbus = s.smbus := rfl
@[simp] theorem State.setThread_smbHeld (s : State) (t : Tid) (x : Thread) : (s.setThread t x).smbHeld = s.smbHeld := rfl
@[simp] theorem State.setThread_tickOut (s : State) (t : Tid) (x : Thread) : (s.setThread t x).tickOut = s.tickOut := rfl
@[simp] theorem State.setThread_ocu (s : State) (t : Tid) (x : Thread) : (s.setThread t x).ocu = s.ocu := rfl
@[simp] theorem State.setThread_ocuLast (s : State) (t : Tid) (x : Thread) : (s.setThread t x).ocuLast = s.ocuLast := rfl
@[simp] theorem State.setThread_ocuFull (s : State) (t : Tid) (x : Thread) : (s.setThread t x).ocuFull = s.ocuFull := rfl
@[simp] theorem State.setThread_core (s : State) (t : Tid) (x : Thread) (c' : CoreId) : (s.setThread t x).core c' = s.core c' := rfl
@[simp] theorem State.setThread_spire (s : State) (t : Tid) (x : Thread) (sp' : Spire) : (s.setThread t x).spire sp' = s.spire sp' := rfl
@[simp] theorem State.setThread_quad (s : State) (t : Tid) (x : Thread) (q' : Quad) : (s.setThread t x).quad q' = s.quad q' := rfl
@[simp] theorem State.setThread_dom (s : State) (t : Tid) (x : Thread) (n' : Nat) : (s.setThread t x).dom n' = s.dom n' := rfl
@[simp] theorem State.setThread_bel (s : State) (t : Tid) (x : Thread) (b' : BCore) : (s.setThread t x).bel b' = s.bel b' := rfl
@[simp] theorem State.setThread_creg (s : State) (t : Tid) (x : Thread) (r' : CReg) (u' i' : Nat) : (s.setThread t x).creg r' u' i' = s.creg r' u' i' := rfl

/-! ### `modThread` -/

@[simp] theorem State.modThread_pending (s : State) (t : Tid) (f : Thread → Thread) : (s.modThread t f).pending = s.pending := rfl
@[simp] theorem State.modThread_now (s : State) (t : Tid) (f : Thread → Thread) : (s.modThread t f).now = s.now := rfl
@[simp] theorem State.modThread_ns (s : State) (t : Tid) (f : Thread → Thread) : (s.modThread t f).ns = s.ns := rfl
@[simp] theorem State.modThread_free (s : State) (t : Tid) (f : Thread → Thread) : (s.modThread t f).free = s.free := rfl
@[simp] theorem State.modThread_nextId (s : State) (t : Tid) (f : Thread → Thread) : (s.modThread t f).nextId = s.nextId := rfl
@[simp] theorem State.modThread_cores (s : State) (t : Tid) (f : Thread → Thread) : (s.modThread t f).cores = s.cores := rfl
@[simp] theorem State.modThread_spires (s : State) (t : Tid) (f : Thread → Thread) : (s.modThread t f).spires = s.spires := rfl
@[simp] theorem State.modThread_quads (s : State) (t : Tid) (f : Thread → Thread) : (s.modThread t f).quads = s.quads := rfl
@[simp] theorem State.modThread_regs (s : State) (t : Tid) (f : Thread → Thread) : (s.modThread t f).regs = s.regs := rfl
@[simp] theorem State.modThread_flight (s : State) (t : Tid) (f : Thread → Thread) : (s.modThread t f).flight = s.flight := rfl
@[simp] theorem State.modThread_cleared (s : State) (t : Tid) (f : Thread → Thread) : (s.modThread t f).cleared = s.cleared := rfl
@[simp] theorem State.modThread_douts (s : State) (t : Tid) (f : Thread → Thread) : (s.modThread t f).douts = s.douts := rfl
@[simp] theorem State.modThread_dcredits (s : State) (t : Tid) (f : Thread → Thread) : (s.modThread t f).dcredits = s.dcredits := rfl
@[simp] theorem State.modThread_links (s : State) (t : Tid) (f : Thread → Thread) : (s.modThread t f).links = s.links := rfl
@[simp] theorem State.modThread_far (s : State) (t : Tid) (f : Thread → Thread) : (s.modThread t f).far = s.far := rfl
@[simp] theorem State.modThread_ct (s : State) (t : Tid) (f : Thread → Thread) : (s.modThread t f).ct = s.ct := rfl
@[simp] theorem State.modThread_doms (s : State) (t : Tid) (f : Thread → Thread) : (s.modThread t f).doms = s.doms := rfl
@[simp] theorem State.modThread_belfry (s : State) (t : Tid) (f : Thread → Thread) : (s.modThread t f).belfry = s.belfry := rfl
@[simp] theorem State.modThread_faultSrc (s : State) (t : Tid) (f : Thread → Thread) : (s.modThread t f).faultSrc = s.faultSrc := rfl
@[simp] theorem State.modThread_hubQueue (s : State) (t : Tid) (f : Thread → Thread) : (s.modThread t f).hubQueue = s.hubQueue := rfl
@[simp] theorem State.modThread_toSkb (s : State) (t : Tid) (f : Thread → Thread) : (s.modThread t f).toSkb = s.toSkb := rfl
@[simp] theorem State.modThread_skbWaits (s : State) (t : Tid) (f : Thread → Thread) : (s.modThread t f).skbWaits = s.skbWaits := rfl
@[simp] theorem State.modThread_skbTag (s : State) (t : Tid) (f : Thread → Thread) : (s.modThread t f).skbTag = s.skbTag := rfl
@[simp] theorem State.modThread_ports (s : State) (t : Tid) (f : Thread → Thread) : (s.modThread t f).ports = s.ports := rfl
@[simp] theorem State.modThread_skbIn (s : State) (t : Tid) (f : Thread → Thread) : (s.modThread t f).skbIn = s.skbIn := rfl
@[simp] theorem State.modThread_colls (s : State) (t : Tid) (f : Thread → Thread) : (s.modThread t f).colls = s.colls := rfl
@[simp] theorem State.modThread_locked (s : State) (t : Tid) (f : Thread → Thread) : (s.modThread t f).locked = s.locked := rfl
@[simp] theorem State.modThread_heard (s : State) (t : Tid) (f : Thread → Thread) : (s.modThread t f).heard = s.heard := rfl
@[simp] theorem State.modThread_lostWorkers (s : State) (t : Tid) (f : Thread → Thread) : (s.modThread t f).lostWorkers = s.lostWorkers := rfl
@[simp] theorem State.modThread_hubSeq (s : State) (t : Tid) (f : Thread → Thread) : (s.modThread t f).hubSeq = s.hubSeq := rfl
@[simp] theorem State.modThread_grpFilter (s : State) (t : Tid) (f : Thread → Thread) : (s.modThread t f).grpFilter = s.grpFilter := rfl
@[simp] theorem State.modThread_sysFilter (s : State) (t : Tid) (f : Thread → Thread) : (s.modThread t f).sysFilter = s.sysFilter := rfl
@[simp] theorem State.modThread_hubLatch (s : State) (t : Tid) (f : Thread → Thread) : (s.modThread t f).hubLatch = s.hubLatch := rfl
@[simp] theorem State.modThread_lostTotal (s : State) (t : Tid) (f : Thread → Thread) : (s.modThread t f).lostTotal = s.lostTotal := rfl
@[simp] theorem State.modThread_devFault (s : State) (t : Tid) (f : Thread → Thread) : (s.modThread t f).devFault = s.devFault := rfl
@[simp] theorem State.modThread_power (s : State) (t : Tid) (f : Thread → Thread) : (s.modThread t f).power = s.power := rfl
@[simp] theorem State.modThread_fuses (s : State) (t : Tid) (f : Thread → Thread) : (s.modThread t f).fuses = s.fuses := rfl
@[simp] theorem State.modThread_keep (s : State) (t : Tid) (f : Thread → Thread) : (s.modThread t f).keep = s.keep := rfl
@[simp] theorem State.modThread_toHost (s : State) (t : Tid) (f : Thread → Thread) : (s.modThread t f).toHost = s.toHost := rfl
@[simp] theorem State.modThread_rings (s : State) (t : Tid) (f : Thread → Thread) : (s.modThread t f).rings = s.rings := rfl
@[simp] theorem State.modThread_cmds (s : State) (t : Tid) (f : Thread → Thread) : (s.modThread t f).cmds = s.cmds := rfl
@[simp] theorem State.modThread_tasks (s : State) (t : Tid) (f : Thread → Thread) : (s.modThread t f).tasks = s.tasks := rfl
@[simp] theorem State.modThread_smbus (s : State) (t : Tid) (f : Thread → Thread) : (s.modThread t f).smbus = s.smbus := rfl
@[simp] theorem State.modThread_smbHeld (s : State) (t : Tid) (f : Thread → Thread) : (s.modThread t f).smbHeld = s.smbHeld := rfl
@[simp] theorem State.modThread_tickOut (s : State) (t : Tid) (f : Thread → Thread) : (s.modThread t f).tickOut = s.tickOut := rfl
@[simp] theorem State.modThread_ocu (s : State) (t : Tid) (f : Thread → Thread) : (s.modThread t f).ocu = s.ocu := rfl
@[simp] theorem State.modThread_ocuLast (s : State) (t : Tid) (f : Thread → Thread) : (s.modThread t f).ocuLast = s.ocuLast := rfl
@[simp] theorem State.modThread_ocuFull (s : State) (t : Tid) (f : Thread → Thread) : (s.modThread t f).ocuFull = s.ocuFull := rfl
@[simp] theorem State.modThread_core (s : State) (t : Tid) (f : Thread → Thread) (c' : CoreId) : (s.modThread t f).core c' = s.core c' := rfl
@[simp] theorem State.modThread_spire (s : State) (t : Tid) (f : Thread → Thread) (sp' : Spire) : (s.modThread t f).spire sp' = s.spire sp' := rfl
@[simp] theorem State.modThread_quad (s : State) (t : Tid) (f : Thread → Thread) (q' : Quad) : (s.modThread t f).quad q' = s.quad q' := rfl
@[simp] theorem State.modThread_dom (s : State) (t : Tid) (f : Thread → Thread) (n' : Nat) : (s.modThread t f).dom n' = s.dom n' := rfl
@[simp] theorem State.modThread_bel (s : State) (t : Tid) (f : Thread → Thread) (b' : BCore) : (s.modThread t f).bel b' = s.bel b' := rfl
@[simp] theorem State.modThread_creg (s : State) (t : Tid) (f : Thread → Thread) (r' : CReg) (u' i' : Nat) : (s.modThread t f).creg r' u' i' = s.creg r' u' i' := rfl

/-! ### `setCore` -/

@[simp] theorem State.setCore_pending (s : State) (c : CoreId) (x : Core) : (s.setCore c x).pending = s.pending := rfl
@[simp] theorem State.setCore_now (s : State) (c : CoreId) (x : Core) : (s.setCore c x).now = s.now := rfl
@[simp] theorem State.setCore_ns (s : State) (c : CoreId) (x : Core) : (s.setCore c x).ns = s.ns := rfl
@[simp] theorem State.setCore_free (s : State) (c : CoreId) (x : Core) : (s.setCore c x).free = s.free := rfl
@[simp] theorem State.setCore_nextId (s : State) (c : CoreId) (x : Core) : (s.setCore c x).nextId = s.nextId := rfl
@[simp] theorem State.setCore_threads (s : State) (c : CoreId) (x : Core) : (s.setCore c x).threads = s.threads := rfl
@[simp] theorem State.setCore_spires (s : State) (c : CoreId) (x : Core) : (s.setCore c x).spires = s.spires := rfl
@[simp] theorem State.setCore_quads (s : State) (c : CoreId) (x : Core) : (s.setCore c x).quads = s.quads := rfl
@[simp] theorem State.setCore_regs (s : State) (c : CoreId) (x : Core) : (s.setCore c x).regs = s.regs := rfl
@[simp] theorem State.setCore_flight (s : State) (c : CoreId) (x : Core) : (s.setCore c x).flight = s.flight := rfl
@[simp] theorem State.setCore_cleared (s : State) (c : CoreId) (x : Core) : (s.setCore c x).cleared = s.cleared := rfl
@[simp] theorem State.setCore_douts (s : State) (c : CoreId) (x : Core) : (s.setCore c x).douts = s.douts := rfl
@[simp] theorem State.setCore_dcredits (s : State) (c : CoreId) (x : Core) : (s.setCore c x).dcredits = s.dcredits := rfl
@[simp] theorem State.setCore_links (s : State) (c : CoreId) (x : Core) : (s.setCore c x).links = s.links := rfl
@[simp] theorem State.setCore_far (s : State) (c : CoreId) (x : Core) : (s.setCore c x).far = s.far := rfl
@[simp] theorem State.setCore_ct (s : State) (c : CoreId) (x : Core) : (s.setCore c x).ct = s.ct := rfl
@[simp] theorem State.setCore_doms (s : State) (c : CoreId) (x : Core) : (s.setCore c x).doms = s.doms := rfl
@[simp] theorem State.setCore_belfry (s : State) (c : CoreId) (x : Core) : (s.setCore c x).belfry = s.belfry := rfl
@[simp] theorem State.setCore_faultSrc (s : State) (c : CoreId) (x : Core) : (s.setCore c x).faultSrc = s.faultSrc := rfl
@[simp] theorem State.setCore_hubQueue (s : State) (c : CoreId) (x : Core) : (s.setCore c x).hubQueue = s.hubQueue := rfl
@[simp] theorem State.setCore_toSkb (s : State) (c : CoreId) (x : Core) : (s.setCore c x).toSkb = s.toSkb := rfl
@[simp] theorem State.setCore_skbWaits (s : State) (c : CoreId) (x : Core) : (s.setCore c x).skbWaits = s.skbWaits := rfl
@[simp] theorem State.setCore_skbTag (s : State) (c : CoreId) (x : Core) : (s.setCore c x).skbTag = s.skbTag := rfl
@[simp] theorem State.setCore_ports (s : State) (c : CoreId) (x : Core) : (s.setCore c x).ports = s.ports := rfl
@[simp] theorem State.setCore_skbIn (s : State) (c : CoreId) (x : Core) : (s.setCore c x).skbIn = s.skbIn := rfl
@[simp] theorem State.setCore_colls (s : State) (c : CoreId) (x : Core) : (s.setCore c x).colls = s.colls := rfl
@[simp] theorem State.setCore_locked (s : State) (c : CoreId) (x : Core) : (s.setCore c x).locked = s.locked := rfl
@[simp] theorem State.setCore_heard (s : State) (c : CoreId) (x : Core) : (s.setCore c x).heard = s.heard := rfl
@[simp] theorem State.setCore_lostWorkers (s : State) (c : CoreId) (x : Core) : (s.setCore c x).lostWorkers = s.lostWorkers := rfl
@[simp] theorem State.setCore_hubSeq (s : State) (c : CoreId) (x : Core) : (s.setCore c x).hubSeq = s.hubSeq := rfl
@[simp] theorem State.setCore_grpFilter (s : State) (c : CoreId) (x : Core) : (s.setCore c x).grpFilter = s.grpFilter := rfl
@[simp] theorem State.setCore_sysFilter (s : State) (c : CoreId) (x : Core) : (s.setCore c x).sysFilter = s.sysFilter := rfl
@[simp] theorem State.setCore_hubLatch (s : State) (c : CoreId) (x : Core) : (s.setCore c x).hubLatch = s.hubLatch := rfl
@[simp] theorem State.setCore_lostTotal (s : State) (c : CoreId) (x : Core) : (s.setCore c x).lostTotal = s.lostTotal := rfl
@[simp] theorem State.setCore_devFault (s : State) (c : CoreId) (x : Core) : (s.setCore c x).devFault = s.devFault := rfl
@[simp] theorem State.setCore_power (s : State) (c : CoreId) (x : Core) : (s.setCore c x).power = s.power := rfl
@[simp] theorem State.setCore_fuses (s : State) (c : CoreId) (x : Core) : (s.setCore c x).fuses = s.fuses := rfl
@[simp] theorem State.setCore_keep (s : State) (c : CoreId) (x : Core) : (s.setCore c x).keep = s.keep := rfl
@[simp] theorem State.setCore_toHost (s : State) (c : CoreId) (x : Core) : (s.setCore c x).toHost = s.toHost := rfl
@[simp] theorem State.setCore_rings (s : State) (c : CoreId) (x : Core) : (s.setCore c x).rings = s.rings := rfl
@[simp] theorem State.setCore_cmds (s : State) (c : CoreId) (x : Core) : (s.setCore c x).cmds = s.cmds := rfl
@[simp] theorem State.setCore_tasks (s : State) (c : CoreId) (x : Core) : (s.setCore c x).tasks = s.tasks := rfl
@[simp] theorem State.setCore_smbus (s : State) (c : CoreId) (x : Core) : (s.setCore c x).smbus = s.smbus := rfl
@[simp] theorem State.setCore_smbHeld (s : State) (c : CoreId) (x : Core) : (s.setCore c x).smbHeld = s.smbHeld := rfl
@[simp] theorem State.setCore_tickOut (s : State) (c : CoreId) (x : Core) : (s.setCore c x).tickOut = s.tickOut := rfl
@[simp] theorem State.setCore_ocu (s : State) (c : CoreId) (x : Core) : (s.setCore c x).ocu = s.ocu := rfl
@[simp] theorem State.setCore_ocuLast (s : State) (c : CoreId) (x : Core) : (s.setCore c x).ocuLast = s.ocuLast := rfl
@[simp] theorem State.setCore_ocuFull (s : State) (c : CoreId) (x : Core) : (s.setCore c x).ocuFull = s.ocuFull := rfl
@[simp] theorem State.setCore_thread (s : State) (c : CoreId) (x : Core) (t' : Tid) : (s.setCore c x).thread t' = s.thread t' := rfl
@[simp] theorem State.setCore_spire (s : State) (c : CoreId) (x : Core) (sp' : Spire) : (s.setCore c x).spire sp' = s.spire sp' := rfl
@[simp] theorem State.setCore_quad (s : State) (c : CoreId) (x : Core) (q' : Quad) : (s.setCore c x).quad q' = s.quad q' := rfl
@[simp] theorem State.setCore_dom (s : State) (c : CoreId) (x : Core) (n' : Nat) : (s.setCore c x).dom n' = s.dom n' := rfl
@[simp] theorem State.setCore_bel (s : State) (c : CoreId) (x : Core) (b' : BCore) : (s.setCore c x).bel b' = s.bel b' := rfl
@[simp] theorem State.setCore_creg (s : State) (c : CoreId) (x : Core) (r' : CReg) (u' i' : Nat) : (s.setCore c x).creg r' u' i' = s.creg r' u' i' := rfl

/-! ### `modCore` -/

@[simp] theorem State.modCore_pending (s : State) (c : CoreId) (f : Core → Core) : (s.modCore c f).pending = s.pending := rfl
@[simp] theorem State.modCore_now (s : State) (c : CoreId) (f : Core → Core) : (s.modCore c f).now = s.now := rfl
@[simp] theorem State.modCore_ns (s : State) (c : CoreId) (f : Core → Core) : (s.modCore c f).ns = s.ns := rfl
@[simp] theorem State.modCore_free (s : State) (c : CoreId) (f : Core → Core) : (s.modCore c f).free = s.free := rfl
@[simp] theorem State.modCore_nextId (s : State) (c : CoreId) (f : Core → Core) : (s.modCore c f).nextId = s.nextId := rfl
@[simp] theorem State.modCore_threads (s : State) (c : CoreId) (f : Core → Core) : (s.modCore c f).threads = s.threads := rfl
@[simp] theorem State.modCore_spires (s : State) (c : CoreId) (f : Core → Core) : (s.modCore c f).spires = s.spires := rfl
@[simp] theorem State.modCore_quads (s : State) (c : CoreId) (f : Core → Core) : (s.modCore c f).quads = s.quads := rfl
@[simp] theorem State.modCore_regs (s : State) (c : CoreId) (f : Core → Core) : (s.modCore c f).regs = s.regs := rfl
@[simp] theorem State.modCore_flight (s : State) (c : CoreId) (f : Core → Core) : (s.modCore c f).flight = s.flight := rfl
@[simp] theorem State.modCore_cleared (s : State) (c : CoreId) (f : Core → Core) : (s.modCore c f).cleared = s.cleared := rfl
@[simp] theorem State.modCore_douts (s : State) (c : CoreId) (f : Core → Core) : (s.modCore c f).douts = s.douts := rfl
@[simp] theorem State.modCore_dcredits (s : State) (c : CoreId) (f : Core → Core) : (s.modCore c f).dcredits = s.dcredits := rfl
@[simp] theorem State.modCore_links (s : State) (c : CoreId) (f : Core → Core) : (s.modCore c f).links = s.links := rfl
@[simp] theorem State.modCore_far (s : State) (c : CoreId) (f : Core → Core) : (s.modCore c f).far = s.far := rfl
@[simp] theorem State.modCore_ct (s : State) (c : CoreId) (f : Core → Core) : (s.modCore c f).ct = s.ct := rfl
@[simp] theorem State.modCore_doms (s : State) (c : CoreId) (f : Core → Core) : (s.modCore c f).doms = s.doms := rfl
@[simp] theorem State.modCore_belfry (s : State) (c : CoreId) (f : Core → Core) : (s.modCore c f).belfry = s.belfry := rfl
@[simp] theorem State.modCore_faultSrc (s : State) (c : CoreId) (f : Core → Core) : (s.modCore c f).faultSrc = s.faultSrc := rfl
@[simp] theorem State.modCore_hubQueue (s : State) (c : CoreId) (f : Core → Core) : (s.modCore c f).hubQueue = s.hubQueue := rfl
@[simp] theorem State.modCore_toSkb (s : State) (c : CoreId) (f : Core → Core) : (s.modCore c f).toSkb = s.toSkb := rfl
@[simp] theorem State.modCore_skbWaits (s : State) (c : CoreId) (f : Core → Core) : (s.modCore c f).skbWaits = s.skbWaits := rfl
@[simp] theorem State.modCore_skbTag (s : State) (c : CoreId) (f : Core → Core) : (s.modCore c f).skbTag = s.skbTag := rfl
@[simp] theorem State.modCore_ports (s : State) (c : CoreId) (f : Core → Core) : (s.modCore c f).ports = s.ports := rfl
@[simp] theorem State.modCore_skbIn (s : State) (c : CoreId) (f : Core → Core) : (s.modCore c f).skbIn = s.skbIn := rfl
@[simp] theorem State.modCore_colls (s : State) (c : CoreId) (f : Core → Core) : (s.modCore c f).colls = s.colls := rfl
@[simp] theorem State.modCore_locked (s : State) (c : CoreId) (f : Core → Core) : (s.modCore c f).locked = s.locked := rfl
@[simp] theorem State.modCore_heard (s : State) (c : CoreId) (f : Core → Core) : (s.modCore c f).heard = s.heard := rfl
@[simp] theorem State.modCore_lostWorkers (s : State) (c : CoreId) (f : Core → Core) : (s.modCore c f).lostWorkers = s.lostWorkers := rfl
@[simp] theorem State.modCore_hubSeq (s : State) (c : CoreId) (f : Core → Core) : (s.modCore c f).hubSeq = s.hubSeq := rfl
@[simp] theorem State.modCore_grpFilter (s : State) (c : CoreId) (f : Core → Core) : (s.modCore c f).grpFilter = s.grpFilter := rfl
@[simp] theorem State.modCore_sysFilter (s : State) (c : CoreId) (f : Core → Core) : (s.modCore c f).sysFilter = s.sysFilter := rfl
@[simp] theorem State.modCore_hubLatch (s : State) (c : CoreId) (f : Core → Core) : (s.modCore c f).hubLatch = s.hubLatch := rfl
@[simp] theorem State.modCore_lostTotal (s : State) (c : CoreId) (f : Core → Core) : (s.modCore c f).lostTotal = s.lostTotal := rfl
@[simp] theorem State.modCore_devFault (s : State) (c : CoreId) (f : Core → Core) : (s.modCore c f).devFault = s.devFault := rfl
@[simp] theorem State.modCore_power (s : State) (c : CoreId) (f : Core → Core) : (s.modCore c f).power = s.power := rfl
@[simp] theorem State.modCore_fuses (s : State) (c : CoreId) (f : Core → Core) : (s.modCore c f).fuses = s.fuses := rfl
@[simp] theorem State.modCore_keep (s : State) (c : CoreId) (f : Core → Core) : (s.modCore c f).keep = s.keep := rfl
@[simp] theorem State.modCore_toHost (s : State) (c : CoreId) (f : Core → Core) : (s.modCore c f).toHost = s.toHost := rfl
@[simp] theorem State.modCore_rings (s : State) (c : CoreId) (f : Core → Core) : (s.modCore c f).rings = s.rings := rfl
@[simp] theorem State.modCore_cmds (s : State) (c : CoreId) (f : Core → Core) : (s.modCore c f).cmds = s.cmds := rfl
@[simp] theorem State.modCore_tasks (s : State) (c : CoreId) (f : Core → Core) : (s.modCore c f).tasks = s.tasks := rfl
@[simp] theorem State.modCore_smbus (s : State) (c : CoreId) (f : Core → Core) : (s.modCore c f).smbus = s.smbus := rfl
@[simp] theorem State.modCore_smbHeld (s : State) (c : CoreId) (f : Core → Core) : (s.modCore c f).smbHeld = s.smbHeld := rfl
@[simp] theorem State.modCore_tickOut (s : State) (c : CoreId) (f : Core → Core) : (s.modCore c f).tickOut = s.tickOut := rfl
@[simp] theorem State.modCore_ocu (s : State) (c : CoreId) (f : Core → Core) : (s.modCore c f).ocu = s.ocu := rfl
@[simp] theorem State.modCore_ocuLast (s : State) (c : CoreId) (f : Core → Core) : (s.modCore c f).ocuLast = s.ocuLast := rfl
@[simp] theorem State.modCore_ocuFull (s : State) (c : CoreId) (f : Core → Core) : (s.modCore c f).ocuFull = s.ocuFull := rfl
@[simp] theorem State.modCore_thread (s : State) (c : CoreId) (f : Core → Core) (t' : Tid) : (s.modCore c f).thread t' = s.thread t' := rfl
@[simp] theorem State.modCore_spire (s : State) (c : CoreId) (f : Core → Core) (sp' : Spire) : (s.modCore c f).spire sp' = s.spire sp' := rfl
@[simp] theorem State.modCore_quad (s : State) (c : CoreId) (f : Core → Core) (q' : Quad) : (s.modCore c f).quad q' = s.quad q' := rfl
@[simp] theorem State.modCore_dom (s : State) (c : CoreId) (f : Core → Core) (n' : Nat) : (s.modCore c f).dom n' = s.dom n' := rfl
@[simp] theorem State.modCore_bel (s : State) (c : CoreId) (f : Core → Core) (b' : BCore) : (s.modCore c f).bel b' = s.bel b' := rfl
@[simp] theorem State.modCore_creg (s : State) (c : CoreId) (f : Core → Core) (r' : CReg) (u' i' : Nat) : (s.modCore c f).creg r' u' i' = s.creg r' u' i' := rfl

/-! ### `modSpire` -/

@[simp] theorem State.modSpire_pending (s : State) (sp : Spire) (f : SpireSt → SpireSt) : (s.modSpire sp f).pending = s.pending := rfl
@[simp] theorem State.modSpire_now (s : State) (sp : Spire) (f : SpireSt → SpireSt) : (s.modSpire sp f).now = s.now := rfl
@[simp] theorem State.modSpire_ns (s : State) (sp : Spire) (f : SpireSt → SpireSt) : (s.modSpire sp f).ns = s.ns := rfl
@[simp] theorem State.modSpire_free (s : State) (sp : Spire) (f : SpireSt → SpireSt) : (s.modSpire sp f).free = s.free := rfl
@[simp] theorem State.modSpire_nextId (s : State) (sp : Spire) (f : SpireSt → SpireSt) : (s.modSpire sp f).nextId = s.nextId := rfl
@[simp] theorem State.modSpire_threads (s : State) (sp : Spire) (f : SpireSt → SpireSt) : (s.modSpire sp f).threads = s.threads := rfl
@[simp] theorem State.modSpire_cores (s : State) (sp : Spire) (f : SpireSt → SpireSt) : (s.modSpire sp f).cores = s.cores := rfl
@[simp] theorem State.modSpire_quads (s : State) (sp : Spire) (f : SpireSt → SpireSt) : (s.modSpire sp f).quads = s.quads := rfl
@[simp] theorem State.modSpire_regs (s : State) (sp : Spire) (f : SpireSt → SpireSt) : (s.modSpire sp f).regs = s.regs := rfl
@[simp] theorem State.modSpire_flight (s : State) (sp : Spire) (f : SpireSt → SpireSt) : (s.modSpire sp f).flight = s.flight := rfl
@[simp] theorem State.modSpire_cleared (s : State) (sp : Spire) (f : SpireSt → SpireSt) : (s.modSpire sp f).cleared = s.cleared := rfl
@[simp] theorem State.modSpire_douts (s : State) (sp : Spire) (f : SpireSt → SpireSt) : (s.modSpire sp f).douts = s.douts := rfl
@[simp] theorem State.modSpire_dcredits (s : State) (sp : Spire) (f : SpireSt → SpireSt) : (s.modSpire sp f).dcredits = s.dcredits := rfl
@[simp] theorem State.modSpire_links (s : State) (sp : Spire) (f : SpireSt → SpireSt) : (s.modSpire sp f).links = s.links := rfl
@[simp] theorem State.modSpire_far (s : State) (sp : Spire) (f : SpireSt → SpireSt) : (s.modSpire sp f).far = s.far := rfl
@[simp] theorem State.modSpire_ct (s : State) (sp : Spire) (f : SpireSt → SpireSt) : (s.modSpire sp f).ct = s.ct := rfl
@[simp] theorem State.modSpire_doms (s : State) (sp : Spire) (f : SpireSt → SpireSt) : (s.modSpire sp f).doms = s.doms := rfl
@[simp] theorem State.modSpire_belfry (s : State) (sp : Spire) (f : SpireSt → SpireSt) : (s.modSpire sp f).belfry = s.belfry := rfl
@[simp] theorem State.modSpire_faultSrc (s : State) (sp : Spire) (f : SpireSt → SpireSt) : (s.modSpire sp f).faultSrc = s.faultSrc := rfl
@[simp] theorem State.modSpire_hubQueue (s : State) (sp : Spire) (f : SpireSt → SpireSt) : (s.modSpire sp f).hubQueue = s.hubQueue := rfl
@[simp] theorem State.modSpire_toSkb (s : State) (sp : Spire) (f : SpireSt → SpireSt) : (s.modSpire sp f).toSkb = s.toSkb := rfl
@[simp] theorem State.modSpire_skbWaits (s : State) (sp : Spire) (f : SpireSt → SpireSt) : (s.modSpire sp f).skbWaits = s.skbWaits := rfl
@[simp] theorem State.modSpire_skbTag (s : State) (sp : Spire) (f : SpireSt → SpireSt) : (s.modSpire sp f).skbTag = s.skbTag := rfl
@[simp] theorem State.modSpire_ports (s : State) (sp : Spire) (f : SpireSt → SpireSt) : (s.modSpire sp f).ports = s.ports := rfl
@[simp] theorem State.modSpire_skbIn (s : State) (sp : Spire) (f : SpireSt → SpireSt) : (s.modSpire sp f).skbIn = s.skbIn := rfl
@[simp] theorem State.modSpire_colls (s : State) (sp : Spire) (f : SpireSt → SpireSt) : (s.modSpire sp f).colls = s.colls := rfl
@[simp] theorem State.modSpire_locked (s : State) (sp : Spire) (f : SpireSt → SpireSt) : (s.modSpire sp f).locked = s.locked := rfl
@[simp] theorem State.modSpire_heard (s : State) (sp : Spire) (f : SpireSt → SpireSt) : (s.modSpire sp f).heard = s.heard := rfl
@[simp] theorem State.modSpire_lostWorkers (s : State) (sp : Spire) (f : SpireSt → SpireSt) : (s.modSpire sp f).lostWorkers = s.lostWorkers := rfl
@[simp] theorem State.modSpire_hubSeq (s : State) (sp : Spire) (f : SpireSt → SpireSt) : (s.modSpire sp f).hubSeq = s.hubSeq := rfl
@[simp] theorem State.modSpire_grpFilter (s : State) (sp : Spire) (f : SpireSt → SpireSt) : (s.modSpire sp f).grpFilter = s.grpFilter := rfl
@[simp] theorem State.modSpire_sysFilter (s : State) (sp : Spire) (f : SpireSt → SpireSt) : (s.modSpire sp f).sysFilter = s.sysFilter := rfl
@[simp] theorem State.modSpire_hubLatch (s : State) (sp : Spire) (f : SpireSt → SpireSt) : (s.modSpire sp f).hubLatch = s.hubLatch := rfl
@[simp] theorem State.modSpire_lostTotal (s : State) (sp : Spire) (f : SpireSt → SpireSt) : (s.modSpire sp f).lostTotal = s.lostTotal := rfl
@[simp] theorem State.modSpire_devFault (s : State) (sp : Spire) (f : SpireSt → SpireSt) : (s.modSpire sp f).devFault = s.devFault := rfl
@[simp] theorem State.modSpire_power (s : State) (sp : Spire) (f : SpireSt → SpireSt) : (s.modSpire sp f).power = s.power := rfl
@[simp] theorem State.modSpire_fuses (s : State) (sp : Spire) (f : SpireSt → SpireSt) : (s.modSpire sp f).fuses = s.fuses := rfl
@[simp] theorem State.modSpire_keep (s : State) (sp : Spire) (f : SpireSt → SpireSt) : (s.modSpire sp f).keep = s.keep := rfl
@[simp] theorem State.modSpire_toHost (s : State) (sp : Spire) (f : SpireSt → SpireSt) : (s.modSpire sp f).toHost = s.toHost := rfl
@[simp] theorem State.modSpire_rings (s : State) (sp : Spire) (f : SpireSt → SpireSt) : (s.modSpire sp f).rings = s.rings := rfl
@[simp] theorem State.modSpire_cmds (s : State) (sp : Spire) (f : SpireSt → SpireSt) : (s.modSpire sp f).cmds = s.cmds := rfl
@[simp] theorem State.modSpire_tasks (s : State) (sp : Spire) (f : SpireSt → SpireSt) : (s.modSpire sp f).tasks = s.tasks := rfl
@[simp] theorem State.modSpire_smbus (s : State) (sp : Spire) (f : SpireSt → SpireSt) : (s.modSpire sp f).smbus = s.smbus := rfl
@[simp] theorem State.modSpire_smbHeld (s : State) (sp : Spire) (f : SpireSt → SpireSt) : (s.modSpire sp f).smbHeld = s.smbHeld := rfl
@[simp] theorem State.modSpire_tickOut (s : State) (sp : Spire) (f : SpireSt → SpireSt) : (s.modSpire sp f).tickOut = s.tickOut := rfl
@[simp] theorem State.modSpire_ocu (s : State) (sp : Spire) (f : SpireSt → SpireSt) : (s.modSpire sp f).ocu = s.ocu := rfl
@[simp] theorem State.modSpire_ocuLast (s : State) (sp : Spire) (f : SpireSt → SpireSt) : (s.modSpire sp f).ocuLast = s.ocuLast := rfl
@[simp] theorem State.modSpire_ocuFull (s : State) (sp : Spire) (f : SpireSt → SpireSt) : (s.modSpire sp f).ocuFull = s.ocuFull := rfl
@[simp] theorem State.modSpire_thread (s : State) (sp : Spire) (f : SpireSt → SpireSt) (t' : Tid) : (s.modSpire sp f).thread t' = s.thread t' := rfl
@[simp] theorem State.modSpire_core (s : State) (sp : Spire) (f : SpireSt → SpireSt) (c' : CoreId) : (s.modSpire sp f).core c' = s.core c' := rfl
@[simp] theorem State.modSpire_quad (s : State) (sp : Spire) (f : SpireSt → SpireSt) (q' : Quad) : (s.modSpire sp f).quad q' = s.quad q' := rfl
@[simp] theorem State.modSpire_dom (s : State) (sp : Spire) (f : SpireSt → SpireSt) (n' : Nat) : (s.modSpire sp f).dom n' = s.dom n' := rfl
@[simp] theorem State.modSpire_bel (s : State) (sp : Spire) (f : SpireSt → SpireSt) (b' : BCore) : (s.modSpire sp f).bel b' = s.bel b' := rfl
@[simp] theorem State.modSpire_creg (s : State) (sp : Spire) (f : SpireSt → SpireSt) (r' : CReg) (u' i' : Nat) : (s.modSpire sp f).creg r' u' i' = s.creg r' u' i' := rfl

/-! ### `modQuad` -/

@[simp] theorem State.modQuad_pending (s : State) (q : Quad) (f : QuadSt → QuadSt) : (s.modQuad q f).pending = s.pending := rfl
@[simp] theorem State.modQuad_now (s : State) (q : Quad) (f : QuadSt → QuadSt) : (s.modQuad q f).now = s.now := rfl
@[simp] theorem State.modQuad_ns (s : State) (q : Quad) (f : QuadSt → QuadSt) : (s.modQuad q f).ns = s.ns := rfl
@[simp] theorem State.modQuad_free (s : State) (q : Quad) (f : QuadSt → QuadSt) : (s.modQuad q f).free = s.free := rfl
@[simp] theorem State.modQuad_nextId (s : State) (q : Quad) (f : QuadSt → QuadSt) : (s.modQuad q f).nextId = s.nextId := rfl
@[simp] theorem State.modQuad_threads (s : State) (q : Quad) (f : QuadSt → QuadSt) : (s.modQuad q f).threads = s.threads := rfl
@[simp] theorem State.modQuad_cores (s : State) (q : Quad) (f : QuadSt → QuadSt) : (s.modQuad q f).cores = s.cores := rfl
@[simp] theorem State.modQuad_spires (s : State) (q : Quad) (f : QuadSt → QuadSt) : (s.modQuad q f).spires = s.spires := rfl
@[simp] theorem State.modQuad_regs (s : State) (q : Quad) (f : QuadSt → QuadSt) : (s.modQuad q f).regs = s.regs := rfl
@[simp] theorem State.modQuad_flight (s : State) (q : Quad) (f : QuadSt → QuadSt) : (s.modQuad q f).flight = s.flight := rfl
@[simp] theorem State.modQuad_cleared (s : State) (q : Quad) (f : QuadSt → QuadSt) : (s.modQuad q f).cleared = s.cleared := rfl
@[simp] theorem State.modQuad_douts (s : State) (q : Quad) (f : QuadSt → QuadSt) : (s.modQuad q f).douts = s.douts := rfl
@[simp] theorem State.modQuad_dcredits (s : State) (q : Quad) (f : QuadSt → QuadSt) : (s.modQuad q f).dcredits = s.dcredits := rfl
@[simp] theorem State.modQuad_links (s : State) (q : Quad) (f : QuadSt → QuadSt) : (s.modQuad q f).links = s.links := rfl
@[simp] theorem State.modQuad_far (s : State) (q : Quad) (f : QuadSt → QuadSt) : (s.modQuad q f).far = s.far := rfl
@[simp] theorem State.modQuad_ct (s : State) (q : Quad) (f : QuadSt → QuadSt) : (s.modQuad q f).ct = s.ct := rfl
@[simp] theorem State.modQuad_doms (s : State) (q : Quad) (f : QuadSt → QuadSt) : (s.modQuad q f).doms = s.doms := rfl
@[simp] theorem State.modQuad_belfry (s : State) (q : Quad) (f : QuadSt → QuadSt) : (s.modQuad q f).belfry = s.belfry := rfl
@[simp] theorem State.modQuad_faultSrc (s : State) (q : Quad) (f : QuadSt → QuadSt) : (s.modQuad q f).faultSrc = s.faultSrc := rfl
@[simp] theorem State.modQuad_hubQueue (s : State) (q : Quad) (f : QuadSt → QuadSt) : (s.modQuad q f).hubQueue = s.hubQueue := rfl
@[simp] theorem State.modQuad_toSkb (s : State) (q : Quad) (f : QuadSt → QuadSt) : (s.modQuad q f).toSkb = s.toSkb := rfl
@[simp] theorem State.modQuad_skbWaits (s : State) (q : Quad) (f : QuadSt → QuadSt) : (s.modQuad q f).skbWaits = s.skbWaits := rfl
@[simp] theorem State.modQuad_skbTag (s : State) (q : Quad) (f : QuadSt → QuadSt) : (s.modQuad q f).skbTag = s.skbTag := rfl
@[simp] theorem State.modQuad_ports (s : State) (q : Quad) (f : QuadSt → QuadSt) : (s.modQuad q f).ports = s.ports := rfl
@[simp] theorem State.modQuad_skbIn (s : State) (q : Quad) (f : QuadSt → QuadSt) : (s.modQuad q f).skbIn = s.skbIn := rfl
@[simp] theorem State.modQuad_colls (s : State) (q : Quad) (f : QuadSt → QuadSt) : (s.modQuad q f).colls = s.colls := rfl
@[simp] theorem State.modQuad_locked (s : State) (q : Quad) (f : QuadSt → QuadSt) : (s.modQuad q f).locked = s.locked := rfl
@[simp] theorem State.modQuad_heard (s : State) (q : Quad) (f : QuadSt → QuadSt) : (s.modQuad q f).heard = s.heard := rfl
@[simp] theorem State.modQuad_lostWorkers (s : State) (q : Quad) (f : QuadSt → QuadSt) : (s.modQuad q f).lostWorkers = s.lostWorkers := rfl
@[simp] theorem State.modQuad_hubSeq (s : State) (q : Quad) (f : QuadSt → QuadSt) : (s.modQuad q f).hubSeq = s.hubSeq := rfl
@[simp] theorem State.modQuad_grpFilter (s : State) (q : Quad) (f : QuadSt → QuadSt) : (s.modQuad q f).grpFilter = s.grpFilter := rfl
@[simp] theorem State.modQuad_sysFilter (s : State) (q : Quad) (f : QuadSt → QuadSt) : (s.modQuad q f).sysFilter = s.sysFilter := rfl
@[simp] theorem State.modQuad_hubLatch (s : State) (q : Quad) (f : QuadSt → QuadSt) : (s.modQuad q f).hubLatch = s.hubLatch := rfl
@[simp] theorem State.modQuad_lostTotal (s : State) (q : Quad) (f : QuadSt → QuadSt) : (s.modQuad q f).lostTotal = s.lostTotal := rfl
@[simp] theorem State.modQuad_devFault (s : State) (q : Quad) (f : QuadSt → QuadSt) : (s.modQuad q f).devFault = s.devFault := rfl
@[simp] theorem State.modQuad_power (s : State) (q : Quad) (f : QuadSt → QuadSt) : (s.modQuad q f).power = s.power := rfl
@[simp] theorem State.modQuad_fuses (s : State) (q : Quad) (f : QuadSt → QuadSt) : (s.modQuad q f).fuses = s.fuses := rfl
@[simp] theorem State.modQuad_keep (s : State) (q : Quad) (f : QuadSt → QuadSt) : (s.modQuad q f).keep = s.keep := rfl
@[simp] theorem State.modQuad_toHost (s : State) (q : Quad) (f : QuadSt → QuadSt) : (s.modQuad q f).toHost = s.toHost := rfl
@[simp] theorem State.modQuad_rings (s : State) (q : Quad) (f : QuadSt → QuadSt) : (s.modQuad q f).rings = s.rings := rfl
@[simp] theorem State.modQuad_cmds (s : State) (q : Quad) (f : QuadSt → QuadSt) : (s.modQuad q f).cmds = s.cmds := rfl
@[simp] theorem State.modQuad_tasks (s : State) (q : Quad) (f : QuadSt → QuadSt) : (s.modQuad q f).tasks = s.tasks := rfl
@[simp] theorem State.modQuad_smbus (s : State) (q : Quad) (f : QuadSt → QuadSt) : (s.modQuad q f).smbus = s.smbus := rfl
@[simp] theorem State.modQuad_smbHeld (s : State) (q : Quad) (f : QuadSt → QuadSt) : (s.modQuad q f).smbHeld = s.smbHeld := rfl
@[simp] theorem State.modQuad_tickOut (s : State) (q : Quad) (f : QuadSt → QuadSt) : (s.modQuad q f).tickOut = s.tickOut := rfl
@[simp] theorem State.modQuad_ocu (s : State) (q : Quad) (f : QuadSt → QuadSt) : (s.modQuad q f).ocu = s.ocu := rfl
@[simp] theorem State.modQuad_ocuLast (s : State) (q : Quad) (f : QuadSt → QuadSt) : (s.modQuad q f).ocuLast = s.ocuLast := rfl
@[simp] theorem State.modQuad_ocuFull (s : State) (q : Quad) (f : QuadSt → QuadSt) : (s.modQuad q f).ocuFull = s.ocuFull := rfl
@[simp] theorem State.modQuad_thread (s : State) (q : Quad) (f : QuadSt → QuadSt) (t' : Tid) : (s.modQuad q f).thread t' = s.thread t' := rfl
@[simp] theorem State.modQuad_core (s : State) (q : Quad) (f : QuadSt → QuadSt) (c' : CoreId) : (s.modQuad q f).core c' = s.core c' := rfl
@[simp] theorem State.modQuad_spire (s : State) (q : Quad) (f : QuadSt → QuadSt) (sp' : Spire) : (s.modQuad q f).spire sp' = s.spire sp' := rfl
@[simp] theorem State.modQuad_dom (s : State) (q : Quad) (f : QuadSt → QuadSt) (n' : Nat) : (s.modQuad q f).dom n' = s.dom n' := rfl
@[simp] theorem State.modQuad_bel (s : State) (q : Quad) (f : QuadSt → QuadSt) (b' : BCore) : (s.modQuad q f).bel b' = s.bel b' := rfl
@[simp] theorem State.modQuad_creg (s : State) (q : Quad) (f : QuadSt → QuadSt) (r' : CReg) (u' i' : Nat) : (s.modQuad q f).creg r' u' i' = s.creg r' u' i' := rfl

/-! ### `modDom` -/

@[simp] theorem State.modDom_pending (s : State) (n : Nat) (f : Dom → Dom) : (s.modDom n f).pending = s.pending := rfl
@[simp] theorem State.modDom_now (s : State) (n : Nat) (f : Dom → Dom) : (s.modDom n f).now = s.now := rfl
@[simp] theorem State.modDom_ns (s : State) (n : Nat) (f : Dom → Dom) : (s.modDom n f).ns = s.ns := rfl
@[simp] theorem State.modDom_free (s : State) (n : Nat) (f : Dom → Dom) : (s.modDom n f).free = s.free := rfl
@[simp] theorem State.modDom_nextId (s : State) (n : Nat) (f : Dom → Dom) : (s.modDom n f).nextId = s.nextId := rfl
@[simp] theorem State.modDom_threads (s : State) (n : Nat) (f : Dom → Dom) : (s.modDom n f).threads = s.threads := rfl
@[simp] theorem State.modDom_cores (s : State) (n : Nat) (f : Dom → Dom) : (s.modDom n f).cores = s.cores := rfl
@[simp] theorem State.modDom_spires (s : State) (n : Nat) (f : Dom → Dom) : (s.modDom n f).spires = s.spires := rfl
@[simp] theorem State.modDom_quads (s : State) (n : Nat) (f : Dom → Dom) : (s.modDom n f).quads = s.quads := rfl
@[simp] theorem State.modDom_regs (s : State) (n : Nat) (f : Dom → Dom) : (s.modDom n f).regs = s.regs := rfl
@[simp] theorem State.modDom_flight (s : State) (n : Nat) (f : Dom → Dom) : (s.modDom n f).flight = s.flight := rfl
@[simp] theorem State.modDom_cleared (s : State) (n : Nat) (f : Dom → Dom) : (s.modDom n f).cleared = s.cleared := rfl
@[simp] theorem State.modDom_douts (s : State) (n : Nat) (f : Dom → Dom) : (s.modDom n f).douts = s.douts := rfl
@[simp] theorem State.modDom_dcredits (s : State) (n : Nat) (f : Dom → Dom) : (s.modDom n f).dcredits = s.dcredits := rfl
@[simp] theorem State.modDom_links (s : State) (n : Nat) (f : Dom → Dom) : (s.modDom n f).links = s.links := rfl
@[simp] theorem State.modDom_far (s : State) (n : Nat) (f : Dom → Dom) : (s.modDom n f).far = s.far := rfl
@[simp] theorem State.modDom_ct (s : State) (n : Nat) (f : Dom → Dom) : (s.modDom n f).ct = s.ct := rfl
@[simp] theorem State.modDom_belfry (s : State) (n : Nat) (f : Dom → Dom) : (s.modDom n f).belfry = s.belfry := rfl
@[simp] theorem State.modDom_faultSrc (s : State) (n : Nat) (f : Dom → Dom) : (s.modDom n f).faultSrc = s.faultSrc := rfl
@[simp] theorem State.modDom_hubQueue (s : State) (n : Nat) (f : Dom → Dom) : (s.modDom n f).hubQueue = s.hubQueue := rfl
@[simp] theorem State.modDom_toSkb (s : State) (n : Nat) (f : Dom → Dom) : (s.modDom n f).toSkb = s.toSkb := rfl
@[simp] theorem State.modDom_skbWaits (s : State) (n : Nat) (f : Dom → Dom) : (s.modDom n f).skbWaits = s.skbWaits := rfl
@[simp] theorem State.modDom_skbTag (s : State) (n : Nat) (f : Dom → Dom) : (s.modDom n f).skbTag = s.skbTag := rfl
@[simp] theorem State.modDom_ports (s : State) (n : Nat) (f : Dom → Dom) : (s.modDom n f).ports = s.ports := rfl
@[simp] theorem State.modDom_skbIn (s : State) (n : Nat) (f : Dom → Dom) : (s.modDom n f).skbIn = s.skbIn := rfl
@[simp] theorem State.modDom_colls (s : State) (n : Nat) (f : Dom → Dom) : (s.modDom n f).colls = s.colls := rfl
@[simp] theorem State.modDom_locked (s : State) (n : Nat) (f : Dom → Dom) : (s.modDom n f).locked = s.locked := rfl
@[simp] theorem State.modDom_heard (s : State) (n : Nat) (f : Dom → Dom) : (s.modDom n f).heard = s.heard := rfl
@[simp] theorem State.modDom_lostWorkers (s : State) (n : Nat) (f : Dom → Dom) : (s.modDom n f).lostWorkers = s.lostWorkers := rfl
@[simp] theorem State.modDom_hubSeq (s : State) (n : Nat) (f : Dom → Dom) : (s.modDom n f).hubSeq = s.hubSeq := rfl
@[simp] theorem State.modDom_grpFilter (s : State) (n : Nat) (f : Dom → Dom) : (s.modDom n f).grpFilter = s.grpFilter := rfl
@[simp] theorem State.modDom_sysFilter (s : State) (n : Nat) (f : Dom → Dom) : (s.modDom n f).sysFilter = s.sysFilter := rfl
@[simp] theorem State.modDom_hubLatch (s : State) (n : Nat) (f : Dom → Dom) : (s.modDom n f).hubLatch = s.hubLatch := rfl
@[simp] theorem State.modDom_lostTotal (s : State) (n : Nat) (f : Dom → Dom) : (s.modDom n f).lostTotal = s.lostTotal := rfl
@[simp] theorem State.modDom_devFault (s : State) (n : Nat) (f : Dom → Dom) : (s.modDom n f).devFault = s.devFault := rfl
@[simp] theorem State.modDom_power (s : State) (n : Nat) (f : Dom → Dom) : (s.modDom n f).power = s.power := rfl
@[simp] theorem State.modDom_fuses (s : State) (n : Nat) (f : Dom → Dom) : (s.modDom n f).fuses = s.fuses := rfl
@[simp] theorem State.modDom_keep (s : State) (n : Nat) (f : Dom → Dom) : (s.modDom n f).keep = s.keep := rfl
@[simp] theorem State.modDom_toHost (s : State) (n : Nat) (f : Dom → Dom) : (s.modDom n f).toHost = s.toHost := rfl
@[simp] theorem State.modDom_rings (s : State) (n : Nat) (f : Dom → Dom) : (s.modDom n f).rings = s.rings := rfl
@[simp] theorem State.modDom_cmds (s : State) (n : Nat) (f : Dom → Dom) : (s.modDom n f).cmds = s.cmds := rfl
@[simp] theorem State.modDom_tasks (s : State) (n : Nat) (f : Dom → Dom) : (s.modDom n f).tasks = s.tasks := rfl
@[simp] theorem State.modDom_smbus (s : State) (n : Nat) (f : Dom → Dom) : (s.modDom n f).smbus = s.smbus := rfl
@[simp] theorem State.modDom_smbHeld (s : State) (n : Nat) (f : Dom → Dom) : (s.modDom n f).smbHeld = s.smbHeld := rfl
@[simp] theorem State.modDom_tickOut (s : State) (n : Nat) (f : Dom → Dom) : (s.modDom n f).tickOut = s.tickOut := rfl
@[simp] theorem State.modDom_ocu (s : State) (n : Nat) (f : Dom → Dom) : (s.modDom n f).ocu = s.ocu := rfl
@[simp] theorem State.modDom_ocuLast (s : State) (n : Nat) (f : Dom → Dom) : (s.modDom n f).ocuLast = s.ocuLast := rfl
@[simp] theorem State.modDom_ocuFull (s : State) (n : Nat) (f : Dom → Dom) : (s.modDom n f).ocuFull = s.ocuFull := rfl
@[simp] theorem State.modDom_thread (s : State) (n : Nat) (f : Dom → Dom) (t' : Tid) : (s.modDom n f).thread t' = s.thread t' := rfl
@[simp] theorem State.modDom_core (s : State) (n : Nat) (f : Dom → Dom) (c' : CoreId) : (s.modDom n f).core c' = s.core c' := rfl
@[simp] theorem State.modDom_spire (s : State) (n : Nat) (f : Dom → Dom) (sp' : Spire) : (s.modDom n f).spire sp' = s.spire sp' := rfl
@[simp] theorem State.modDom_quad (s : State) (n : Nat) (f : Dom → Dom) (q' : Quad) : (s.modDom n f).quad q' = s.quad q' := rfl
@[simp] theorem State.modDom_bel (s : State) (n : Nat) (f : Dom → Dom) (b' : BCore) : (s.modDom n f).bel b' = s.bel b' := rfl
@[simp] theorem State.modDom_creg (s : State) (n : Nat) (f : Dom → Dom) (r' : CReg) (u' i' : Nat) : (s.modDom n f).creg r' u' i' = s.creg r' u' i' := rfl

/-! ### `modBel` -/

@[simp] theorem State.modBel_pending (s : State) (b : BCore) (f : Belfry → Belfry) : (s.modBel b f).pending = s.pending := rfl
@[simp] theorem State.modBel_now (s : State) (b : BCore) (f : Belfry → Belfry) : (s.modBel b f).now = s.now := rfl
@[simp] theorem State.modBel_ns (s : State) (b : BCore) (f : Belfry → Belfry) : (s.modBel b f).ns = s.ns := rfl
@[simp] theorem State.modBel_free (s : State) (b : BCore) (f : Belfry → Belfry) : (s.modBel b f).free = s.free := rfl
@[simp] theorem State.modBel_nextId (s : State) (b : BCore) (f : Belfry → Belfry) : (s.modBel b f).nextId = s.nextId := rfl
@[simp] theorem State.modBel_threads (s : State) (b : BCore) (f : Belfry → Belfry) : (s.modBel b f).threads = s.threads := rfl
@[simp] theorem State.modBel_cores (s : State) (b : BCore) (f : Belfry → Belfry) : (s.modBel b f).cores = s.cores := rfl
@[simp] theorem State.modBel_spires (s : State) (b : BCore) (f : Belfry → Belfry) : (s.modBel b f).spires = s.spires := rfl
@[simp] theorem State.modBel_quads (s : State) (b : BCore) (f : Belfry → Belfry) : (s.modBel b f).quads = s.quads := rfl
@[simp] theorem State.modBel_regs (s : State) (b : BCore) (f : Belfry → Belfry) : (s.modBel b f).regs = s.regs := rfl
@[simp] theorem State.modBel_flight (s : State) (b : BCore) (f : Belfry → Belfry) : (s.modBel b f).flight = s.flight := rfl
@[simp] theorem State.modBel_cleared (s : State) (b : BCore) (f : Belfry → Belfry) : (s.modBel b f).cleared = s.cleared := rfl
@[simp] theorem State.modBel_douts (s : State) (b : BCore) (f : Belfry → Belfry) : (s.modBel b f).douts = s.douts := rfl
@[simp] theorem State.modBel_dcredits (s : State) (b : BCore) (f : Belfry → Belfry) : (s.modBel b f).dcredits = s.dcredits := rfl
@[simp] theorem State.modBel_links (s : State) (b : BCore) (f : Belfry → Belfry) : (s.modBel b f).links = s.links := rfl
@[simp] theorem State.modBel_far (s : State) (b : BCore) (f : Belfry → Belfry) : (s.modBel b f).far = s.far := rfl
@[simp] theorem State.modBel_ct (s : State) (b : BCore) (f : Belfry → Belfry) : (s.modBel b f).ct = s.ct := rfl
@[simp] theorem State.modBel_doms (s : State) (b : BCore) (f : Belfry → Belfry) : (s.modBel b f).doms = s.doms := rfl
@[simp] theorem State.modBel_faultSrc (s : State) (b : BCore) (f : Belfry → Belfry) : (s.modBel b f).faultSrc = s.faultSrc := rfl
@[simp] theorem State.modBel_hubQueue (s : State) (b : BCore) (f : Belfry → Belfry) : (s.modBel b f).hubQueue = s.hubQueue := rfl
@[simp] theorem State.modBel_toSkb (s : State) (b : BCore) (f : Belfry → Belfry) : (s.modBel b f).toSkb = s.toSkb := rfl
@[simp] theorem State.modBel_skbWaits (s : State) (b : BCore) (f : Belfry → Belfry) : (s.modBel b f).skbWaits = s.skbWaits := rfl
@[simp] theorem State.modBel_skbTag (s : State) (b : BCore) (f : Belfry → Belfry) : (s.modBel b f).skbTag = s.skbTag := rfl
@[simp] theorem State.modBel_ports (s : State) (b : BCore) (f : Belfry → Belfry) : (s.modBel b f).ports = s.ports := rfl
@[simp] theorem State.modBel_skbIn (s : State) (b : BCore) (f : Belfry → Belfry) : (s.modBel b f).skbIn = s.skbIn := rfl
@[simp] theorem State.modBel_colls (s : State) (b : BCore) (f : Belfry → Belfry) : (s.modBel b f).colls = s.colls := rfl
@[simp] theorem State.modBel_locked (s : State) (b : BCore) (f : Belfry → Belfry) : (s.modBel b f).locked = s.locked := rfl
@[simp] theorem State.modBel_heard (s : State) (b : BCore) (f : Belfry → Belfry) : (s.modBel b f).heard = s.heard := rfl
@[simp] theorem State.modBel_lostWorkers (s : State) (b : BCore) (f : Belfry → Belfry) : (s.modBel b f).lostWorkers = s.lostWorkers := rfl
@[simp] theorem State.modBel_hubSeq (s : State) (b : BCore) (f : Belfry → Belfry) : (s.modBel b f).hubSeq = s.hubSeq := rfl
@[simp] theorem State.modBel_grpFilter (s : State) (b : BCore) (f : Belfry → Belfry) : (s.modBel b f).grpFilter = s.grpFilter := rfl
@[simp] theorem State.modBel_sysFilter (s : State) (b : BCore) (f : Belfry → Belfry) : (s.modBel b f).sysFilter = s.sysFilter := rfl
@[simp] theorem State.modBel_hubLatch (s : State) (b : BCore) (f : Belfry → Belfry) : (s.modBel b f).hubLatch = s.hubLatch := rfl
@[simp] theorem State.modBel_lostTotal (s : State) (b : BCore) (f : Belfry → Belfry) : (s.modBel b f).lostTotal = s.lostTotal := rfl
@[simp] theorem State.modBel_devFault (s : State) (b : BCore) (f : Belfry → Belfry) : (s.modBel b f).devFault = s.devFault := rfl
@[simp] theorem State.modBel_power (s : State) (b : BCore) (f : Belfry → Belfry) : (s.modBel b f).power = s.power := rfl
@[simp] theorem State.modBel_fuses (s : State) (b : BCore) (f : Belfry → Belfry) : (s.modBel b f).fuses = s.fuses := rfl
@[simp] theorem State.modBel_keep (s : State) (b : BCore) (f : Belfry → Belfry) : (s.modBel b f).keep = s.keep := rfl
@[simp] theorem State.modBel_toHost (s : State) (b : BCore) (f : Belfry → Belfry) : (s.modBel b f).toHost = s.toHost := rfl
@[simp] theorem State.modBel_rings (s : State) (b : BCore) (f : Belfry → Belfry) : (s.modBel b f).rings = s.rings := rfl
@[simp] theorem State.modBel_cmds (s : State) (b : BCore) (f : Belfry → Belfry) : (s.modBel b f).cmds = s.cmds := rfl
@[simp] theorem State.modBel_tasks (s : State) (b : BCore) (f : Belfry → Belfry) : (s.modBel b f).tasks = s.tasks := rfl
@[simp] theorem State.modBel_smbus (s : State) (b : BCore) (f : Belfry → Belfry) : (s.modBel b f).smbus = s.smbus := rfl
@[simp] theorem State.modBel_smbHeld (s : State) (b : BCore) (f : Belfry → Belfry) : (s.modBel b f).smbHeld = s.smbHeld := rfl
@[simp] theorem State.modBel_tickOut (s : State) (b : BCore) (f : Belfry → Belfry) : (s.modBel b f).tickOut = s.tickOut := rfl
@[simp] theorem State.modBel_ocu (s : State) (b : BCore) (f : Belfry → Belfry) : (s.modBel b f).ocu = s.ocu := rfl
@[simp] theorem State.modBel_ocuLast (s : State) (b : BCore) (f : Belfry → Belfry) : (s.modBel b f).ocuLast = s.ocuLast := rfl
@[simp] theorem State.modBel_ocuFull (s : State) (b : BCore) (f : Belfry → Belfry) : (s.modBel b f).ocuFull = s.ocuFull := rfl
@[simp] theorem State.modBel_thread (s : State) (b : BCore) (f : Belfry → Belfry) (t' : Tid) : (s.modBel b f).thread t' = s.thread t' := rfl
@[simp] theorem State.modBel_core (s : State) (b : BCore) (f : Belfry → Belfry) (c' : CoreId) : (s.modBel b f).core c' = s.core c' := rfl
@[simp] theorem State.modBel_spire (s : State) (b : BCore) (f : Belfry → Belfry) (sp' : Spire) : (s.modBel b f).spire sp' = s.spire sp' := rfl
@[simp] theorem State.modBel_quad (s : State) (b : BCore) (f : Belfry → Belfry) (q' : Quad) : (s.modBel b f).quad q' = s.quad q' := rfl
@[simp] theorem State.modBel_dom (s : State) (b : BCore) (f : Belfry → Belfry) (n' : Nat) : (s.modBel b f).dom n' = s.dom n' := rfl
@[simp] theorem State.modBel_creg (s : State) (b : BCore) (f : Belfry → Belfry) (r' : CReg) (u' i' : Nat) : (s.modBel b f).creg r' u' i' = s.creg r' u' i' := rfl

/-! ### `setCreg` -/

@[simp] theorem State.setCreg_pending (s : State) (r : CReg) (u i : Nat) (v : Word) : (s.setCreg r u i v).pending = s.pending := rfl
@[simp] theorem State.setCreg_now (s : State) (r : CReg) (u i : Nat) (v : Word) : (s.setCreg r u i v).now = s.now := rfl
@[simp] theorem State.setCreg_ns (s : State) (r : CReg) (u i : Nat) (v : Word) : (s.setCreg r u i v).ns = s.ns := rfl
@[simp] theorem State.setCreg_free (s : State) (r : CReg) (u i : Nat) (v : Word) : (s.setCreg r u i v).free = s.free := rfl
@[simp] theorem State.setCreg_nextId (s : State) (r : CReg) (u i : Nat) (v : Word) : (s.setCreg r u i v).nextId = s.nextId := rfl
@[simp] theorem State.setCreg_threads (s : State) (r : CReg) (u i : Nat) (v : Word) : (s.setCreg r u i v).threads = s.threads := rfl
@[simp] theorem State.setCreg_cores (s : State) (r : CReg) (u i : Nat) (v : Word) : (s.setCreg r u i v).cores = s.cores := rfl
@[simp] theorem State.setCreg_spires (s : State) (r : CReg) (u i : Nat) (v : Word) : (s.setCreg r u i v).spires = s.spires := rfl
@[simp] theorem State.setCreg_quads (s : State) (r : CReg) (u i : Nat) (v : Word) : (s.setCreg r u i v).quads = s.quads := rfl
@[simp] theorem State.setCreg_flight (s : State) (r : CReg) (u i : Nat) (v : Word) : (s.setCreg r u i v).flight = s.flight := rfl
@[simp] theorem State.setCreg_cleared (s : State) (r : CReg) (u i : Nat) (v : Word) : (s.setCreg r u i v).cleared = s.cleared := rfl
@[simp] theorem State.setCreg_douts (s : State) (r : CReg) (u i : Nat) (v : Word) : (s.setCreg r u i v).douts = s.douts := rfl
@[simp] theorem State.setCreg_dcredits (s : State) (r : CReg) (u i : Nat) (v : Word) : (s.setCreg r u i v).dcredits = s.dcredits := rfl
@[simp] theorem State.setCreg_links (s : State) (r : CReg) (u i : Nat) (v : Word) : (s.setCreg r u i v).links = s.links := rfl
@[simp] theorem State.setCreg_far (s : State) (r : CReg) (u i : Nat) (v : Word) : (s.setCreg r u i v).far = s.far := rfl
@[simp] theorem State.setCreg_ct (s : State) (r : CReg) (u i : Nat) (v : Word) : (s.setCreg r u i v).ct = s.ct := rfl
@[simp] theorem State.setCreg_doms (s : State) (r : CReg) (u i : Nat) (v : Word) : (s.setCreg r u i v).doms = s.doms := rfl
@[simp] theorem State.setCreg_belfry (s : State) (r : CReg) (u i : Nat) (v : Word) : (s.setCreg r u i v).belfry = s.belfry := rfl
@[simp] theorem State.setCreg_faultSrc (s : State) (r : CReg) (u i : Nat) (v : Word) : (s.setCreg r u i v).faultSrc = s.faultSrc := rfl
@[simp] theorem State.setCreg_hubQueue (s : State) (r : CReg) (u i : Nat) (v : Word) : (s.setCreg r u i v).hubQueue = s.hubQueue := rfl
@[simp] theorem State.setCreg_toSkb (s : State) (r : CReg) (u i : Nat) (v : Word) : (s.setCreg r u i v).toSkb = s.toSkb := rfl
@[simp] theorem State.setCreg_skbWaits (s : State) (r : CReg) (u i : Nat) (v : Word) : (s.setCreg r u i v).skbWaits = s.skbWaits := rfl
@[simp] theorem State.setCreg_skbTag (s : State) (r : CReg) (u i : Nat) (v : Word) : (s.setCreg r u i v).skbTag = s.skbTag := rfl
@[simp] theorem State.setCreg_ports (s : State) (r : CReg) (u i : Nat) (v : Word) : (s.setCreg r u i v).ports = s.ports := rfl
@[simp] theorem State.setCreg_skbIn (s : State) (r : CReg) (u i : Nat) (v : Word) : (s.setCreg r u i v).skbIn = s.skbIn := rfl
@[simp] theorem State.setCreg_colls (s : State) (r : CReg) (u i : Nat) (v : Word) : (s.setCreg r u i v).colls = s.colls := rfl
@[simp] theorem State.setCreg_locked (s : State) (r : CReg) (u i : Nat) (v : Word) : (s.setCreg r u i v).locked = s.locked := rfl
@[simp] theorem State.setCreg_heard (s : State) (r : CReg) (u i : Nat) (v : Word) : (s.setCreg r u i v).heard = s.heard := rfl
@[simp] theorem State.setCreg_lostWorkers (s : State) (r : CReg) (u i : Nat) (v : Word) : (s.setCreg r u i v).lostWorkers = s.lostWorkers := rfl
@[simp] theorem State.setCreg_hubSeq (s : State) (r : CReg) (u i : Nat) (v : Word) : (s.setCreg r u i v).hubSeq = s.hubSeq := rfl
@[simp] theorem State.setCreg_grpFilter (s : State) (r : CReg) (u i : Nat) (v : Word) : (s.setCreg r u i v).grpFilter = s.grpFilter := rfl
@[simp] theorem State.setCreg_sysFilter (s : State) (r : CReg) (u i : Nat) (v : Word) : (s.setCreg r u i v).sysFilter = s.sysFilter := rfl
@[simp] theorem State.setCreg_hubLatch (s : State) (r : CReg) (u i : Nat) (v : Word) : (s.setCreg r u i v).hubLatch = s.hubLatch := rfl
@[simp] theorem State.setCreg_lostTotal (s : State) (r : CReg) (u i : Nat) (v : Word) : (s.setCreg r u i v).lostTotal = s.lostTotal := rfl
@[simp] theorem State.setCreg_devFault (s : State) (r : CReg) (u i : Nat) (v : Word) : (s.setCreg r u i v).devFault = s.devFault := rfl
@[simp] theorem State.setCreg_power (s : State) (r : CReg) (u i : Nat) (v : Word) : (s.setCreg r u i v).power = s.power := rfl
@[simp] theorem State.setCreg_fuses (s : State) (r : CReg) (u i : Nat) (v : Word) : (s.setCreg r u i v).fuses = s.fuses := rfl
@[simp] theorem State.setCreg_keep (s : State) (r : CReg) (u i : Nat) (v : Word) : (s.setCreg r u i v).keep = s.keep := rfl
@[simp] theorem State.setCreg_toHost (s : State) (r : CReg) (u i : Nat) (v : Word) : (s.setCreg r u i v).toHost = s.toHost := rfl
@[simp] theorem State.setCreg_rings (s : State) (r : CReg) (u i : Nat) (v : Word) : (s.setCreg r u i v).rings = s.rings := rfl
@[simp] theorem State.setCreg_cmds (s : State) (r : CReg) (u i : Nat) (v : Word) : (s.setCreg r u i v).cmds = s.cmds := rfl
@[simp] theorem State.setCreg_tasks (s : State) (r : CReg) (u i : Nat) (v : Word) : (s.setCreg r u i v).tasks = s.tasks := rfl
@[simp] theorem State.setCreg_smbus (s : State) (r : CReg) (u i : Nat) (v : Word) : (s.setCreg r u i v).smbus = s.smbus := rfl
@[simp] theorem State.setCreg_smbHeld (s : State) (r : CReg) (u i : Nat) (v : Word) : (s.setCreg r u i v).smbHeld = s.smbHeld := rfl
@[simp] theorem State.setCreg_tickOut (s : State) (r : CReg) (u i : Nat) (v : Word) : (s.setCreg r u i v).tickOut = s.tickOut := rfl
@[simp] theorem State.setCreg_ocu (s : State) (r : CReg) (u i : Nat) (v : Word) : (s.setCreg r u i v).ocu = s.ocu := rfl
@[simp] theorem State.setCreg_ocuLast (s : State) (r : CReg) (u i : Nat) (v : Word) : (s.setCreg r u i v).ocuLast = s.ocuLast := rfl
@[simp] theorem State.setCreg_ocuFull (s : State) (r : CReg) (u i : Nat) (v : Word) : (s.setCreg r u i v).ocuFull = s.ocuFull := rfl
@[simp] theorem State.setCreg_thread (s : State) (r : CReg) (u i : Nat) (v : Word) (t' : Tid) : (s.setCreg r u i v).thread t' = s.thread t' := rfl
@[simp] theorem State.setCreg_core (s : State) (r : CReg) (u i : Nat) (v : Word) (c' : CoreId) : (s.setCreg r u i v).core c' = s.core c' := rfl
@[simp] theorem State.setCreg_spire (s : State) (r : CReg) (u i : Nat) (v : Word) (sp' : Spire) : (s.setCreg r u i v).spire sp' = s.spire sp' := rfl
@[simp] theorem State.setCreg_quad (s : State) (r : CReg) (u i : Nat) (v : Word) (q' : Quad) : (s.setCreg r u i v).quad q' = s.quad q' := rfl
@[simp] theorem State.setCreg_dom (s : State) (r : CReg) (u i : Nat) (v : Word) (n' : Nat) : (s.setCreg r u i v).dom n' = s.dom n' := rfl
@[simp] theorem State.setCreg_bel (s : State) (r : CReg) (u i : Nat) (v : Word) (b' : BCore) : (s.setCreg r u i v).bel b' = s.bel b' := rfl

/-! ### `bump` -/

@[simp] theorem State.bump_pending (s : State) (r : CReg) (u i n : Nat) : (s.bump r u i n).pending = s.pending := rfl
@[simp] theorem State.bump_now (s : State) (r : CReg) (u i n : Nat) : (s.bump r u i n).now = s.now := rfl
@[simp] theorem State.bump_ns (s : State) (r : CReg) (u i n : Nat) : (s.bump r u i n).ns = s.ns := rfl
@[simp] theorem State.bump_free (s : State) (r : CReg) (u i n : Nat) : (s.bump r u i n).free = s.free := rfl
@[simp] theorem State.bump_nextId (s : State) (r : CReg) (u i n : Nat) : (s.bump r u i n).nextId = s.nextId := rfl
@[simp] theorem State.bump_threads (s : State) (r : CReg) (u i n : Nat) : (s.bump r u i n).threads = s.threads := rfl
@[simp] theorem State.bump_cores (s : State) (r : CReg) (u i n : Nat) : (s.bump r u i n).cores = s.cores := rfl
@[simp] theorem State.bump_spires (s : State) (r : CReg) (u i n : Nat) : (s.bump r u i n).spires = s.spires := rfl
@[simp] theorem State.bump_quads (s : State) (r : CReg) (u i n : Nat) : (s.bump r u i n).quads = s.quads := rfl
@[simp] theorem State.bump_flight (s : State) (r : CReg) (u i n : Nat) : (s.bump r u i n).flight = s.flight := rfl
@[simp] theorem State.bump_cleared (s : State) (r : CReg) (u i n : Nat) : (s.bump r u i n).cleared = s.cleared := rfl
@[simp] theorem State.bump_douts (s : State) (r : CReg) (u i n : Nat) : (s.bump r u i n).douts = s.douts := rfl
@[simp] theorem State.bump_dcredits (s : State) (r : CReg) (u i n : Nat) : (s.bump r u i n).dcredits = s.dcredits := rfl
@[simp] theorem State.bump_links (s : State) (r : CReg) (u i n : Nat) : (s.bump r u i n).links = s.links := rfl
@[simp] theorem State.bump_far (s : State) (r : CReg) (u i n : Nat) : (s.bump r u i n).far = s.far := rfl
@[simp] theorem State.bump_ct (s : State) (r : CReg) (u i n : Nat) : (s.bump r u i n).ct = s.ct := rfl
@[simp] theorem State.bump_doms (s : State) (r : CReg) (u i n : Nat) : (s.bump r u i n).doms = s.doms := rfl
@[simp] theorem State.bump_belfry (s : State) (r : CReg) (u i n : Nat) : (s.bump r u i n).belfry = s.belfry := rfl
@[simp] theorem State.bump_faultSrc (s : State) (r : CReg) (u i n : Nat) : (s.bump r u i n).faultSrc = s.faultSrc := rfl
@[simp] theorem State.bump_hubQueue (s : State) (r : CReg) (u i n : Nat) : (s.bump r u i n).hubQueue = s.hubQueue := rfl
@[simp] theorem State.bump_toSkb (s : State) (r : CReg) (u i n : Nat) : (s.bump r u i n).toSkb = s.toSkb := rfl
@[simp] theorem State.bump_skbWaits (s : State) (r : CReg) (u i n : Nat) : (s.bump r u i n).skbWaits = s.skbWaits := rfl
@[simp] theorem State.bump_skbTag (s : State) (r : CReg) (u i n : Nat) : (s.bump r u i n).skbTag = s.skbTag := rfl
@[simp] theorem State.bump_ports (s : State) (r : CReg) (u i n : Nat) : (s.bump r u i n).ports = s.ports := rfl
@[simp] theorem State.bump_skbIn (s : State) (r : CReg) (u i n : Nat) : (s.bump r u i n).skbIn = s.skbIn := rfl
@[simp] theorem State.bump_colls (s : State) (r : CReg) (u i n : Nat) : (s.bump r u i n).colls = s.colls := rfl
@[simp] theorem State.bump_locked (s : State) (r : CReg) (u i n : Nat) : (s.bump r u i n).locked = s.locked := rfl
@[simp] theorem State.bump_heard (s : State) (r : CReg) (u i n : Nat) : (s.bump r u i n).heard = s.heard := rfl
@[simp] theorem State.bump_lostWorkers (s : State) (r : CReg) (u i n : Nat) : (s.bump r u i n).lostWorkers = s.lostWorkers := rfl
@[simp] theorem State.bump_hubSeq (s : State) (r : CReg) (u i n : Nat) : (s.bump r u i n).hubSeq = s.hubSeq := rfl
@[simp] theorem State.bump_grpFilter (s : State) (r : CReg) (u i n : Nat) : (s.bump r u i n).grpFilter = s.grpFilter := rfl
@[simp] theorem State.bump_sysFilter (s : State) (r : CReg) (u i n : Nat) : (s.bump r u i n).sysFilter = s.sysFilter := rfl
@[simp] theorem State.bump_hubLatch (s : State) (r : CReg) (u i n : Nat) : (s.bump r u i n).hubLatch = s.hubLatch := rfl
@[simp] theorem State.bump_lostTotal (s : State) (r : CReg) (u i n : Nat) : (s.bump r u i n).lostTotal = s.lostTotal := rfl
@[simp] theorem State.bump_devFault (s : State) (r : CReg) (u i n : Nat) : (s.bump r u i n).devFault = s.devFault := rfl
@[simp] theorem State.bump_power (s : State) (r : CReg) (u i n : Nat) : (s.bump r u i n).power = s.power := rfl
@[simp] theorem State.bump_fuses (s : State) (r : CReg) (u i n : Nat) : (s.bump r u i n).fuses = s.fuses := rfl
@[simp] theorem State.bump_keep (s : State) (r : CReg) (u i n : Nat) : (s.bump r u i n).keep = s.keep := rfl
@[simp] theorem State.bump_toHost (s : State) (r : CReg) (u i n : Nat) : (s.bump r u i n).toHost = s.toHost := rfl
@[simp] theorem State.bump_rings (s : State) (r : CReg) (u i n : Nat) : (s.bump r u i n).rings = s.rings := rfl
@[simp] theorem State.bump_cmds (s : State) (r : CReg) (u i n : Nat) : (s.bump r u i n).cmds = s.cmds := rfl
@[simp] theorem State.bump_tasks (s : State) (r : CReg) (u i n : Nat) : (s.bump r u i n).tasks = s.tasks := rfl
@[simp] theorem State.bump_smbus (s : State) (r : CReg) (u i n : Nat) : (s.bump r u i n).smbus = s.smbus := rfl
@[simp] theorem State.bump_smbHeld (s : State) (r : CReg) (u i n : Nat) : (s.bump r u i n).smbHeld = s.smbHeld := rfl
@[simp] theorem State.bump_tickOut (s : State) (r : CReg) (u i n : Nat) : (s.bump r u i n).tickOut = s.tickOut := rfl
@[simp] theorem State.bump_ocu (s : State) (r : CReg) (u i n : Nat) : (s.bump r u i n).ocu = s.ocu := rfl
@[simp] theorem State.bump_ocuLast (s : State) (r : CReg) (u i n : Nat) : (s.bump r u i n).ocuLast = s.ocuLast := rfl
@[simp] theorem State.bump_ocuFull (s : State) (r : CReg) (u i n : Nat) : (s.bump r u i n).ocuFull = s.ocuFull := rfl
@[simp] theorem State.bump_thread (s : State) (r : CReg) (u i n : Nat) (t' : Tid) : (s.bump r u i n).thread t' = s.thread t' := rfl
@[simp] theorem State.bump_core (s : State) (r : CReg) (u i n : Nat) (c' : CoreId) : (s.bump r u i n).core c' = s.core c' := rfl
@[simp] theorem State.bump_spire (s : State) (r : CReg) (u i n : Nat) (sp' : Spire) : (s.bump r u i n).spire sp' = s.spire sp' := rfl
@[simp] theorem State.bump_quad (s : State) (r : CReg) (u i n : Nat) (q' : Quad) : (s.bump r u i n).quad q' = s.quad q' := rfl
@[simp] theorem State.bump_dom (s : State) (r : CReg) (u i n : Nat) (n' : Nat) : (s.bump r u i n).dom n' = s.dom n' := rfl
@[simp] theorem State.bump_bel (s : State) (r : CReg) (u i n : Nat) (b' : BCore) : (s.bump r u i n).bel b' = s.bel b' := rfl

/-! ### Reading a record after an update of it -/

theorem tidKey_inj {t t' : Tid} (h : tidKey t = tidKey t') : t = t' := by
  obtain ⟨c, k⟩ := t
  obtain ⟨c', k'⟩ := t'
  simp only [tidKey] at h
  have hk := k.isLt
  have hk' := k'.isLt
  have h1 : c.toNat = c'.toNat := by omega
  have h2 : k.toNat = k'.toNat := by omega
  rw [BitVec.eq_of_toNat_eq h1, BitVec.eq_of_toNat_eq h2]

@[simp] theorem State.thread_setThread_same (s : State) (t : Tid) (x : Thread) : (s.setThread t x).thread t = x :=
  Store.get_set_same _ _ _ _

theorem State.thread_setThread_other (s : State) {t t' : Tid} (h : t' ≠ t) (x : Thread) :
    (s.setThread t x).thread t' = s.thread t' := Store.get_set_other _ _ _ (fun e => h (tidKey_inj e)) _

@[simp] theorem State.thread_modThread_same (s : State) (t : Tid) (f : Thread → Thread) :
    (s.modThread t f).thread t = f (s.thread t) := State.thread_setThread_same _ _ _

theorem State.thread_modThread_other (s : State) {t t' : Tid} (h : t' ≠ t) (f : Thread → Thread) :
    (s.modThread t f).thread t' = s.thread t' := State.thread_setThread_other s h _

@[simp] theorem State.core_setCore_same (s : State) (c : CoreId) (x : Core) : (s.setCore c x).core c = x :=
  Store.get_set_same _ _ _ _

theorem State.core_setCore_other (s : State) {c c' : CoreId} (h : c' ≠ c) (x : Core) :
    (s.setCore c x).core c' = s.core c' := Store.get_set_other _ _ _ (fun e => h (BitVec.eq_of_toNat_eq e)) _

@[simp] theorem State.core_modCore_same (s : State) (c : CoreId) (f : Core → Core) :
    (s.modCore c f).core c = f (s.core c) := State.core_setCore_same _ _ _

theorem State.core_modCore_other (s : State) {c c' : CoreId} (h : c' ≠ c) (f : Core → Core) :
    (s.modCore c f).core c' = s.core c' := State.core_setCore_other s h _

@[simp] theorem State.spire_modSpire_same (s : State) (sp : Spire) (f : SpireSt → SpireSt) :
    (s.modSpire sp f).spire sp = f (s.spire sp) := Store.get_set_same _ _ _ _

theorem State.spire_modSpire_other (s : State) {sp sp' : Spire} (h : sp' ≠ sp) (f : SpireSt → SpireSt) :
    (s.modSpire sp f).spire sp' = s.spire sp' := Store.get_set_other _ _ _ (fun e => h (BitVec.eq_of_toNat_eq e)) _

@[simp] theorem State.quad_modQuad_same (s : State) (q : Quad) (f : QuadSt → QuadSt) :
    (s.modQuad q f).quad q = f (s.quad q) := Store.get_set_same _ _ _ _

theorem State.quad_modQuad_other (s : State) {q q' : Quad} (h : q' ≠ q) (f : QuadSt → QuadSt) :
    (s.modQuad q f).quad q' = s.quad q' := Store.get_set_other _ _ _ (fun e => h (BitVec.eq_of_toNat_eq e)) _

@[simp] theorem State.dom_modDom_same (s : State) (n : Nat) (f : Dom → Dom) : (s.modDom n f).dom n = f (s.dom n) :=
  Store.get_set_same _ _ _ _

theorem State.dom_modDom_other (s : State) {n n' : Nat} (h : n' ≠ n) (f : Dom → Dom) :
    (s.modDom n f).dom n' = s.dom n' := Store.get_set_other _ _ _ h _

@[simp] theorem State.bel_modBel_same (s : State) (b : BCore) (f : Belfry → Belfry) : (s.modBel b f).bel b = f (s.bel b) :=
  Store.get_set_same _ _ _ _

theorem State.bel_modBel_other (s : State) {b b' : BCore} (h : b' ≠ b) (f : Belfry → Belfry) :
    (s.modBel b f).bel b' = s.bel b' := Store.get_set_other _ _ _ (fun e => h (BitVec.eq_of_toNat_eq e)) _

@[simp] theorem State.creg_setCreg_same (s : State) (r : CReg) (u i : Nat) (v : Word) :
    (s.setCreg r u i v).creg r u i = v := Store.get_set_same _ _ _ _

/-- A register at another address keeps its value. -/
theorem State.creg_setCreg_other (s : State) {r r' : CReg} {u u' i i' : Nat} (h : r'.addr u' i' ≠ r.addr u i) (v : Word) :
    (s.setCreg r u i v).creg r' u' i' = s.creg r' u' i' := Store.get_set_other _ _ _ h _

@[simp] theorem State.creg_bump_same (s : State) (r : CReg) (u i n : Nat) :
    (s.bump r u i n).creg r u i = satAdd (s.creg r u i) n := State.creg_setCreg_same _ _ _ _ _

/-! ### Registers of a thread -/

@[simp] theorem Thread.bank_setBank (th : Thread) (b : Bank) : (th.setBank b).bank = b := by
  unfold Thread.setBank Thread.bank
  split <;> simp_all

/-- Register 31 reads as zero. -/
@[simp] theorem Bank.reg_31 (b : Bank) : b.reg 31 = 0 := rfl

/-- Writes to register 31 are discarded. -/
@[simp] theorem Bank.setReg_31 (b : Bank) (v : Word) : b.setReg 31 v = b := rfl

@[simp] theorem Bank.reg_setReg_same (b : Bank) {r : Reg} (h : r ≠ 31) (v : Word) : (b.setReg r v).reg r = v := by
  unfold Bank.setReg Bank.reg
  rw [if_neg h, if_neg h]
  exact Store.get_set_same _ _ _ _

theorem Bank.reg_setReg_other (b : Bank) {r r' : Reg} (h : r' ≠ r) (v : Word) : (b.setReg r v).reg r' = b.reg r' := by
  unfold Bank.setReg
  split
  · rfl
  · unfold Bank.reg
    split
    · rfl
    · exact Store.get_set_other _ _ _ (fun e => h (BitVec.eq_of_toNat_eq e)) _

@[simp] theorem Thread.v_setV_same (th : Thread) (r : Reg) (x : VReg) : (th.setV r x).v r = x := Store.get_set_same _ _ _ _

theorem Thread.v_setV_other (th : Thread) {r r' : Reg} (h : r' ≠ r) (x : VReg) : (th.setV r x).v r' = th.v r' :=
  Store.get_set_other _ _ _ (fun e => h (BitVec.eq_of_toNat_eq e)) _

end Sys2Proof.Machine
end

