-- ==== Sys2Proof/Laws/Issue.lean ====
section
/-! SUPPORT. What issuing an instruction does, once for all instructions. -/

namespace Sys2Proof.Machine

open Sys2Proof

/-- An instruction whose thread is not ready changes nothing (R36). -/
theorem issue_unready {i : Iss} {u : Uses} {s : State} {f : Tid → State → Eff} (h : s.ready (tidOf i) u = false) :
    issue i u s f = .next s := by
  simp only [issue]
  rw [if_pos]
  simpa [tidOf] using h

/-- An instruction whose condition is false only counts and passes on (R51). -/
theorem issue_false {i : Iss} {u : Uses} {s : State} {f : Tid → State → Eff} (h : s.ready (tidOf i) u = true)
    (hc : condHolds (s.issuer i).bank i.cond = false) : issue i u s f = .next ((s.atIssue i).retired (tidOf i)) := by
  simp only [issue]
  rw [if_neg, if_neg]
  · rfl
  · simpa [State.issuer, State.atIssue, tidOf] using hc
  · simpa [tidOf] using h

/-- A firing instruction settles its effect. -/
theorem issue_fires {i : Iss} {u : Uses} {s : State} {f : Tid → State → Eff} (h : Fires s i u) :
    issue i u s f = .next (match f (tidOf i) (s.atIssue i) with
      | .hold => s
      | e => (s.atIssue i).settle (tidOf i) e) := by
  have hs : (((s.landed (tidOf i)).thread (tidOf i)).spoilt u) = false := h.2.2
  simp only [issue]
  rw [if_neg, if_pos, if_neg]
  · rfl
  · simpa [tidOf] using hs
  · simpa [State.issuer, State.atIssue, tidOf] using h.2.1
  · simpa [tidOf] using h.1

/-- A ready instruction whose condition holds raises ECC_UNCORRECTED where it reads a register of wrong parity (R228). -/
theorem issue_spoilt {i : Iss} {u : Uses} {s : State} {f : Tid → State → Eff} (h : s.ready (tidOf i) u = true)
    (hc : condHolds (s.issuer i).bank i.cond = true) (hs : (s.issuer i).spoilt u = true) :
    issue i u s f = .next ((s.atIssue i).syncExc (tidOf i) 0x05 0 (s.issuer i).pc .scalar) := by
  have hs' : (((s.landed (tidOf i)).thread (tidOf i)).spoilt u) = true := hs
  simp only [issue]
  rw [if_neg, if_pos, if_pos]
  · rfl
  · simpa [tidOf] using hs'
  · simpa [State.issuer, State.atIssue, tidOf] using hc
  · simpa [tidOf] using h

theorem issue_done {i : Iss} {u : Uses} {s t : State} {f : Tid → State → Eff} (h : Fires s i u)
    (e : f (tidOf i) (s.atIssue i) = .done t) : issue i u s f = .next (t.retired (tidOf i)) := by
  rw [issue_fires h, e]
  rfl

theorem issue_block {i : Iss} {u : Uses} {s t : State} {b : Block} {f : Tid → State → Eff} (h : Fires s i u)
    (e : f (tidOf i) (s.atIssue i) = .block t b) :
    issue i u s f = .next ((t.accounted (tidOf i)).modThread (tidOf i) fun th => { th with status := .blocked b }) := by
  rw [issue_fires h, e]
  rfl

theorem issue_exc {i : Iss} {u : Uses} {s : State} {c : BitVec 8} {d : Word} {k : UnitCode} {f : Tid → State → Eff}
    (h : Fires s i u) (e : f (tidOf i) (s.atIssue i) = .exc c d k) :
    issue i u s f = .next ((s.atIssue i).syncExc (tidOf i) c d (s.issuer i).pc k) := by
  rw [issue_fires h, e]
  rfl

theorem issue_moved {i : Iss} {u : Uses} {s t : State} {f : Tid → State → Eff} (h : Fires s i u)
    (e : f (tidOf i) (s.atIssue i) = .moved t) : issue i u s f = .next (t.accounted (tidOf i)) := by
  rw [issue_fires h, e]
  rfl

theorem issue_jump {i : Iss} {u : Uses} {s t : State} {a : Word} {drop : Bool} {f : Tid → State → Eff}
    (h : Fires s i u) (ha : fld a 1 0 = 0) (e : f (tidOf i) (s.atIssue i) = .jump t a drop) :
    issue i u s f = .next ((t.accounted (tidOf i)).modThread (tidOf i) fun th =>
      { (if drop then th.setBank (abandon th.bank a 3) else th) with pc := a }) := by
  rw [issue_fires h, e]
  simp [State.settle, ha]

/-! ### Retirement -/

/-- The loop test changes nothing of a bank but its loop levels (R58). -/
theorem loopTest_bank (n : Nat) (b : Bank) (pc : Word) :
    { (loopTest b pc n).2 with loops := b.loops, depth := b.depth } = b := by
  induction n generalizing b with
  | zero => rfl
  | succ n ih =>
    simp only [loopTest]
    split
    · rfl
    · split
      · rfl
      · split
        · rfl
        · have h := ih ({ b.setLoop (b.depth.toNat - 1) { (b.loop (b.depth.toNat - 1)) with lc := 0 } with depth := b.depth - 1 })
          simpa [Bank.setLoop] using congrArg (fun k : Bank => { k with loops := b.loops, depth := b.depth }) h

theorem loopTest_reg (n : Nat) (b : Bank) (pc : Word) (r : Reg) : (loopTest b pc n).2.reg r = b.reg r := by
  have h := congrArg (fun k : Bank => k.reg r) (loopTest_bank n b pc)
  simpa [Bank.reg] using h

theorem loopTest_flags (n : Nat) (b : Bank) (pc : Word) :
    (loopTest b pc n).2.n = b.n ∧ (loopTest b pc n).2.z = b.z ∧ (loopTest b pc n).2.c = b.c ∧
    (loopTest b pc n).2.v = b.v ∧ (loopTest b pc n).2.p0 = b.p0 ∧ (loopTest b pc n).2.p1 = b.p1 := by
  have h := loopTest_bank n b pc
  have hn := congrArg Bank.n h
  have hz := congrArg Bank.z h
  have hc := congrArg Bank.c h
  have hv := congrArg Bank.v h
  have h0 := congrArg Bank.p0 h
  have h1 := congrArg Bank.p1 h
  exact ⟨hn, hz, hc, hv, h0, h1⟩

/-- A core is what it was but for the note of the last issuer. -/
theorem State.accounted_core (s : State) (x : Tid) (c : CoreId) :
    { (s.accounted x).core c with lastIssue := (s.core c).lastIssue } = s.core c := by
  unfold State.accounted
  by_cases h : c = x.core
  · subst h
    simp
  · simp [State.core_modCore_other _ h]

/-- The record of a thread whose instruction completed. -/
theorem State.retired_thread (s : State) (x : Tid) :
    (s.retired x).thread x = (s.thread x).account.retire := by
  unfold State.retired
  rw [State.thread_modThread_same]
  unfold State.accounted
  rw [State.modCore_thread, State.thread_modThread_same]

/-- An instruction that completes leaves everything alone but its thread's record and the note of the last issuer. -/
theorem onlyThread_retired (s : State) (x : Tid) (th : Thread) : OnlyThread s ((s.setThread x th).retired x) x := by
  refine ⟨?_, ?_, ?_⟩
  · simp only [State.retired, State.accounted, State.modThread, State.setThread, State.modCore, State.setCore]
  · intro y hy
    simp [State.retired, State.accounted, State.thread_modThread_other _ hy, State.thread_setThread_other _ hy]
  · intro c
    exact State.accounted_core (s.setThread x th) x c

/-- A thread record whose bank in use is replaced and which then retires differs in nothing but that bank, the address of
the next instruction and the accounts. -/
theorem onlyBank_retire (th : Thread) (k : Bank) : OnlyBank th ((th.setBank k).account.retire) := by
  unfold OnlyBank Thread.setBank Thread.account Thread.retire Thread.countLoads Thread.setBank
  cases h : th.inShadow <;> simp <;> rw [← h]

/-- A bank replaced and retired reads as the bank. -/
theorem retire_bank (th : Thread) (k : Bank) :
    ((th.setBank k).account.retire).bank = (loopTest k th.pc 3).2 := by
  unfold Thread.setBank Thread.account Thread.retire Thread.countLoads Thread.setBank Thread.bank
  by_cases h : th.inShadow = true
  · simp [h]
  · simp [h]

/-- What a completing instruction that replaces the bank in use leaves: the shape of every scalar result. -/
theorem writesReg_of_bank {s : State} {i : Iss} {c : Instr} {d : Reg} {v : Word} {fl : Option (Word × Bool × Bool)}
    {k : Bank}
    (e : exec c s = .next (((s.atIssue i).setThread (tidOf i) ((s.issuer i).setBank k)).retired (tidOf i)))
    (hr : ∀ r, k.reg r = if r = 31 then 0 else if r = d then v else (s.issuer i).g r)
    (hp : k.p0 = (s.issuer i).bank.p0 ∧ k.p1 = (s.issuer i).bank.p1)
    (hf : match fl with
      | some (r, cf, vf) => k.n = r.msb ∧ k.z = decide (r = 0) ∧ k.c = cf ∧ k.v = vf
      | none =>
        k.n = (s.issuer i).bank.n ∧ k.z = (s.issuer i).bank.z ∧ k.c = (s.issuer i).bank.c ∧
        k.v = (s.issuer i).bank.v) :
    WritesReg s i c d v fl := by
  refine ⟨_, e, onlyThread_retired _ _ _, ?_⟩
  rw [State.retired_thread, State.thread_setThread_same]
  have hb := retire_bank (s.issuer i) k
  obtain ⟨h1, h2, h3, h4, h5, h6⟩ := loopTest_flags 3 k (s.issuer i).pc
  refine ⟨onlyBank_retire _ _, ?_, ?_⟩
  · intro r
    rw [Thread.g, hb, loopTest_reg, hr]
  · rw [hb]
    dsimp only
    rw [h1, h2, h3, h4, h5, h6]
    exact ⟨hp.1, hp.2, hf⟩

theorem Bank.reg_setReg (b : Bank) (d r : Reg) (v : Word) :
    (b.setReg d v).reg r = if r = 31 then 0 else if r = d then v else b.reg r := by
  by_cases hr : r = 31
  · subst hr
    rfl
  · rw [if_neg hr]
    by_cases hd : r = d
    · subst hd
      rw [if_pos rfl, Bank.reg_setReg_same _ hr]
    · rw [if_neg hd, Bank.reg_setReg_other _ hd]

theorem Bank.setReg_flags (b : Bank) (d : Reg) (v : Word) :
    (b.setReg d v).n = b.n ∧ (b.setReg d v).z = b.z ∧ (b.setReg d v).c = b.c ∧ (b.setReg d v).v = b.v ∧
    (b.setReg d v).p0 = b.p0 ∧ (b.setReg d v).p1 = b.p1 := by
  unfold Bank.setReg
  split <;> simp

/-- The three-register ALU form (R52, R65). -/
theorem aluOp_writes {i : Iss} {f : Bool} {d a b : Reg} {use : FlagUse} {op : Bank → Word → Word → Res} {s : State}
    {c : Instr} (h : Fires s i { g := [a, b], wg := [d] }) (hc : exec c s = aluOp i f d a b use op s) :
    let k := (s.issuer i).bank
    let r := op k ((s.issuer i).g a) ((s.issuer i).g b)
    WritesReg s i c d r.val (if f = true ∧ use = .writes then some (r.val, r.c, r.v) else none) := by
  intro k r
  have hf := Bank.setReg_flags k d r.val
  refine writesReg_of_bank (k := if f = true ∧ use = .writes then (k.setReg d r.val).setFlags r else k.setReg d r.val)
    ?_ ?_ ?_ ?_
  · rw [hc]
    exact issue_done h rfl
  · intro x
    split
    · exact Bank.reg_setReg k d x r.val
    · exact Bank.reg_setReg k d x r.val
  · split
    · exact ⟨hf.2.2.2.2.1, hf.2.2.2.2.2⟩
    · exact ⟨hf.2.2.2.2.1, hf.2.2.2.2.2⟩
  · by_cases hw : f = true ∧ use = .writes
    · simp only [hw, and_self, ↓reduceIte]
      exact ⟨rfl, rfl, rfl, rfl⟩
    · simp only [hw, ↓reduceIte]
      exact ⟨hf.1, hf.2.1, hf.2.2.1, hf.2.2.2.1⟩

/-- The immediate form: one register in, one out, no flag (R47). -/
theorem immOp_writes {i : Iss} {d a : Reg} {op : Word → Word} {s : State} {c : Instr} (h : Fires s i { g := [a], wg := [d] })
    (hc : exec c s = immOp i d a op s) : WritesReg s i c d (op ((s.issuer i).g a)) none := by
  have hf := Bank.setReg_flags (s.issuer i).bank d (op ((s.issuer i).g a))
  refine writesReg_of_bank (k := (s.issuer i).bank.setReg d (op ((s.issuer i).g a))) ?_ ?_ ?_ ?_
  · rw [hc]
    exact issue_done h rfl
  · intro x
    exact Bank.reg_setReg _ _ _ _
  · exact ⟨hf.2.2.2.2.1, hf.2.2.2.2.2⟩
  · exact ⟨hf.1, hf.2.1, hf.2.2.1, hf.2.2.2.1⟩

/-- The comparing form: flags only (R52). -/
theorem flagOp_writes {i : Iss} {rs : List Reg} {op : Bank → Res} {s : State} {c : Instr} (h : Fires s i { g := rs })
    (hc : exec c s = flagOp i rs op s) :
    let r := op (s.issuer i).bank
    WritesReg s i c 31 r.val (some (r.val, r.c, r.v)) := by
  intro r
  refine writesReg_of_bank (k := (s.issuer i).bank.setFlags r) ?_ ?_ ?_ ?_
  · rw [hc]
    exact issue_done h rfl
  · intro x
    show (s.issuer i).bank.reg x = _
    by_cases hx : x = 31
    · subst hx
      rfl
    · rw [if_neg hx, if_neg hx]
      rfl
  · exact ⟨rfl, rfl⟩
  · exact ⟨rfl, rfl, rfl, rfl⟩

end Sys2Proof.Machine
end

