-- ==== Sys2Proof/Tests/Slice0.lean ====
section
/-! SUPPORT. Small tests: what the checks of well-formedness refuse, states that meet the hypotheses of the statements,
and one step on each, with results taken from the spec's words. -/

namespace Sys2Proof.Tests

open Sys2Proof Sys2Proof.Machine

set_option Elab.async false

/-! ### A laboratory -/

/-- Every domain is ON. -/
def allOn : Store Dom := (List.range 96).map fun n => (n, { Dom.reset with st := .on })

/-- A powered device whose core 0 holds a thread. -/
def lab (th : Thread) : State :=
  { State.reset with
      doms := allOn
      power := { Power.reset with phase := .on }
      keep := { Keep.reset with duboette := true }
      fuses := { Fuses.reset with repair := [], disable := 0, part := 0 }
      threads := [(0, th)] }

/-- A thread in Machine that runs with registers. -/
def run (g : Store Word) : Thread :=
  { Thread.reset with
      status := .running
      enabled := true
      priv := .machine
      main := { Bank.reset with g := g } }

/-- An instruction of thread 0 of core 0. -/
def i0 : Iss := { core := 0, thread := 0, cond := 0 }

/-- Thread 0 of core 0. -/
def x0 : Tid := { core := 0, thread := 0 }

/-- Duboette. -/
def duet : Agent := .belfry 0

/-- A quiet device: powered, with no thread. -/
def calm : State := { lab Thread.reset with threads := [] }

/-- A command goes on to a state of which something holds. -/
def yields (c : Instr) (s : State) (p : State → Bool) : Bool :=
  match exec c s with
  | .next t => p t
  | _ => false

/-! ### The block and its queue -/

theorem witness_StepRunsFrontCommand : ({ calm with pending := [.thermtrip] } : State).pending = .thermtrip :: [] := by
  decide +kernel

theorem witness_IdleStep : calm.pending = [] ∧ calm.power.phase = .on ∧ 0 < calm.cclk ∧ calm.threads = [] ∧
    calm.ports = [] ∧ calm.flight = [] ∧ bit (calm.creg .skbRtctl 0 0) 0 = false ∧
    (match step calm with | .next t => decide (t.now = 1) | _ => false) = true := by decide +kernel

theorem witness_StepKeepsCanonicalForm : ({ State.reset with now := 7 } : State).Canonical :=
  ⟨by decide, by decide, by decide, by decide, by decide, by decide, by decide, by decide, by decide,
    fun _ => rfl, fun _ => rfl⟩

theorem witness_WellFormedCommands : ({ calm with pending := [.thermtrip, .vrGoodFall] } : State).queueWf := by
  intro c h
  simp at h
  rcases h with rfl | rfl <;> rfl

/-- The check refuses a command, and it changes nothing. -/
abbrev refusedTerm (c : Instr) : Prop := c.wf = false ∧ exec c calm = .next calm

theorem smoke_assigned_word : refusedTerm (.unassignedEncoding i0 0x00400000) := ⟨by decide +kernel, rfl⟩

theorem smoke_condition_of_word : refusedTerm (.unassignedEncoding i0 0x1FC00000) := ⟨by decide +kernel, rfl⟩

theorem witness_well_formed : (Instr.unassignedEncoding i0 0x0FC00000).wf = true ∧
    (Instr.failsInService (.domain 95)).wf = true ∧ (Instr.readClearAccess .jtag 0x201002).wf = true := by decide +kernel

/-! ### Issue and scalar instructions -/

/-- An instruction under EQ. -/
def iEq : Iss := { i0 with cond := 1 }

/-- Every register, as `FalseConditionHasNoEffect` names them. -/
def every : Uses :=
  { g := (List.range 32).map (BitVec.ofNat 5)
    v := (List.range 32).map (BitVec.ofNat 5) }

theorem witness_FalseCondition : issuedBy (.add iEq true 1 2 3) = some iEq ∧ (Instr.add iEq true 1 2 3).wf = true ∧
    condHolds ((lab (run [(2, 5)])).issuer iEq).bank iEq.cond = false ∧ (lab (run [(2, 5)])).ready x0 every = true ∧
    yields (.add iEq true 1 2 3) (lab (run [(2, 5)])) (fun t => (t.thread x0).g 1 == 0 && (t.thread x0).pc == 4) = true := by
  decide +kernel

theorem witness_Retirement : ((lab (run [])).thread x0).bank.depth = 0 := by decide +kernel

/-- A bank inside one loop level that ends at address 8. -/
def inLoop (lc : Word) : Bank := ({ Bank.reset with depth := 1 } : Bank).setLoop 0 { ls := 4, le := 8, lc := lc }

theorem witness_LoopBody : (inLoop 2).depth ≠ 0 ∧ ((inLoop 2).loop ((inLoop 2).depth.toNat - 1)).le = 8 ∧
    (loopTest (inLoop 2) 8 3).1 = 4 ∧ (loopTest (inLoop 1) 8 3).1 = 12 ∧ (loopTest (inLoop 1) 8 3).2.depth = 0 := by decide +kernel

theorem witness_Scalar : Fires (lab (run [(2, 5), (3, 7)])) i0 { g := [2, 3], wg := [1] } ∧
    Fires (lab (run [(2, 5)])) i0 { g := [2, 31], wg := [1] } ∧ Fires (lab (run [(2, 5)])) i0 { g := [2], wg := [1] } ∧
    Fires (lab (run [(2, 5)])) i0 { g := [1], wg := [1] } ∧ Fires (lab (run [(2, 5)])) i0 { g := [31], wg := [1] } ∧
    Fires (lab (run [(2, 5)])) i0 { wg := [1] } ∧ Fires (lab (run [(2, 5)])) i0 { g := [2, 3] } ∧
    Fires (lab (run [(2, 5)])) i0 { g := [2] } ∧ Fires (lab (run [])) i0 {} := by decide +kernel

/-- A scalar instruction leaves a value in g1 and, in order, N, Z, C and V. -/
def gives (c : Instr) (th : Thread) (v : Word) (n z cf vf : Bool) : Bool :=
  yields c (lab th) fun t =>
    let k := (t.thread x0).bank
    k.reg 1 == v && k.n == n && k.z == z && k.c == cf && k.v == vf && (t.thread x0).pc == 4

theorem test_add_overflows : gives (.add i0 true 1 2 3) (run [(2, 0x7FFFFFFF), (3, 1)]) 0x80000000 true false false true :=
  by decide +kernel

theorem test_add_without_F : gives (.add i0 false 1 2 3) (run [(2, 0xFFFFFFFF), (3, 1)]) 0 false false false false :=
  by decide +kernel

theorem test_sub_no_borrow : gives (.sub i0 true 1 2 3) (run [(2, 5), (3, 5)]) 0 false true true false := by decide +kernel

theorem test_adc : gives (.adc i0 true 1 2 3)
    { run [] with main := { Bank.reset with g := [(2, 0xFFFFFFFF)], c := true } } 0 false true true false := by decide +kernel

theorem test_sbc : gives (.sbc i0 true 1 2 3) (run [(2, 5), (3, 5)]) 0xFFFFFFFF true false false false := by decide +kernel

theorem test_andn : gives (.andn i0 true 1 2 3) (run [(2, 0xFF), (3, 0x0F)]) 0xF0 false false false false := by decide +kernel

theorem test_and : gives (.andOp i0 true 1 2 3) (run [(2, 0xF0), (3, 0x0F)]) 0 false true false false := by decide +kernel

theorem test_or : gives (.orOp i0 true 1 2 3) (run [(2, 0x80000000), (3, 1)]) 0x80000001 true false false false := by decide +kernel

theorem test_xor : gives (.xor i0 false 1 2 3) (run [(2, 6), (3, 3)]) 5 false false false false := by decide +kernel

theorem test_mul_low : gives (.mul i0 true 1 2 3) (run [(2, 0x10000), (3, 0x10000)]) 0 false true false false := by decide +kernel

theorem test_mulhs : gives (.mulhs i0 true 1 2 3) (run [(2, 0xFFFFFFFF), (3, 2)]) 0xFFFFFFFF false false false false :=
  by decide +kernel

theorem test_mulhu : gives (.mulhu i0 true 1 2 3) (run [(2, 0xFFFFFFFF), (3, 2)]) 1 false false false false := by decide +kernel

theorem test_shl_carry : gives (.shl i0 true 1 2 3) (run [(2, 0x80000001), (3, 1)]) 2 false false true false := by decide +kernel

theorem test_shl_by_zero : gives (.shl i0 true 1 2 3) (run [(2, 0x80000001), (3, 32)]) 0x80000001 true false false false :=
  by decide +kernel

theorem test_shr : gives (.shr i0 true 1 2 3) (run [(2, 3), (3, 1)]) 1 false false true false := by decide +kernel

theorem test_sar : gives (.sar i0 true 1 2 3) (run [(2, 0x80000000), (3, 31)]) 0xFFFFFFFF true false false false := by decide +kernel

theorem test_rol : gives (.rol i0 true 1 2 3) (run [(2, 0x80000000), (3, 1)]) 1 false false true false := by decide +kernel

theorem test_div_example : gives (.div i0 true 1 2 3) (run [(2, -7), (3, 2)]) (-3) true false false false := by decide +kernel

theorem test_div_by_zero : gives (.div i0 true 1 2 3) (run [(2, 7)]) 0xFFFFFFFF true false false true := by decide +kernel

theorem test_rem_example : gives (.rem i0 true 1 2 3) (run [(2, 7), (3, -2)]) 1 false false false false := by decide +kernel

theorem test_rem_by_zero : gives (.rem i0 true 1 2 3) (run [(2, 7)]) 7 false false false true := by decide +kernel

theorem test_divu : gives (.divu i0 false 1 2 3) (run [(2, 0xFFFFFFFF), (3, 2)]) 0x7FFFFFFF false false false false := by decide +kernel

theorem test_remu : gives (.remu i0 true 1 2 3) (run [(2, 0xFFFFFFFF), (3, 2)]) 1 false false false false := by decide +kernel

theorem test_min_signed : gives (.min i0 true 1 2 3) (run [(2, 0xFFFFFFFF), (3, 1)]) 0xFFFFFFFF false false false false := by
  decide +kernel

theorem test_maxu : gives (.maxu i0 true 1 2 3) (run [(2, 0xFFFFFFFF), (3, 1)]) 0xFFFFFFFF false false false false := by decide +kernel

theorem test_max_signed : gives (.max i0 true 1 2 3) (run [(2, 0xFFFFFFFF), (3, 1)]) 1 false false false false := by decide +kernel

theorem test_minu : gives (.minu i0 true 1 2 3) (run [(2, 0xFFFFFFFF), (3, 1)]) 1 false false false false := by decide +kernel

theorem test_clz : gives (.clz i0 true 1 2) (run [(2, 1)]) 31 false false false false := by decide +kernel

theorem test_clz_zero : gives (.clz i0 true 1 2) (run []) 32 false false false false := by decide +kernel

theorem test_popc : gives (.popc i0 true 1 2) (run [(2, 0xFF00FF00)]) 16 false false false false := by decide +kernel

theorem test_sextb : gives (.sextb i0 true 1 2) (run [(2, 0x80)]) 0xFFFFFF80 false false false false := by decide +kernel

theorem test_sexth : gives (.sexth i0 true 1 2) (run [(2, 0x18000)]) 0xFFFF8000 false false false false := by decide +kernel

theorem test_mov : gives (.mov i0 true 1 2) (run [(2, 0)]) 0 false false false false := by decide +kernel

theorem test_addi_negative : gives (.addi i0 1 2 0xFFF) (run [(2, 0)]) 0xFFFFFFFF false false false false := by decide +kernel

theorem test_andi_zero_extends : gives (.andi i0 1 2 0xFFF) (run [(2, 0xFFFFFFFF)]) 0xFFF false false false false := by decide +kernel

theorem test_ori : gives (.ori i0 1 2 0x800) (run [(2, 1)]) 0x801 false false false false := by decide +kernel

theorem test_xori : gives (.xori i0 1 2 0xFFF) (run [(2, 0xFFF)]) 0 false false false false := by decide +kernel

theorem test_shli : gives (.shli i0 1 2 31) (run [(2, 3)]) 0x80000000 false false false false := by decide +kernel

theorem test_shri : gives (.shri i0 1 2 31) (run [(2, 0x80000000)]) 1 false false false false := by decide +kernel

theorem test_sari : gives (.sari i0 1 2 31) (run [(2, 0x80000000)]) 0xFFFFFFFF false false false false := by decide +kernel

theorem test_roli : gives (.roli i0 1 2 1) (run [(2, 0x80000000)]) 1 false false false false := by decide +kernel

theorem test_movl : gives (.movl i0 1 0xFFFF) (run [(1, 0xFFFFFFFF)]) 0xFFFF false false false false := by decide +kernel

theorem test_movh : gives (.movh i0 1 0x1234) (run [(1, 0x5678)]) 0x12345678 false false false false := by decide +kernel

theorem test_cmp : gives (.cmp i0 2 3) (run [(1, 9), (2, 0x80000000), (3, 1)]) 9 false false true true := by decide +kernel

theorem test_cmpi : gives (.cmpi i0 2 0xFFF) (run [(1, 9), (2, 0xFFFFFFFF)]) 9 false true true false := by decide +kernel

theorem test_tst : gives (.tst i0 2 3) (run [(1, 9), (2, 2), (3, 1)]) 9 false true false false := by decide +kernel

theorem test_zero_register : yields (.add i0 false 31 2 3) (lab (run [(2, 5), (3, 7)]))
    (fun t => (t.thread x0).g 31 == 0) = true := by decide +kernel

theorem test_pcmp : yields (.pcmp i0 3 0 2 3) (lab (run [(2, 0xFFFFFFFF), (3, 1)]))
    (fun t => (t.thread x0).bank.p0 && ! (t.thread x0).bank.n) = true := by decide +kernel

theorem test_pset : yields (.pset i0 1 2) (lab (run [(2, 4)])) (fun t => (t.thread x0).bank.p1) = true := by decide +kernel

theorem test_pnot : yields (.pnot i0 0) (lab (run [])) (fun t => (t.thread x0).bank.p0) = true := by decide +kernel

theorem test_pmov : gives (.pmov i0 1) { run [] with main := { Bank.reset with p0 := true, p1 := true } } 3 false false
    false false := by decide +kernel

/-! ### Control flow, exceptions and system instructions -/

/-- A valid descriptor of Machine with handler 0x1000 and stack 0x8000, and IE kept. -/
def dMach : Desc := { handler := 0x1000, sp := 0x8000, ctl := 0xF000 }

/-- A thread with copies of descriptors. -/
def withCopies (th : Thread) (cs : Store Desc) : Thread := { th with ltn := { th.ltn with copies := cs } }

theorem witness_Branches : Fires (lab (run [(2, 0x100)])) i0 {} ∧ Fires (lab (run [])) i0 { wg := [30] } ∧
    Fires (lab (run [(2, 0x100)])) i0 { g := [2] } ∧ Fires (lab (run [(2, 0x100)])) i0 { g := [2], wg := [30] } ∧
    Fires (lab (run [])) i0 { g := [30] } ∧
    (((lab (run [(2, 0x100)])).issuer i0).g 2).toNat % 4 = 0 ∧
    (((lab (run [(2, 0x102)])).issuer i0).g 2).toNat % 4 ≠ 0 := by decide +kernel

theorem test_b_backward : yields (.b i0 0x3FFFFF) (lab { run [] with pc := 8 }) (fun t => (t.thread x0).pc == 4) = true := by
  decide +kernel

theorem test_bl_links : yields (.bl i0 2) (lab (run [])) (fun t => (t.thread x0).pc == 8 && (t.thread x0).g 30 == 4) =
    true := by decide +kernel

theorem test_jr : yields (.jr i0 2) (lab (run [(2, 0x40)])) (fun t => (t.thread x0).pc == 0x40) = true := by decide +kernel

theorem test_jalr_through_g30 : yields (.jalr i0 30) (lab (run [(30, 0x40)]))
    (fun t => (t.thread x0).pc == 0x40 && (t.thread x0).g 30 == 4) = true := by decide +kernel

theorem test_ret : yields (.ret i0) (lab (run [(30, 0x40)])) (fun t => (t.thread x0).pc == 0x40) = true := by decide +kernel

theorem test_jr_misaligned : yields (.jr i0 2) (lab (withCopies (run [(2, 0x42)]) [(3, dMach)]))
    (fun t => (t.thread x0).inShadow && (t.thread x0).pc == 0x1000 && (t.thread x0).g 28 == 0) = true := by decide +kernel

theorem witness_Loop : Fires (lab (run [])) i0 { g := [] } ∧ Fires (lab (run [(2, 0)])) i0 { g := [2] } ∧
    (run []).bank.depth ≠ 3 ∧ ({ run [] with main := { Bank.reset with depth := 3 } } : Thread).bank.depth = 3 := by decide +kernel

theorem test_loop_opens : yields (.loop i0 (.imm 5) 1) (lab (run [])) (fun t =>
    let b := (t.thread x0).bank
    b.depth == 1 && (b.loop 0).ls == 4 && (b.loop 0).le == 8 && (b.loop 0).lc == 5) = true := by decide +kernel

theorem test_loop_of_zero : yields (.loop i0 (.reg 2) 0) (lab (run [])) (fun t =>
    (t.thread x0).pc == 8 && (t.thread x0).bank.depth == 0) = true := by decide +kernel

theorem witness_ExceptionEntry :
    let th := withCopies (run []) [(0x08, dMach)]
    th.inShadow = false ∧ th.ltn.legacy = false ∧ (Store.get Desc.reset th.ltn.copies 8).invalid 8 = false := by decide +kernel

theorem test_brk : yields (.brk (.compute i0)) (lab (withCopies (run [(29, 0x500)]) [(0x08, dMach)])) (fun t =>
    let th := t.thread x0
    th.inShadow && th.pc == 0x1000 && th.g 26 == 0x0000C008 && th.g 27 == 0 && th.g 28 == 0 && th.g 29 == 0x500) = true := by
  decide +kernel

theorem witness_InvalidEntry :
    let th := withCopies (run []) [(0x3F, dMach)]
    th.inShadow = false ∧ th.ltn.legacy = false ∧ (Store.get Desc.reset th.ltn.copies 8).invalid 8 = true ∧
    (Store.get Desc.reset th.ltn.copies 0x3F).invalid 0x3F = false ∧
    (Store.get Desc.reset (run []).ltn.copies 0x3F).invalid 0x3F = true := by decide +kernel

theorem test_machine_check : yields (.brk (.compute i0)) (lab (withCopies (run []) [(0x3F, dMach)])) (fun t =>
    (t.thread x0).pc == 0x1000 && (t.thread x0).g 27 == 8) = true := by decide +kernel

theorem test_lockup : yields (.brk (.compute i0)) (lab (run [])) (fun t =>
    decide ((t.thread x0).status = .lockedUp) && (t.thread x0).ltn.cause2 == 8 && (t.quad 0).reports.length == 1) = true := by
  decide +kernel

theorem witness_ShadowException : ({ run [] with inShadow := true } : Thread).inShadow = true ∧
    yields (.brk (.compute i0)) (lab { run [] with inShadow := true }) (fun t => decide ((t.thread x0).status = .lockedUp)) = true := by
  decide +kernel

theorem test_trap_returns_to_next : yields (.trap (.compute i0) 5 0) (lab (withCopies (run []) [(0x85, dMach)])) (fun t =>
    (t.thread x0).pc == 0x1000 && (t.thread x0).g 28 == 4) = true := by decide +kernel

theorem witness_Trap : ((lab { run [] with inShadow := true }).issuer i0).inShadow = true ∧
    ((lab { run [] with priv := .user }).issuer i0).priv ≠ .machine ∧
    Fires (lab { run [] with priv := .user }) i0 {} ∧ Fires (lab { run [] with inShadow := true }) i0 {} ∧
    ((lab (run [])).issuer i0).inShadow = false ∧ ((lab (run [])).issuer i0).status = .running := by decide +kernel

theorem test_unassigned : yields (.unassignedEncoding i0 0x0FC00000) (lab (withCopies (run []) [(1, dMach)])) (fun t =>
    (t.thread x0).pc == 0x1000) = true := by decide +kernel

theorem test_halt : yields (.halt i0) (lab (run [])) (fun t => decide ((t.thread x0).status = .disabled)) = true := by decide +kernel

theorem test_nop : yields (.nop i0) (lab (run [])) (fun t => (t.thread x0).pc == 4) = true := by decide +kernel

/-- A thread whose wake set holds source 16. -/
def woken : Thread :=
  { run [] with
      ctl := { TCtl.reset with wakeMask := 0x10000 }
      ltn := { Lantern.reset with edge := 0x10000 } }

theorem witness_Wait : (lab woken).wakeSet woken ≠ 0 ∧ (lab (run [])).wakeSet (run []) = 0 ∧
    Fires (lab woken) i0 { wg := [1] } ∧
    yields (.wait i0 1) (lab woken) (fun t => (t.thread x0).g 1 == 0x10000 && (t.thread x0).pc == 4) = true ∧
    yields (.wait i0 1) (lab (run [])) (fun t => decide ((t.thread x0).status = .blocked (.wait 1))) = true := by decide +kernel

theorem witness_waitWake :
    yields (.waitWake x0) (lab { woken with status := .blocked (.wait 1) })
      (fun t => (t.thread x0).g 1 == 0x10000 && decide ((t.thread x0).status = .running)) = true ∧
    yields (.waitWake x0) (lab { run [] with status := .blocked (.wait 1) })
      (fun t => decide ((t.thread x0).status = .blocked (.wait 1))) = true := by decide +kernel

/-- A load in flight. -/
def flying : Thread := { run [] with loads := [{ shadow := false, g := [(1, 7)], v := none, left := 1, arrived := false }] }

theorem witness_Fences : ((lab (run [])).issuer i0).loads.all (·.arrived) = true ∧
    ((lab flying).issuer i0).loads.all (·.arrived) = false ∧ Fires (lab flying) i0 {} ∧
    (lab (run [])).fenceSDone x0 = true ∧ ({ run [] with posted := 1 } : Thread).posted ≠ 0 := by decide +kernel

theorem test_fence_l_waits : yields (.fenceL i0) (lab flying)
    (fun t => decide ((t.thread x0).status = .blocked .fenceL)) = true := by decide +kernel

theorem test_fence_d_waits : yields (.fenceD i0) (lab { run [] with posted := 1 })
    (fun t => decide ((t.thread x0).status = .blocked .fenceD)) = true := by decide +kernel

theorem test_fence_s : yields (.fenceS i0) (lab (run [])) (fun t => (t.thread x0).pc == 4) = true := by decide +kernel

/-- A core whose stream of thread 0 runs. -/
def streaming : State :=
  { lab (run []) with cores := [(0, { Core.reset with slots := [(0, { Stream.reset with state := 1, owner := x0 })] })] }

theorem witness_fenceS_waits : streaming.fenceSDone x0 = false ∧ Fires streaming i0 {} := by decide +kernel

theorem witness_tickEnd : (run []).ctl.bound = true ∧ (lab (run [])).queuedOf x0 = [] ∧
    ((lab (run [])).modCore 0 fun k => { k with queueM := [{ seq := 0, thread := 0, pc := 0, ins := .mzero 3, rmode := 0, mpass := 0, start := 0, guard := false, service := false, shadow := false, dispatched := false, empties := [] }] }).queuedOf
      x0 ≠ [] ∧
    yields (.tickEnd i0) (lab (run [])) (fun t => decide ((t.thread x0).status = .tickSleep) && (t.thread x0).doneTick) =
      true := by decide +kernel

theorem witness_ShadowAndReturn :
    let sh : Thread := { run [] with inShadow := true, shadow := { Bank.reset with g := [(29, 0x1000), (28, 0x40)] } }
    let us : Thread := { run [] with priv := .user }
    Fires (lab us) i0 { g := [29] } ∧ Fires (lab us) i0 { g := [26, 28, 29] } ∧ Fires (lab us) i0 { g := [2] } ∧
    Fires (lab (run [])) i0 { g := [29] } ∧ Fires (lab sh) i0 { g := [29] } ∧ sh.priv ≠ .user ∧
    (lab sh).gPending x0 = false ∧ (sh.shadow.reg 29 - 176).toNat % 8 = 0 ∧
    ((lab sh).lanternWrites x0 || (lab sh).gPending x0) = false ∧
    (Priv.ofCode ((sh.g 26).extractLsb' 14 2)).code ≤ sh.priv.code ∧ (sh.g 28).toNat % 4 = 0 ∧
    (sh.shadow.reg 29 - 176).toNat + 176 ≤ 0xC0000 ∧ ((lab (run [])).lanternOf x0).legacy = false ∧
    ((lab { run [] with ltn := { Lantern.reset with legacy := true } }).lanternOf x0).legacy = true ∧
    fld (sh.g 0) 16 8 ≤ 256 := by decide +kernel

/-- A thread in the shadow window whose handler is to return to 0x40 at User with interrupts on. -/
def shaded : Thread :=
  { run [(5, 9)] with inShadow := true, shadow := { Bank.reset with g := [(26, 0x10000), (28, 0x40), (29, 0x1000)] } }

theorem test_saveshadow : yields (.saveshadow i0) (lab shaded) (fun t =>
    (t.thread x0).g 29 == 0xF50 && (t.core 0).mem.readNat (0xF50 + 20) 4 == 9 && ! (t.thread x0).inShadow) = true := by
  decide +kernel

theorem test_eret : yields (.eret (.compute i0)) (lab shaded) (fun t =>
    (t.thread x0).pc == 0x40 && decide ((t.thread x0).priv = .user) && (t.thread x0).ltn.ie && (t.thread x0).g 5 == 9) =
    true := by decide +kernel

/-- A core whose Local holds the descriptor `dMach` at 0x80, that of vector 8. -/
def tabled : State :=
  { lab (run [(2, 0x108)]) with
      cores := [(0, { Core.reset with mem := (Mem.zeros.storeNat 0x80 8 0x1000).storeNat 0x88 8 0xF00000008000 })] }

theorem test_desc_sync : yields (.descSync i0 2) tabled (fun t =>
    decide (Store.get Desc.reset (t.thread x0).ltn.copies 8 = dMach)) = true := by decide +kernel

theorem witness_DescriptorReload :
    (fld (Store.get Desc.reset (tabled.thread x0).ltn.copies 8).ctl 13 12 ≠ 3) ∧ fixedMachine 8 = false ∧
    fixedMachine 0x3A = true ∧
    (tabled.core 0).mem.poisoned 0x80 16 = false ∧
    fld (Store.get Desc.reset (withCopies (run []) [(8, dMach)]).ltn.copies 8).ctl 13 12 = 3 ∧
    0xC0000 < (0xFF : BitVec 8).toNat * 4096 + 16 * 8 + 16 := by decide +kernel

/-- A thread whose code lies in granule 0 of its window, at Far 0x200000, in a state of its thread. -/
def fetching (st : Status) (g : Store Word) : State :=
  { lab { run g with status := st } with
      cores := [(0, { Core.reset with wcache := [{ tenant := 0, granule := 0, entry := 0x10F }] })] }

/-- The same with its miss outstanding. -/
def missing (bad : List Nat) : State :=
  let s := fetching (.blocked .fetch) []
  { s.modCore 0 fun k => { k with miss := some (x0, 0x200000) } with far := { Mem.zeros with poison := bad } }

theorem witness_InstructionCacheFill :
    let s := fetching .running [(2, 0x40), (3, 64)]
    let f := (s.fetchPhys x0 (s.codeAddr x0 0)).2
    s.spireRuns 0 = true ∧ (s.core 0).miss = none ∧ (s.fetchPhys x0 (s.codeAddr x0 0)).1 = some 0x200000 ∧
    (f.core 0).icache.hits 0x200000 = false ∧ ((Core.reset.icache.fill 0x200000 0).hits 0x200000) = true ∧
    (missing []).lineBad 0 0x200000 = false ∧ (missing [0x200000 / 8]).lineBad 0 0x200000 = true ∧
    Core.reset.icache.lock ≠ 0xF ∧ Fires s i0 { g := [2, 3] } ∧ Fires s i0 { g := [2, 4] } ∧ (s.issuer i0).g 4 = 0 ∧
    (s.issuer i0).priv ≠ .user ∧ (s.issuer i0).progressOf 6 < (0x40 + 64 - 1) / 64 + 1 - 0x40 / 64 := by decide +kernel

theorem test_icache_fill : yields (.icacheFill x0) (fetching .running []) (fun t =>
    decide ((t.thread x0).status = .blocked .fetch) && (t.core 0).icmiss == 1) = true ∧
    yields (.icacheFill x0) (missing []) (fun t =>
      decide ((t.thread x0).status = .running) && (t.core 0).icache.hits 0x200000) = true := by decide +kernel

theorem test_ipreload : yields (.ipreload i0 6 2 3) (fetching .running [(2, 0x40), (3, 65)]) (fun t =>
    decide ((t.thread x0).status = .blocked (.preload 2 1 2 0))) = true ∧
    yields (.icacheFill x0) (fetching (.blocked (.preload 2 1 2 0)) []) (fun t =>
      (t.core 0).icache.line 1 2 == 0x8002 && decide ((t.thread x0).status = .blocked (.preload 2 1 2 1))) = true := by
  decide +kernel

/-! ### Loads, stores and atomics -/

/-- A core whose Local holds 0x80FF at 0x100 and a poisoned word at 0x108. -/
def stocked (g : Store Word) : State :=
  { lab (run g) with
      cores := [(0, { Core.reset with mem := { Mem.zeros.storeNat 0x100 2 0x80FF with poison := [0x108 / 8] } })] }

theorem witness_Loads :
    let s := stocked [(2, 0x100)]
    Fires s i0 { g := [2], wg := [1] } ∧ Fires s i0 { g := [2], wg := [4, 5] } ∧ Fires s i0 { g := [2] } ∧
    (s.core 0).mem.poisoned 0x100 4 = false ∧ (s.core 0).mem.poisoned 0x108 4 = true ∧
    (s.atIssue i0).mustWait x0 0x100 4 false = false ∧ (0x102 : Nat) % 4 ≠ 0 ∧ 0xC0000 < 0xBFFFE + 4 ∧
    0xBFFFC + 4 ≤ 0xC0000 := by decide +kernel

/-- The value that a load puts in flight. -/
def inFlight (c : Instr) (s : State) (g : List (Reg × Word)) : Bool :=
  yields c s fun t => match (t.thread x0).loads with
    | [l] => decide (l.g = g) && decide (l.left = 2) && ! l.arrived
    | _ => false

theorem test_ld_extends_sign : inFlight (.ld i0 1 2 0 1) (stocked [(2, 0x100)]) [(1, 0xFFFFFF80)] = true := by decide +kernel

theorem test_ldu_extends_zero : inFlight (.ldu i0 1 2 1 0) (stocked [(2, 0x100)]) [(1, 0x80FF)] = true := by decide +kernel

theorem test_ld_pair : inFlight (.ld i0 4 2 3 0) (stocked [(2, 0x100)]) [(4, 0x80FF), (5, 0)] = true := by decide +kernel

theorem test_vld_delay : yields (.vld i0 1 2 0) (stocked [(2, 0x100)]) (fun t =>
    (t.thread x0).loads.map (·.left) == [3] && (t.thread x0).loads.map (·.v) == [some (1, 0)]) = false := by decide +kernel

theorem test_vldb_fills_lanes : yields (.vldb i0 1 2 0) (stocked [(2, 0x100)]) (fun t =>
    match (t.thread x0).loads with
    | [l] => decide (l.v = some (1, (0x80FF#64).replicate 8)) && l.left == 3
    | _ => false) = true := by decide +kernel

theorem test_load_delay : (({ lab (run []) with threads := [(0, { run [(1, 5)] with
      loads := [{ shadow := false, g := [(1, 7)], v := none, left := 0, arrived := true }] })] } : State).issuer i0).g 1 = 7 := by decide +kernel

theorem witness_LoadsLand :
    let th : Thread := { run [] with loads := [{ shadow := false, g := [(1, 7)], v := none, left := 0, arrived := false }] }
    th.loads = { shadow := false, g := [(1, 7)], v := none, left := 0, arrived := false } :: [] ∧ (lab th).ready x0 {} = false := by decide +kernel

theorem witness_load_data : (∀ b, flying.status = .blocked b → b = .fenceL) ∧
    (¬ ∃ k, k ≠ 0 ∧ ∃ l, flying.loads[k]? = some l ∧ l.arrived = false) ∧
    yields (.loadDataArrival x0 0) (lab { flying with status := .blocked .fenceL }) (fun t =>
      decide ((t.thread x0).status = .running) && (t.thread x0).pc == 4) = true := by
  refine ⟨?_, ?_, by decide +kernel⟩
  · intro b h
    exact absurd h (by simp [flying, run])
  · rintro ⟨k, hk, l, h, _⟩
    cases k with
    | zero => exact hk rfl
    | succ n => simp [flying] at h

theorem test_load_data : yields (.loadDataArrival x0 0) (lab flying) (fun t =>
    (t.thread x0).loads.map (·.arrived) == [true]) = true := by decide +kernel

theorem witness_Stores :
    let s := stocked [(2, 0x100), (4, 0x12345678)]
    Fires s i0 { g := [4, 2] } ∧ Fires s i0 { g := [4, 5, 2] } ∧ Fires s i0 { g := [2], v := [1] } ∧
    (s.atIssue i0).mustWait x0 0x100 8 true = false := by decide +kernel

theorem test_st_byte : yields (.st i0 4 2 0 1) (stocked [(2, 0x100), (4, 0x12345678)]) (fun t =>
    (t.core 0).mem.readNat 0x100 4 == 0x78FF) = true := by decide +kernel

theorem test_st_pair : yields (.st i0 4 2 3 (-1)) (stocked [(2, 0x100), (4, 1), (5, 2)]) (fun t =>
    (t.core 0).mem.readNat 0xF8 8 == 0x200000001) = true := by decide +kernel

theorem test_vst_beyond_local : yields (.vst i0 1 2 0) (lab (withCopies (run [(2, 0xC0000)]) [(4, dMach)])) (fun t =>
    (t.thread x0).pc == 0x1000 && (t.thread x0).g 27 == 0xC0000) = true := by decide +kernel

theorem test_st_misaligned : yields (.st i0 4 2 2 0) (lab (withCopies (run [(2, 2)]) [(3, dMach)])) (fun t =>
    (t.thread x0).pc == 0x1000) = true := by decide +kernel

/-- A stream of the thread copies the first 256 bytes of Local to 0x1000. -/
def copying (base : Word) : State :=
  { lab (run [(2, base)]) with
      cores := [(0, { Core.reset with nextSeq := 1, slots := [(0, { Stream.reset with
        state := 1
        owner := x0
        desc := (0x1000 : BitVec 512) <<< 64 ||| (0x100 : BitVec 512) <<< 128 })] })] }

theorem witness_RangeTracking :
    Fires (copying 0x1000) i0 { g := [2] } ∧ ((copying 0x1000).atIssue i0).mustWait x0 0x1000 4 false = true ∧
    Fires (copying 0xFC) i0 { g := [4, 2] } ∧ ((copying 0xFC).atIssue i0).mustWait x0 0xFC 4 true = true ∧
    ((copying 0x1000).core 0).mem.poisoned 0x1000 4 = false ∧
    yields (.st i0 4 2 2 0) (copying 0xFC) (fun t => (t.thread x0).pc == 0 && t.creg .memRtwait 0 0 == 1) = true ∧
    yields (.st i0 4 2 2 0) (copying 0x1100) (fun t => (t.thread x0).pc == 4) = true := by decide +kernel

theorem witness_Atomics :
    let s := stocked [(2, 0x100), (4, 0x80FF), (6, 9)]
    Fires s i0 { g := [2, 3, 6, 4] ++ [] } ∧ (2 : Reg).getLsbD 0 = false ∧ (s.issuer i0).g 3 = 0 ∧ 0x100 % 4 = 0 ∧
    (s.core 0).mem.poisoned 0x100 4 = false ∧ (s.atIssue i0).mustWait x0 0x100 4 true = false ∧
    Fires s i0 { g := [2, 3, 6, 4] ++ [7, 5] } ∧ (3 : Reg).getLsbD 0 = true ∧ 4 < (5 : BitVec 3).toNat := by decide +kernel

/-- An atomic on Local leaves a word at 0x100 and the old one in g4. -/
def atomics (op : AOp) (new : Nat) : Bool :=
  yields (atomicInstr op (.compute i0) false 0 4 2 6) (stocked [(2, 0x100), (4, 0x80FF), (6, 0x0F0F)]) fun t =>
    (t.core 0).mem.readNat 0x100 4 == new && (t.thread x0).g 4 == 0x80FF

theorem test_aswap : atomics .swap 0x0F0F = true := by decide +kernel

theorem test_acas : atomics .cas 0x0F0F = true := by decide +kernel

theorem test_aadd : atomics .add 0x900E = true := by decide +kernel

theorem test_aand : atomics .and 0x000F = true := by decide +kernel

theorem test_aor : atomics .or 0x8FFF = true := by decide +kernel

theorem test_axor : atomics .xor 0x8FF0 = true := by decide +kernel

theorem test_amin : atomics .min 0x0F0F = true := by decide +kernel

theorem test_amax : atomics .max 0x80FF = true := by decide +kernel

theorem test_aminu : atomics .minu 0x0F0F = true := by decide +kernel

theorem test_amaxu : atomics .maxu 0x80FF = true := by decide +kernel

theorem test_aload : atomics .load 0x80FF = true := by decide +kernel

theorem test_astore : atomics .store 0x0F0F = true := by decide +kernel

theorem witness_RemoteAtomics :
    let s := lab (run [(2, 0x40), (3, 0x10000), (6, 9)])
    Fires s i0 { g := [2, 3, 6, 4] ++ [] } ∧ (s.issuer i0).g 3 = 0x10000 ∧
    yields (.aadd (.compute i0) false 0 4 2 6) s (fun t => t.flight.length == 1) = true := by decide +kernel

/-- An atomic of thread 0 on its Drum, and the answer to it. -/
def addDrum : Atomic := { op := .add, wide := false, scope := 0, target := 0x0001000000000040, cmp := 0, val := 9 }

/-- A request stands at its home. -/
def atHome (b : Body) (src dst : CoreId) (resp : Bool) : Packet :=
  { id := 3, src := src, dst := dst, pos := dst, inp := 0, since := 0, resp := resp, vc1 := false, tenant := 0, epoch := 0,
    bad := false, body := b }

/-- A device in which one packet has arrived. -/
def delivered (th : Thread) (b : Body) (src dst : CoreId) (resp : Bool) : State :=
  { lab th with flight := [atHome b src dst resp] }

theorem witness_atomicAtHome :
    let p := atHome (.atomic (.thread x0) 1 addDrum 0x40) 0 (cupolaRouter 0) false
    let s := delivered (run []) p.body 0 (cupolaRouter 0) false
    s.arrived? 3 = some p ∧ p.bad = false ∧ ({ p with bad := true } : Packet).bad = true ∧ addDrum.space = 1 ∧ (s.consume 3).domOpen 0 = true ∧
    ((s.consume 3).spire 0).drum.poisoned 0x40 4 = false ∧
    yields (.atomicAtHome 3) s (fun t => (t.spire 0).drum.readNat 0x40 4 == 9 && t.flight.length == 1) = true := by decide +kernel

theorem witness_atomicResponse :
    let th : Thread := { run [] with status := .blocked (.atomic 4 addDrum 1) }
    let s := delivered th (.atomicAnswer (.thread x0) 1 7 none) (cupolaRouter 0) 0 true
    (s.thread x0).status = .blocked (.atomic 4 addDrum 1) ∧
    yields (.atomicResponse 3) s (fun t => (t.thread x0).g 4 == 7 && (t.thread x0).pc == 4) = true := by decide +kernel

/-! ### Control registers and the Lantern -/

theorem witness_ControlRegisters :
    let th := run [(1, 3)]
    Fires (lab th) i0 { g := [1] } ∧ Fires (lab th) i0 { wg := [1] } ∧ tregPriv 0x0FF = none ∧ tregPriv 0x000 = some (.user, some .user) ∧
    Fires (lab { th with priv := .user }) i0 { g := [1] } ∧ 0x400 ≤ (0x4FF : BitVec 12).toNat ∧ 4 < (5 : Word).toNat % 8 := by
  decide +kernel

theorem test_ctlr_tstat : yields (.ctlr (.compute i0) 1 0) (lab { run [] with main := { Bank.reset with n := true, p1 := true } })
    (fun t => (t.thread x0).g 1 == 0x328) = true := by decide +kernel

theorem test_ctlw_fpstat_clears : yields (.ctlw (.compute i0) 1 2) (lab { run [(1, 3)] with ctl := { TCtl.reset with fpstat := 7 } })
    (fun t => (t.thread x0).ctl.fpstat == 4) = true := by decide +kernel

theorem test_ctls : yields (.ctls (.compute i0) 1 6) (lab { run [(1, 3)] with ctl := { TCtl.reset with wakeMask := 4 } })
    (fun t => (t.thread x0).ctl.wakeMask == 7) = true := by decide +kernel

theorem test_ctlc : yields (.ctlc (.compute i0) 1 6) (lab { run [(1, 3)] with ctl := { TCtl.reset with wakeMask := 7 } })
    (fun t => (t.thread x0).ctl.wakeMask == 4) = true := by decide +kernel

theorem witness_ControlSpaceFromThreads :
    let s := lab (run [(2, 0x201000)])
    Fires s i0 { g := [1, 2] } ∧ Fires s i0 { g := [2], wg := [1] } ∧ (s.issuer i0).priv ≠ .user ∧ ((s.issuer i0).g 2).toNat % 4 = 0 ∧
    heldWrite x0 0x201000 = false ∧ s.spireRuns 0 = true ∧ s.addrOpen 0x201000 = true ∧ s.retiredAt 0x201000 = false ∧
    yields (.ctlwx i0 1 2 0) s (fun t => (t.thread x0).posted == 1 && t.flight.length == 1) = true := by decide +kernel

theorem witness_ctlrxResponse :
    let addr := BitVec.ofNat 32 (CReg.pwrIdle.addr 0 0)
    let th : Thread := { run [] with status := .blocked (.ctlrx 1 addr 5) }
    let r := delivered th (.ctlRead x0 5 addr) 0 (servicePort 0) false
    let d := delivered th (.ctlData x0 5 7 none) (servicePort 0) 0 true
    r.ctlPacket (ctlReadOf x0 (some addr)) = some (atHome (.ctlRead x0 5 addr) 0 (servicePort 0) false) ∧
    d.ctlPacket (ctlDataOf x0) = some (atHome (.ctlData x0 5 7 none) (servicePort 0) 0 true) ∧ d.spireRuns 0 = true ∧
    addr.toNat % 4 = 0 ∧ (r.consume 3).addrOpen addr.toNat = true ∧ (r.consume 3).retiredAt addr.toNat = false ∧
    ({ calm with doms := [] } : State).addrOpen 0x100000 = false ∧
    yields (.readClearAccess (.thread x0) addr) r (fun t => t.flight.map (·.body) == [.ctlData x0 5 0x64 none]) = true ∧
    yields (.ctlrxResponse x0) d (fun t => decide ((t.thread x0).status = .running) && (t.thread x0).g 1 == 7) = true := by
  decide +kernel

theorem witness_controlWrite :
    let p := atHome (.ctlWrite x0 .machine (BitVec.ofNat 32 (CReg.pwrIdle.addr 0 0)) 7) 0 (servicePort 0) false
    let s := delivered (run []) p.body 0 (servicePort 0) false
    s.arrived? 3 = some p ∧ yields (.controlWriteArrival 3) s (fun t => t.flight.length == 1) = true := by decide +kernel

theorem witness_ControlSpaceAccess :
    let a := CReg.cupClim.addr 5 9
    locate a = some (.cupClim, 5, 9) ∧ splLockAt a = none ∧ lanternAt a = none ∧ a < 2 ^ 32 ∧ a % 4 = 0 ∧
    CReg.pwrIdle.addr 0 0 < 0x1000000 ∧ calm.gate (.host 0) .machine .pwrIdle 0 = .ok ∧ calm.gate duet .machine .cupClim 5 = .ok ∧ calm.blockOpen .cupClim 5 = true ∧
    calm.hasWay (.host 0) .cupClim 5 = true ∧ CReg.cupClim.row.rc = 0 ∧ calm.domOpen 92 = true ∧
    bit (calm.creg .keepBootstat 0 0) 7 = false ∧ calm.gate (.host 0) .machine .cupClim 5 = .ok ∧
    ({ calm with doms := [] } : State).blockOpen .cupClim 5 = false ∧ calm.gate .jtag .machine .cupClim 5 = .ignore := by
  decide +kernel

theorem test_register_write : yields (.registerWrite duet (BitVec.ofNat 32 (CReg.cupClim.addr 5 9)) 7) calm
    (fun t => t.creg .cupClim 5 9 == 7) = true := by decide +kernel

theorem test_read_clear : yields (.readClearAccess (.host 0) (BitVec.ofNat 32 (CReg.pwrIdle.addr 0 0))) calm
    (fun t => t.toHost.length == 1) = true := by decide +kernel

theorem test_bar0 : yields (.bar0Access 0 (BitVec.ofNat 32 (CReg.tickLead.addr 0 0)) 4 none) calm
    (fun t => t.toHost == [.data [0x40, 0x1F, 0, 0]]) = true := by decide +kernel

theorem witness_misaligned : (0x201002 : BitVec 32).toNat % 4 ≠ 0 ∧ ((lab (run [])).thread x0).status = .running ∧
    yields (.registerWrite (.thread x0) 0x201002 1) (lab (withCopies (run []) [(3, dMach)])) (fun t =>
      (t.thread x0).pc == 0x1000 && (t.thread x0).g 27 == 0x201002) = true := by decide +kernel

theorem witness_HostAndJtag : calm.domOpen 92 = true ∧ (8 : Nat) ≠ 4 ∧ calm.domOpen 93 = true ∧ calm.dbgLevel = 0 ∧
    yields (.jtagInstruction .bypass) calm (fun t => decide (t.keep.jtag = .bypass)) = true := by decide +kernel

/-- A thread with an enabled source 16 pending. -/
def called : Thread :=
  { run [(7, 1)] with
      pc := 0x20
      ltn := { Lantern.reset with
        ie := true
        en := 0x10000
        edge := 0x10000
        prio := [(16, 5)]
        copies := [(0x50, dMach)] } }

theorem witness_Lantern :
    (lab called).bestSource called = some 16 ∧ (lab called).spireRuns 0 = true ∧ called.status = .running ∧
    called.ltn.machPend = [] ∧ called.ltn.underDue = false ∧ called.inShadow = false ∧ called.ltn.legacy = false ∧
    ({ called.ltn with slotUnder := true } : Lantern).underDue = true ∧ (lab (run [])).bestSource (run []) = none ∧
    (Store.get Desc.reset called.ltn.copies 0x50).invalid 0x50 = false := by decide +kernel

theorem witness_slotUnderrun :
    let th : Thread := { called with ltn := { called.ltn with slotUnder := true, copies := [(0x39, dMach)] } }
    th.ltn.slotUnder = true ∧ th.ltn.ie = true ∧ (Store.get Desc.reset th.ltn.copies 0x39).invalid 0x39 = false ∧
    yields (.slotUnderrunDelivery x0 0) (lab th) (fun t => (t.thread x0).pc == 0x1000) = true := by decide +kernel

theorem witness_LanternWrites :
    let s := lab { called with ltn := { called.ltn with stack := [(16, 5)] } }
    let l := lab { run [] with status := .lockedUp }
    (s.lanternOf x0).legacy = false ∧ s.lanternGate duet x0 false = .ok ∧ s.lanternGate duet x0 true = .ok ∧ (l.thread x0).status = .lockedUp ∧
    256 < fld (0x10100 : Word) 16 8 ∧
    yields (.ltnLockupReset duet x0) l (fun t => decide ((t.thread x0).status = .disabled)) = true ∧
    yields (.ltnSyncWrite duet x0 0x10100) s (fun t => (t.thread x0).pc == 0x20) = true ∧
    yields (.ltnWatchWrite duet x0 2 0x80000005) s (fun t => Store.get 0 (t.thread x0).ltn.watch 2 == 0x80000005) = true ∧
    yields (.ltnWtgtWrite duet x0 7 9) s (fun t => Store.get 0 (t.thread x0).ltn.wtgt 7 == 9) = true := by decide +kernel

theorem test_swset : yields (.ltnSwsetWrite duet x0 0xFFFFFFFF) (lab (run []))
    (fun t => (t.thread x0).ltn.edge == 0x00FF0000) = true := by decide +kernel

theorem test_pclr : yields (.ltnPclrWrite duet x0 0x10000) (lab called) (fun t => (t.thread x0).ltn.edge == 0) = true := by
  decide +kernel

theorem test_eoi_of_another : yields (.ltnEoiWrite duet x0 3) (lab (withCopies (run []) [(0x3A, dMach)]))
    (fun t => (t.thread x0).pc == 0x1000) = true := by decide +kernel

theorem witness_ThreadRegisters :
    let s := lab (run [])
    let c := lab { run [] with ctl := { TCtl.reset with cmpen := true, cmp := 0 } }
    let e := lab { run [] with ltn := { Lantern.reset with atom := .running 9 } }
    s.supervises duet 0 = true ∧ s.supervises (.thread { core := 1, thread := 0 }) 0 = false ∧ c.domCarries 0 = true ∧
    (c.thread x0).ctl.cmpen = true ∧ (c.thread x0).ctl.cmp.toNat ≤ c.cyc 0 ∧ (s.thread x0).ctl.cmpen = false ∧
    e.now < 9 ∧ 9 ≤ ({ e with now := 9 } : State).now ∧
    yields (.compareTimerFire x0) c (fun t => (t.thread x0).ltn.edge == 2) = true ∧
    yields (.atomicSectionExpiry x0) { e with now := 9 } (fun t => decide ((t.thread x0).ltn.atom = .expired)) = true := by
  decide +kernel

theorem test_thread_en : yields (.threadEnWrite duet 0 2) (lab (run [])) (fun t =>
    decide ((t.thread x0).status = .disabled) && decide ((t.thread { core := 0, thread := 1 }).status = .armed)) = true := by
  decide +kernel

theorem test_tcfg_bound_waits : yields (.tcfgWrite duet x0 2) (lab (run [])) (fun t =>
    (t.thread x0).ctl.bound && ! (t.thread x0).ctl.boundNext && (t.thread x0).ctl.cmpen) = true := by decide +kernel

theorem test_icctl : yields (.icctlWrite duet 0 3) (lab (run [])) (fun t => (t.core 0).icache.lock == 3) = true := by decide +kernel

theorem test_cmp_halves : yields (.cmpHiWrite x0 1) (lab { run [] with ctl := { TCtl.reset with cmpLoHeld := 2 } })
    (fun t => (t.thread x0).ctl.cmp == 0x100000002) = true := by decide +kernel

theorem test_cmp_low_waits : yields (.cmpLoWrite x0 1) (lab (run [])) (fun t =>
    (t.thread x0).ctl.cmp == BitVec.allOnes 64 && (t.thread x0).ctl.cmpLoHeld == 1) = true := by decide +kernel

theorem test_cyc_latches : yields (.cycLoRead x0) (lab (run [])) (fun t => (t.thread x0).ctl.cycHi == some 0) = true := by
  decide +kernel

/-! ### Channels and the dynamic mesh -/

/-- An open handle to endpoint 0 of thread 0 of core 40 with a share and credit. -/
def hOpen (credit : Nat) : Handle :=
  { opened := true, ep := 0x280, slot := 0, epoch := 0, share := 8, credit := credit, unacked := 0, status := 0,
    part := [], hold := 0 }

/-- A thread whose handle 0 is as given. -/
def holding (g : Store Word) (h : Handle) : Thread := { run g with handles := [(0, h)] }

theorem witness_chopen :
    let full : Thread := { run [(2, 0x280)] with handles := (List.range 8).map fun k => (k, hOpen 8) }
    Fires (lab full) i0 { g := [2], wg := [1] } ∧ Fires (lab (run [(2, 0x280)])) i0 { g := [2], wg := [1] } ∧ (∀ h, (full.handle h).opened = true) ∧
    ((run [(2, 0x280)]).handle 0).opened = false ∧
    yields (.chopen i0 1 2 0) (lab full) (fun t => (t.thread x0).g 1 == 0xFFFFFFFF && (t.thread x0).bank.v) = true ∧
    yields (.chopen i0 1 2 0) (lab (run [(2, 0x280)]))
      (fun t => t.flight.map (·.dst) == [40] && decide ((t.thread x0).status = .blocked (.chopen 1 0))) = true := by decide +kernel

/-- A thread whose endpoint 0 is enabled and shares its credit by `EPCFG`. -/
def open0 (cfg : Word) (os : Store Opener) (q : List QWord) : Thread :=
  { run [] with eps := [(0, { cfg := cfg, openers := os, queue := q })] }

/-- Another thread. -/
def x1 : Tid := { core := 1, thread := 0 }

theorem witness_chopenRequest :
    let p := atHome (.chopen x1 5 0) 1 0 false
    let e := (open0 1 [] []).ep 0
    (delivered (run []) p.body 1 0 false).arrived? 3 = some p ∧ bit e.cfg 0 = true ∧ e.opener 0 = .free ∧
    e.share 0 = 8 ∧ e.granted = 0 ∧ bit ((run []).ep 0).cfg 0 = false ∧ ((open0 0x3 [] []).ep 0).share 0 = 0 ∧
    yields (.chopenRequest 3) (delivered (open0 1 [] []) p.body 1 0 false)
      (fun t => ((t.thread x0).ep 0).opener 0 == .opened x1 0 8) = true := by decide +kernel

theorem witness_chopenReply :
    let th : Thread := { run [] with status := .blocked (.chopen 1 5) }
    (th.handle 0).opened = false ∧
    yields (.chopenReply 3) (delivered th (.chopenReply x0 5 0 0x280 2 8 0) 40 0 true) (fun t =>
      (t.thread x0).g 1 == 0 && ((t.thread x0).handle 0).credit == 8 && ((t.thread x0).handle 0).slot == 2) = true ∧
    yields (.chopenReply 3) (delivered th (.chopenReply x0 5 5 0x280 0 0 0) 40 0 true) (fun t =>
      (t.thread x0).g 1 == 0xFFFFFFFF && (t.thread x0).ctl.ssCode == 5) = true := by decide +kernel

theorem witness_send :
    let th := holding [(2, 1), (3, 2)] (hOpen 8)
    Fires (lab th) i0 { g := (List.range (2 * min (1 : Reg).toNat 8)).map fun k => 2 + BitVec.ofNat 5 k } ∧
    Fires (lab th) i0 { v := [2] } ∧ (th.handle 0).opened = true ∧ (th.handle 0).status = 0 ∧ th.progressOf 5 = 0 ∧
    ({ th with ctl := { th.ctl with progress := 0x85000001 } } : Thread).progressOf 5 = [7].length ∧
    7 < (8 : Reg).toNat ∧ (2 : Reg).toNat + 2 * 1 ≤ 32 ∧ 32 < (30 : Reg).toNat + 2 * 2 := by decide +kernel

theorem test_send : yields (.send i0 0 2 1) (lab (holding [(2, 1), (3, 2)] (hOpen 8))) (fun t =>
    let u := t.injectWord x0
    t.flight == [] && ((t.thread x0).handle 0).credit == 7 && u.flight.map (·.dst) == [40] &&
    u.flight.map (·.body) == [.message x0 0 0x280 0 0 [0x200000001] []] && decide ((u.thread x0).status = .running) &&
    ! (u.thread x0).bank.v) = true := by decide +kernel

theorem test_send_without_credit : yields (.send i0 0 2 1) (lab (holding [] (hOpen 0)))
    (fun t => t.flight == [] && decide ((t.thread x0).status ≠ .running)) = true := by decide +kernel

theorem test_send_closed : yields (.send i0 0 2 1) (lab (run [])) (fun t =>
    (t.thread x0).ctl.ssCode == 4 && (t.thread x0).bank.v) = true := by decide +kernel

theorem test_sendv : yields (.sendv i0 0 2 0) (lab (holding [] (hOpen 8))) (fun t =>
    ((t.thread x0).handle 0).credit == 0 && decide ((t.thread x0).status = .blocked (.inject 0 (List.replicate 8 0) 0))) = true := by decide +kernel

theorem test_sendv_above_share : yields (.sendv i0 0 2 0) (lab (holding [] { hOpen 8 with share := 7 })) (fun t =>
    (t.thread x0).ctl.ssCode == 7) = true := by decide +kernel

theorem witness_sendTimeout :
    let th : Thread := { run [] with status := .blocked (.send 0 [0] (some 9)) }
    (9 ≤ ({ lab th with now := 9 } : State).now) ∧ (lab th).now < 9 ∧ (lab th).comes (creditFor x0 0) = false ∧
    (delivered th (.credit x0 0 1) 40 0 true).comes (creditFor x0 0) = true ∧
    yields (.sendTimeoutExpiry x0) { lab th with now := 9 } (fun t =>
      (t.thread x0).ctl.ssCode == 1 && (t.thread x0).bank.v) = true := by decide +kernel

/-- A word that waits, the last of its message. -/
def word (w : DWord) (bad : Bool) : QWord := { word := w, last := true, slot := 0, poison := bad }

theorem witness_recv :
    Fires (lab (open0 1 [] [])) i0 { wg := [4, 5] } ∧ Fires (lab (open0 1 [] [])) i0 { wv := [4] } ∧
    ((open0 1 [] []).ep 0).queue = [] ∧ ((open0 1 [] [word 7 false]).ep 0).queue = word 7 false :: [] ∧
    (word 7 true).poison = true ∧ 8 ≤ (List.replicate 8 (word 7 false)).length ∧
    yields (.recv i0 4 0 0) (lab (open0 1 [] [])) (fun t => decide ((t.thread x0).status = .blocked (.recv 4 0))) = true := by
  decide +kernel

theorem test_recv : yields (.recv i0 4 0 0) (lab (open0 1 [] [word 0x200000001 false])) (fun t =>
    (t.thread x0).g 4 == 1 && (t.thread x0).g 5 == 2 && (t.thread x0).bank.c && ! (t.thread x0).bank.z) = true := by decide +kernel

theorem test_recv_nb_empty : yields (.recvNb i0 4 0 0) (lab (open0 1 [] [])) (fun t =>
    (t.thread x0).bank.z && (t.thread x0).pc == 4) = true := by decide +kernel

theorem test_recvv : yields (.recvv i0 4 0 0) (lab (open0 1 [] (List.replicate 8 (word 7 false)))) (fun t =>
    (t.thread x0).v 4 == (7#64).replicate 8 && ((t.thread x0).ep 0).queue == []) = true := by decide +kernel

theorem test_recv_poison : yields (.recv i0 4 0 0) (lab (withCopies (open0 1 [] [word 7 true]) [(5, dMach)])) (fun t =>
    (t.thread x0).pc == 0x1000 && ((t.thread x0).ep 0).queue.length == 0) = true := by decide +kernel

theorem witness_channelMessage :
    let th := open0 1 [(0, .opened x1 2 8)] []
    let s := delivered th (.message x1 2 0 0 0 [7] []) 1 0 false
    (s.thread x0).epoch = 0 ∧ ((s.thread x0).ep 0).opener 0 = .opened x1 2 8 ∧ s.domOpen 0 = true ∧
    yields (.channelMessageArrival 3) s (fun t => ((t.thread x0).ep 0).queue.map (·.word) == [7] &&
      t.flight.map (·.body) == [.msgAck x1 2 0]) = true ∧
    yields (.channelMessageArrival 3) (delivered th (.message x1 2 0 0 9 [7] []) 1 0 false) (fun t =>
      ((t.thread x0).ep 0).queue == [] && t.flight.map (·.body) == [.msgAck x1 2 2]) = true := by decide +kernel

theorem witness_credit :
    yields (.creditReturn 3) (delivered (holding [] (hOpen 7)) (.credit x0 0 2) 40 0 true)
      (fun t => ((t.thread x0).handle 0).credit == 8) = true ∧
    yields (.creditReturn 3) (delivered (holding [] (hOpen 0)) (.credit x0 0 2) 40 0 true)
      (fun t => ((t.thread x0).handle 0).credit == 2 && (t.thread x0).ltn.edge == 0x80) = true := by decide +kernel

theorem witness_chclose : Fires (lab (holding [] (hOpen 8))) i0 {} ∧
    yields (.chclose i0 0 0 0) (lab (holding [] { hOpen 8 with unacked := 1 })) (fun t =>
      decide ((t.thread x0).status = .blocked (.chclose 0))) = true ∧
    yields (.chclose i0 0 0 0) (lab (run [])) (fun t => (t.thread x0).ctl.ssCode == 4) = true ∧
    yields (.chclose i0 0 0 0) (lab (holding [] (hOpen 8))) (fun t =>
      t.flight.map (·.body) == [.chclose x0 0 0x280 0] && (t.thread x0).posted == 1) = true ∧
    yields (.channelMessageArrival 3) (delivered (open0 1 [(0, .opened x1 2 8)] []) (.chclose x1 2 0 0) 1 0 false) (fun t =>
      decide (((t.thread x0).ep 0).opener 0 = .free) && t.flight.map (·.body) == [.ack (.thread x1) none]) = true := by
  decide +kernel

theorem witness_closeNotice : yields (.closeNotice 3) (delivered (holding [] (hOpen 8)) (.closeNotice x0 0 0x280 0) 40 0
    false) (fun t => ! ((t.thread x0).handle 0).opened && t.flight.length == 1) = true := by decide +kernel

theorem witness_epcfgDisable : yields (.epcfgDisable x0 0) (lab (open0 1 [] [])) (fun t =>
    ((t.thread x0).ep 0).cfg == 0) = true := by decide +kernel

theorem witness_acknowledgement : yields (.dmeshAckArrival 3)
    (delivered { run [] with posted := 1 } (.ack (.thread x0) (some (0x20, 7))) 5 0 true) (fun t =>
      (t.thread x0).posted == 0 && (t.thread x0).refusals.length == 1) = true := by decide +kernel

theorem witness_postedRefusal :
    let th := withCopies { run [] with refusals := [{ cause := 0x20, detail := 7 }] } [(0x20, dMach)]
    (lab th).spireRuns 0 = true ∧ th.refusals = { cause := 0x20, detail := 7 } :: [] ∧ th.inShadow = false ∧
    yields (.postedRefusal x0) (lab th) (fun t => (t.thread x0).pc == 0x1000 && (t.thread x0).g 27 == 7) = true := by decide +kernel

theorem witness_Hop :
    let p : Packet := { id := 3, src := 0, dst := 40, pos := 0, inp := 0, since := 0, resp := false, vc1 := false, tenant := 0,
                        epoch := 0, bad := false, body := .credit x0 0 1 }
    let s : State := { calm with flight := [p] }
    s.bufferHead p = true ∧ (Store.get DOut.reset s.douts p.output).until_ ≤ s.now ∧
    (s.granted p.output).map (·.id) = some 3 ∧ ({ s with doms := [] } : State).domOpen 68 = false ∧
    ({ s with flight := [{ p with pos := 40 }] } : State).bufferHead { p with pos := 40 } = false ∧
    s.flight.find? (fun p => decide (p.id = 3)) = some p ∧ p.pos ≠ p.dst ∧ s.domOpen 68 = true ∧
    yields (.dmeshPacketHop 3 .none) s (fun t => t.flight.map (·.pos) == [nextRouter 0 40]) = true ∧
    yields (.dmeshPacketHop 3 .header) s (fun t => t.flight == [] && (t.quad 0).reports.length == 1) = true := by decide +kernel

/-! ### Counters, locks and dispatch -/

/-- The device of a thread whose tenant owns the first units of Spire 0: counter 5 holds 7 and takes 9 at most. -/
def owned (th : Thread) : State :=
  ((({ lab th with cores := [(0, { Core.reset with cmap := 1, lmap := 1 })] } : State).setCreg .cupCunit 0 0 0x10).setCreg
    .cupCval 0 5 7).setCreg .cupClim 0 5 9

theorem witness_Signal :
    let s := owned (run [])
    bit (s.ctrUnit 5) 4 = true ∧ ((s.signal .agent 5 2 false).1.ctrVal 5) = 9 ∧
    (s.signal .agent 5 3 false).2 = some (0x21, 5) ∧ (s.signal .agent 5 (-8) false).2 = some (0x20, 5) ∧
    ((s.signal .agent 5 (-7) true).1.ctrVal 5) = 0 ∧ bit (s.ctrUnit 64) 4 = false ∧
    (s.signal .agent 64 1 false).2 = some (0x25, 64) := by decide +kernel

theorem witness_WaitersJudged :
    let w : Waiter := { obj := 5, want := .swait (.thread x0) 1 7 }
    w.want = .swait (.thread x0) 1 7 ∧ (judgeWaiter 7 false w).1 = some 0 ∧ (judgeWaiter 6 false w).2.2 = some w ∧
    (judgeWaiter 6 true w).1 = some 2 := by decide +kernel

theorem witness_SynchronisationInstructions :
    let s := owned (run [(2, 5), (4, 1), (6, 0x04010005)])
    Fires s i0 { g := [2, 4] } ∧ Fires s i0 { g := [2, 3, 4], wg := [8, 9] } ∧ Fires s i0 { g := [2, 3], wg := [8] } ∧
    Fires s i0 { g := [2] } ∧ ((s.issuer i0).g 2).toNat < 2 ^ 14 ∧ bit ((s.issuer i0).g 2) 26 = false ∧
    (s.core 0).mapsCtr 5 = true ∧ (s.core 0).mapsCtr 64 = false ∧ (s.core 0).mapsLock 5 = true ∧
    (s.core 0).mapsLock 16 = false ∧ bit (0x04010005 : Word) 26 = true ∧
    (0x04010005 : Word).extractLsb' 16 10 ≠ s.devId := by decide +kernel

/-- An instruction sends one request to the Cupola of Spire 0. -/
def asks (c : Instr) (b : Body) (waits : Bool) : Bool :=
  yields c (owned (run [(2, 5), (4, 1)])) fun t =>
    t.flight.map (·.body) == [b] && t.flight.map (·.dst) == [cupolaRouter 0] &&
    (decide ((t.thread x0).status = .running)) == ! waits

theorem test_sig : asks (.sig (.compute i0) 0 2 4) (.signal (.thread x0) 5 1 false) false = true := by decide +kernel

theorem test_sigp : asks (.sigp (.compute i0) 0 2 4) (.signal (.thread x0) 5 1 true) false = true := by decide +kernel

theorem test_swait : asks (.swait (.compute i0) 8 2 4) (.swait (.thread x0) 0 5 1) true = true := by decide +kernel

theorem test_lock : asks (.lock (.compute i0) 8 2 0) (.lock (.thread x0) 0 5 none) true = true := by decide +kernel

theorem test_unlock : asks (.unlock (.compute i0) 0 2 0) (.unlock (.thread x0) 5) false = true := by decide +kernel

/-- A request of thread 0 at Spire 0's Cupola. -/
def asked (s : State) (b : Body) : State := { s with flight := [atHome b 0 (cupolaRouter 0) false] }

theorem witness_CupolaRequests :
    let s := owned (run [])
    (asked s (.signal (.thread x0) 5 2 false)).arrived? 3 = some (atHome (.signal (.thread x0) 5 2 false) 0 (cupolaRouter 0)
      false) ∧ s.domOpen 0 = true ∧ ({ s with doms := [] } : State).domOpen 0 = false ∧ s.ctrPoison 5 = false ∧
    (s.lock 5).holder = none ∧ s.ownsCtr 0 5 = true ∧ (s.spire 0).waiters.length < 512 ∧
    (s.setCreg .cupLcfg 0 5 3).lockRank 5 = 3 := by decide +kernel

theorem test_counter_signal : yields (.counterSignal 3) (asked (owned (run [])) (.signal (.thread x0) 5 2 false)) (fun t =>
    t.ctrVal 5 == 9 && t.flight.map (·.body) == [.ack (.thread x0) none]) = true := by decide +kernel

theorem test_swait_met : yields (.swaitRequest 3) (asked (owned (run [])) (.swait (.thread x0) 1 5 7)) (fun t =>
    t.flight.map (·.body) == [.swaitAnswer (.thread x0) 1 7 0 none]) = true := by decide +kernel

theorem test_swait_waits : yields (.swaitRequest 3) (asked (owned (run [])) (.swait (.thread x0) 1 5 8)) (fun t =>
    t.flight == [] && (t.spire 0).waiters.length == 1) = true := by decide +kernel

theorem test_lock_granted : yields (.lockRequest 3) (asked (owned (run [])) (.lock (.thread x0) 1 5 none)) (fun t =>
    (t.lock 5).holder == some (.thread x0) && t.flight.map (·.body) == [.lockGrant (.thread x0) 1 5 0 none]) = true := by decide +kernel

theorem test_lock_rank : yields (.lockRequest 3) (asked (owned (run [])) (.lock (.thread x0) 1 5 (some 0))) (fun t =>
    (t.lock 5).holder == none && t.flight.map (·.body) == [.lockGrant (.thread x0) 1 5 0 (some (0x22, 5))]) = true := by decide +kernel

/-- Lock 5 is held by a thread. -/
def locked5 (x : Tid) : State := (owned (run [])).setLock 5 { holder := some (.thread x), broken := false }

theorem test_unlock_request : yields (.unlockRequest 3) (asked (locked5 x0) (.unlock (.thread x0) 5)) (fun t =>
    (t.lock 5).holder == none && t.flight.map (·.body) == [.ack (.thread x0) none]) = true ∧
    yields (.unlockRequest 3) (asked (locked5 x1) (.unlock (.thread x0) 5)) (fun t =>
      t.flight.map (·.body) == [.ack (.thread x0) (some (0x23, 5))]) = true := by decide +kernel

theorem witness_lock_held : ((locked5 x1).lock 5).holder ≠ none ∧
    yields (.lockRequest 3) (asked (locked5 x1) (.lock (.thread x0) 1 5 none)) (fun t =>
      (t.spire 0).waiters.length == 1) = true := by decide +kernel

theorem test_withdrawal : yields (.waiterWithdrawal 3)
    (asked ((owned (run [])).modSpire 0 fun k => { k with waiters := [{ obj := 5, want := .swait (.thread x0) 1 8 }] })
      (.withdraw (.thread x0) 1 false 5)) (fun t => (t.spire 0).waiters == []) = true := by decide +kernel

theorem test_watch : yields (.watchRegistration 3)
    (asked (owned (run [])) (.watchReg (.lantern x0 2) 0 5 (some 7))) (fun t =>
      (t.spire 0).waiters.length == 1 && t.flight.map (·.body) == [.watchEvent (.lantern x0 2) true]) = true := by decide +kernel

theorem test_watch_event : yields (.watchEvent 3)
    (delivered { run [] with ltn := { Lantern.reset with watch := [(2, 0x80000005)] } } (.watchEvent (.lantern x0 2) true) 9 0
      false) (fun t => (t.thread x0).ltn.watchHigh == 4) = true := by decide +kernel

/-- A thread that waits for the answer under tag 1. -/
def awaiting : Thread := { run [] with status := .blocked (.swait 8 5 9 0 1 (some 100) none none) }

theorem witness_swaitAnswer :
    awaiting.ltn.poisonf = false ∧ ({ awaiting with ltn := { awaiting.ltn with poisonf := true } } : Thread).ltn.poisonf = true ∧
    yields (.swaitAnswer 3) (delivered awaiting (.swaitAnswer (.thread x0) 1 9 0 none) 9 0 true) (fun t =>
      (t.thread x0).g 8 == 9 && (t.thread x0).g 9 == 0 && (t.thread x0).pc == 4) = true ∧
    yields (.swaitAnswer 3) (delivered awaiting (.swaitAnswer (.thread x0) 2 9 0 none) 9 0 true) (fun t =>
      decide ((t.thread x0).status = awaiting.status)) = true ∧
    yields (.swaitAnswer 3) (delivered awaiting (.swaitAnswer (.thread x0) 1 9 3 none) 9 0 true) (fun t =>
      decide ((t.thread x0).status = .blocked (.swait 8 5 9 0 1 (some 100) (some 9) (some 64)))) = true := by decide +kernel

theorem witness_swaitTimeout :
    (lab awaiting).now < 100 ∧ 100 ≤ ({ lab awaiting with now := 100 } : State).now ∧
    (lab awaiting).comes (answerOf (.thread x0) 1) = false ∧
    (delivered awaiting (.swaitAnswer (.thread x0) 1 9 0 none) 9 0 true).comes (answerOf (.thread x0) 1) = true ∧
    yields (.swaitTimeout (.thread x0)) { lab awaiting with now := 100 } (fun t =>
      (t.thread x0).g 9 == 1 && decide ((t.thread x0).status = .running)) = true := by decide +kernel

theorem test_swait_retry :
    let th : Thread := { run [] with status := .blocked (.swait 8 5 9 0 1 (some 100) none (some 64)) }
    yields (.swaitRetry (.swait (.thread x0))) { lab th with now := 64 } (fun t => t.flight.length == 1) = true := by decide +kernel

/-- A thread that waits for a lock. -/
def locking : Thread := { run [] with status := .blocked (.lock 8 5 0 1 (some 100) none) }

theorem witness_lockGrant : yields (.lockGrant 3) (delivered locking (.lockGrant (.thread x0) 1 5 0 none) 9 0 true) (fun t =>
    (t.thread x0).rankMask == 1 && (t.thread x0).pc == 4) = true ∧
    yields (.lockTimeout (.thread x0)) { lab locking with now := 100 } (fun t => (t.thread x0).g 8 == 1) = true ∧
    (lab locking).now < 100 := by decide +kernel

/-- Slot 3 of Spire 0 waits for counter 5 to reach 7, to start thread 1 of core 2. -/
def slotted : State :=
  ((((owned (run [])).setCreg .cupDctl 0 3 0x22).setCreg .cupDwait 0 3 5).setCreg .cupDwtgt 0 3 7).setSlot 0 3 .waiting

/-- That thread, free. -/
def x21 : Tid := { core := 2, thread := 1 }

/-- The device with that thread free. -/
def dispatchable : State :=
  (slotted.setCreg .cupDent 0 3 0x400).modThread x21 fun th => { th with ctl := { th.ctl with bound := false } }

theorem witness_Dispatch :
    let s := dispatchable
    s.spireRuns 0 = true ∧ s.slotSt 0 3 = .waiting ∧ s.slotThread 0 3 = x21 ∧ (s.thread x21).status = .disabled ∧
    (s.thread x21).ctl.bound = false ∧ (s.creg .cupDwtgt 0 3).toNat ≤ (s.ctrVal (s.slotWait 0 3)).toNat ∧
    (∀ j, j < 3 → s.slotSt 0 j ≠ .waiting) ∧ bit (s.creg .cupCstat 0 5) 0 = false ∧
    (slotted.thread x21).ctl.bound = true ∧
    yields (.dispatchSlotStart 0) s (fun t => (t.thread x21).pc == 0x400 && (t.thread x21).g 1 == 3 &&
      decide (t.slotSt 0 3 = .running)) = true := by decide +kernel

theorem witness_CupolaCommands :
    let s := owned (run [])
    s.gate duet (s.agentPriv duet) .cupDctl 0 = .ok ∧ s.gate duet (s.agentPriv duet) .cupBreak 0 = .ok ∧
    s.gate duet (s.agentPriv duet) .cupCval 0 = .ok ∧ s.gate duet (s.agentPriv duet) .cupCstat 0 = .ok ∧
    s.gate (.thread x0) .machine .cupDone 0 = .ok ∧ s.gate duet (s.agentPriv duet) .bicWctr 0 = .ok ∧
    s.gate duet (s.agentPriv duet) .bicWtgt 0 = .ok := by decide +kernel

theorem test_cup_valid : yields (.cupDctlValid duet 0 3 0x122) (dispatchable.setSlot 0 3 .empty) (fun t =>
    decide (t.slotSt 0 3 = .waiting) && decide (t.slotThread 0 3 = x21)) = true := by decide +kernel

theorem test_cup_cancel : yields (.cupDctlCancel duet 0 3 0x22) dispatchable (fun t => decide (t.slotSt 0 3 = .empty)) =
    true := by decide +kernel

theorem test_cup_break : yields (.cupBreakGo duet 0 0) (locked5 x0) (fun t =>
    (t.lock 5).holder == none && (t.lock 5).broken) = true ∧
    yields (.cupBreakGo duet 0 0) (asked (locked5 x0) (.lock (.thread x0) 1 5 none)) (fun t =>
      t.flight.isEmpty && (t.lock 5).holder == none) = true := by decide +kernel

theorem test_cup_value : yields (.cupCvalWrite duet 0 5 3) (owned (run [])) (fun t => t.ctrVal 5 == 3) = true := by decide +kernel

theorem test_cup_poison : yields (.cupCstatPoisonClear duet 0 5 1) ((owned (run [])).setCreg .cupCstat 0 5 1) (fun t =>
    ! t.ctrPoison 5) = true := by decide +kernel

theorem witness_cup_done :
    let s := (((owned (run [])).setCreg .cupDctl 0 3 0).setCreg .cupDdone 0 3 5).setSlot 0 3 .running
    s.slotSt 0 3 = .running ∧ s.slotThread 0 3 = x0 ∧
    yields (.cupDoneWrite x0 0 3) s (fun t => decide (t.slotSt 0 3 = .empty) && t.ctrVal 5 == 8) = true := by decide +kernel

theorem test_belfry_watch : yields (.belfryWatchWrite duet 0 7 true 9) calm (fun t => t.creg .bicWtgt 0 7 == 9) = true := by
  decide +kernel

/-! ### Streams -/

/-- A thread whose first sixteen causes go to a handler in Machine. -/
def handled (g : Store Word) : Thread := withCopies (run g) ((List.range 16).map fun n => (n, dMach))

/-- The thread has taken an exception of a cause. -/
def took (t : State) (cause : Nat) : Bool := (t.thread x0).inShadow && (t.thread x0).g 26 % 256 == BitVec.ofNat 32 cause

/-- Core 0 with a stream of 64 bytes from Local 0x100 to Local 0x1000 in slot 0 and its descriptor at 0x200. -/
def plainDesc : BitVec 512 := 0x100 ||| (0x1000 : BitVec 512) <<< 64 ||| (64 : BitVec 512) <<< 128

/-- The slot of that stream. -/
def plainSlot (st : Stream) : State :=
  { lab (handled [(2, 0x200), (3, 0x204), (4, 0xC0000), (5, 11), (6, 12)]) with
      cores := [(0, { Core.reset with
        mem := Mem.zeros.storeNat 0x100 4 0x04030201
        slots := [(0, { st with state := 1, owner := x0, desc := plainDesc })] })] }

theorem witness_StreamInstructions :
    let s := plainSlot Stream.reset
    Fires s i0 { g := [2], wg := [1] } ∧ Fires s i0 { g := [2] } ∧ 0x204 % 64 ≠ 0 ∧ 0xC0000 < 0xC0000 + 64 ∧
    (s.atIssue i0).mustWait x0 0x200 64 false = false ∧ (s.core 0).mem.poisoned 0x200 64 = false ∧
    ({ (s.core 0) with mem := { (s.core 0).mem with poison := [0x208 / 8] } } : Core).mem.poisoned 0x200 64 = true ∧
    (s.core 0).freeSlot = some 1 ∧ (s.stream (.core 0 0)).state = 1 ∧ (s.stream (.core 0 0)).owner = x0 ∧
    (s.stream (.core 0 1)).state ≠ 1 := by decide +kernel

theorem witness_stream_validates :
    let s := plainSlot Stream.reset
    ((s.setCreg .partSpLo 0 0 1).validate (some 0) 0 0 true plainDesc).1.cause = none ∧
    (s.validate (some 0) 0 0 true 0).1.cause ≠ none := by decide +kernel

theorem witness_stream_slots_full :
    let all : Store Stream := (List.range 12).map fun n => (n, { Stream.reset with state := 1 })
    ({ Core.reset with slots := all } : Core).freeSlot = none := by decide +kernel

theorem test_sissue_misaligned : yields (.sissue i0 1 3) (plainSlot Stream.reset) (fun t =>
    took t 0x03 && (t.thread x0).g 1 == 0) = true := by decide +kernel

theorem test_sstat : yields (.sstat i0 1 6) (plainSlot Stream.reset) (fun t => took t 0x01) = true ∧
    yields (.sstat i0 1 31) (plainSlot { Stream.reset with done := 257 }) (fun t => (t.thread x0).g 1 == 0x501) = true := by
  decide +kernel

theorem test_scancel_elsewhere : yields (.scancel i0 5) (plainSlot Stream.reset) (fun t =>
    (t.stream (.core 0 0)).state == 1 && (t.thread x0).pc == 4) = true := by decide +kernel

/-- All of row 0. -/
def row0 : RowPart := { row := 0, lo := 0, n := 64 }

/-- The bytes that the row brings. -/
def brought : List (Byte × Bool) := [(1, false), (2, false), (3, false), (4, false)] ++ List.replicate 60 (0, false)

theorem witness_StreamRows :
    let s := plainSlot Stream.reset
    let e : Engine := .core 0 0
    let st := s.stream e
    st.state = 1 ∧ st.fault = 0 ∧ dSched st.desc = false ∧ dGen st.desc = false ∧ dConv st.desc = false ∧
    aSpace (dSrc st.desc) = 0 ∧ aSpace (dDst st.desc) = 0 ∧ aNode (dSrc st.desc) = 0 ∧ aNode (dDst st.desc) = 0 ∧
    0 < st.rows ∧ s.domCarries 0 = true ∧ st.taken 0 = false ∧ st.got = [] ∧ s.streamHeld e = false ∧
    (s.readPacket e 0).isNone = true ∧ (s.writePacket e 0).isNone = true ∧ dXlen st.desc = 64 ∧
    ((s.readRow e row0).stream e).pending = [{ row := 0, runs := [{ off := 0, addr := 0x1000, bytes := brought }], tags := [] }] := by
  decide +kernel

theorem test_row_of_another_core :
    let s := plainSlot Stream.reset
    let e : Engine := .core 0 0
    let s := s.modStream e fun st => { st with desc := plainDesc ||| (5 : BitVec 512) <<< 50 }
    aNode (dSrc (s.stream e).desc) = 5 ∧ s.streamHeld e = false ∧
    yields (.streamReadData e row0) s (fun t => t.flight.map (fun p => (p.dst, p.body)) == [(5, .strRead e 0 s.nextId 0x100 64)]) =
      true := by decide +kernel

/-- The same stream with its one row read and its timeout at 100 ns. -/
def rowRead : Stream :=
  { Stream.reset with
      pending := [{ row := 0, runs := [{ off := 0, addr := 0x1000, bytes := brought }], tags := [] }]
      due := some 100 }

theorem witness_row_acknowledged :
    let s := plainSlot rowRead
    let e : Engine := .core 0 0
    (s.core 0).epoch = dEpoch (s.stream e).desc ∧ s.streamHeld e = false ∧ (s.writePacket e 0).isNone = true ∧
    (s.stream e).acked.length + 1 = (s.stream e).rows ∧ (s.stream e).poisoned = false := by decide +kernel

theorem test_row_written :
    let e : Engine := .core 0 0
    let s := (plainSlot rowRead).modStream e fun st => { st with desc := st.desc ||| (1 : BitVec 512) <<< 152 }
    (s.stream e).rows = 2 ∧ yields (.streamWriteAck e row0) s (fun t =>
      (t.stream e).acked == [0] && (t.core 0).mem.readNat 0x1000 4 == 0x04030201) = true := by decide +kernel

theorem witness_streamTimeout :
    let s := plainSlot { rowRead with pending := [] }
    s.ns < 100 ∧ 100 ≤ ({ s with now := 100, ns := 100 } : State).ns ∧ (s.stream (.core 0 0)).due = some 100 ∧
    (s.stream (.core 0 0)).pending = [] ∧ (s.stream (.core 0 0)).got = [] := by decide +kernel

theorem witness_TurretAndWalks :
    calm.gate duet (calm.agentPriv duet) .trtSubHi 0 = .ok ∧ bit (calm.creg .trtCtl 0 0) 0 = false ∧
    (calm.spire 0).freeTurret = some 0 ∧ bit ((calm.setCreg .trtCtl 0 0 1).creg .trtCtl 0 0) 0 = true ∧
    dGen (calm.stream (.turret 0 0)).desc = false ∧ (calm.stream (.turret 0 0)).finished = false ∧
    (calm.modSpire 0 fun k => { k with turret := [(0, { Stream.reset with state := 1, fault := 1 })] }).stream
      (.turret 0 0) ≠ Stream.reset ∧
    ((calm.modSpire 0 fun k => { k with turret := [(0, { Stream.reset with state := 1, fault := 1 })] }).stream
      (.turret 0 0)).finished = true := by decide +kernel

theorem test_turret_off : yields (.turretSubmit duet 0 0) calm (fun t => bit (t.creg .trtSubstat 0 0) 8) = true := by decide +kernel

/-! ### Tiles, vectors and matrices -/

/-- A core's tiles: thread 0 owns tile 3 and accumulator 0, thread 1 tile 4. -/
def owning : TileFile :=
  { Core.reset.tile with
      tiles := [(3, { TileSt.reset with owner := some 0, empty := false }), (4, { TileSt.reset with owner := some 1 })]
      accs := [(0, { TileSt.reset with owner := some 0 })] }

/-- Thread 0 of core 0 with tiles. -/
def tiled (g : Store Word) : State := { lab (handled g) with cores := [(0, { Core.reset with tile := owning })] }

theorem witness_TileResults :
    let s := tiled [(2, 0x10009), (3, 0x30), (4, 8)]
    Fires s i0 { g := [2], wg := [1] } ∧ Fires s i0 { g := [4] } ∧ Fires s i0 { wg := [1] } ∧
    (∀ k, k < 24 → (0x10009 : Word).getLsbD k = true → ∀ o, (owning.target k).owner = some o → o = 0) ∧
    (owning.target 4).owner = some 1 ∧ s.tilesQueued 0 8 = false ∧
    (s.modCore 0 fun k => { k with queueM := [{ seq := 0, thread := 0, pc := 0, ins := .mzero 3, rmode := 0, mpass := 0, start := 0, guard := false, service := false, shadow := false, dispatched := false, empties := [] }] }).tilesQueued
      0 8 = true := by decide +kernel

theorem test_talloc : yields (.talloc i0 1 2) (tiled [(2, 0x10009)]) (fun t =>
    (t.thread x0).bank.z && (t.thread x0).g 1 == 0 && ((t.core 0).tile.target 0).owner == some 0) = true ∧
    yields (.talloc i0 1 2) (tiled [(2, 0x30)]) (fun t =>
      ! (t.thread x0).bank.z && (t.thread x0).g 1 == 0x10 && ((t.core 0).tile.target 5).owner == none) = true := by decide +kernel

theorem test_trel : yields (.trel i0 2) (tiled [(2, 0x18)]) (fun t => took t 0x07) = true ∧
    yields (.trel i0 2) (tiled [(2, 8)]) (fun t => ((t.core 0).tile.target 3).owner == none) = true := by decide +kernel

theorem test_tempty : yields (.tempty i0 1)
    ((tiled []).modCore 0 fun k => { k with tile := owning.setTile 7 { TileSt.reset with owner := some 0 } }) (fun t =>
      (t.thread x0).g 1 == 0x80) = true := by decide +kernel

theorem witness_bankIdle :
    let s : State := ({ calm with now := 64 } : State).setCreg .matCtl 0 0 2
    s.spireRuns 0 = true ∧ s.bankIdle 0 31 = true ∧ ({ s with now := 63 } : State).bankIdle 0 31 = false ∧
    yields (.tileBankPowerGate 0 31) s (fun t => (t.core 0).tile.gated == 0x80000000) = true := by decide +kernel

/-- An entry of a unit queue. -/
def entry (ins : UnitIns) (dispatched : Bool) : UnitOp :=
  { seq := 0, thread := 0, pc := 0, ins := ins, rmode := 0, mpass := 0, start := 0, guard := false, service := false
    shadow := false, dispatched := dispatched, empties := [] }

theorem witness_VectorIssue :
    let s := tiled [(2, 0x10)]
    Fires s i0 { g := [2] } ∧ VOp.badType .div 4 = true ∧ VOp.badType .shl 1 = true ∧ VOp.badType .add 6 = false ∧
    cvtLegal 0x200 = false ∧ cvtLegal 0x10 = true ∧ (s.core 0).queueV.length < 8 ∧
    8 ≤ (List.replicate 8 (entry (.mzero 0) false)).length ∧ Fires s i0 {} ∧
    (UnitIns.vec .add 4 1 2 3 0).readsV = [2, 3] ∧ (s.issuer i0).badV = 0 ∧
    (UnitIns.vec .add 4 1 2 3 0).guarded false false = false := by decide +kernel

theorem test_vadd_queues : yields (.vadd i0 4 1 2 3) (tiled []) (fun t =>
    (t.core 0).queueV.map (·.ins) == [.vec .add 4 1 2 3 0] && (t.thread x0).pc == 4) = true := by decide +kernel

theorem test_vadd_parity : yields (.vadd i0 4 1 2 3) ((tiled []).modThread x0 fun th => { th with badV := 4 }) (fun t =>
    took t 0x05) = true := by decide +kernel

theorem test_vdiv_integer : yields (.vdiv i0 4 1 2 3) (tiled []) (fun t => took t 0x01) = true := by decide +kernel

theorem test_vector_lanes :
    laneAt 6 (VOp.compute .add 6 0 0xFF 0x02 0 0).v 0 = 1 ∧ laneAt 5 (VOp.compute .sub 5 0 0 1 0 0).v 0 = 0xFFFF ∧
    laneAt 6 (VOp.compute .clt 6 0 0x80 0x7F 0 0).v 0 = 0xFF ∧ laneAt 4 (VOp.compute .bcast 4 0 0 0 0 0x12345678).v 15 = 0x12345678 := by
  decide +kernel

/-- Legal operands of the matrix instructions. -/
def operands : State := tiled [(2, 0x1000), (3, 64), (4, 0x20), (5, 0x2000), (6, 0x111), (8, 0x1000), (9, 0x400001)]

theorem witness_MatrixIssue :
    let s := operands
    Fires s i0 {} ∧ Fires s i0 { g := [2, 3] } ∧ Fires s i0 { g := [2, 3, 4] } ∧ Fires s i0 { g := [8, 9, 2] } ∧
    s.ownsTile x0 3 = true ∧ s.ownsTile x0 4 = false ∧ s.ownsTile x0 16 = true ∧ mstoreLegal 3 0x20 = true ∧
    mstoreLegal 3 0x10 = false ∧ (0x1000 : Nat) + 31 * 64 + 64 ≤ 0xC0000 := by decide +kernel

theorem witness_mma_legal :
    mmaLegal 0 0 3 3 1 false false 0 = true ∧ mmaLegal 0 1 3 3 1 true false 0 = false ∧
    mmasLegal 0 0 3 4 1 false false 0 = true ∧ mmasLegal 0 0 3 4 1 false false 3 = false ∧
    (UnitIns.mma 0 3 3 1 false false false 0).allT 0 = [16, 3, 3, 16] ∧
    mvmLegal 8 3 0x0040_0001_0000_1000 0 1 = true ∧ mvmLegal 9 3 0x0040_0001_0000_1000 0 1 = false ∧
    topkLegal 2 8 0 0x1000 0x2000 0x1011 = true ∧ topkLegal 4 8 0 0x1000 0x2000 0x1011 = false := by decide +kernel

theorem test_mzero : yields (.mzero i0 3 0) operands (fun t => (t.core 0).queueM.map (·.ins) == [.mzero 3]) = true ∧
    yields (.mzero i0 4 0) operands (fun t => took t 0x07) = true ∧
    yields (.mzero i0 24 0) operands (fun t => took t 0x01) = true := by decide +kernel

theorem test_mload : yields (.mload i0 3 2 31 false 0) operands (fun t =>
    (t.core 0).queueM.map (·.ins) == [.mload 3 0x1000 64 false]) = true := by decide +kernel

theorem test_mstore : yields (.mstore i0 3 2 31 4 true false) operands (fun t =>
    (t.core 0).queueM.map (·.ins) == [.mstore 3 0x1000 (BitVec.ofNat 32 (mstoreRow 3 0x20 true)) 0x20 true]) = true := by
  decide +kernel

theorem test_mma : yields (.mma i0 0 3 3 1 false true false 0) operands (fun t =>
    (t.core 0).queueM.map (·.ins) == [.mma 0 3 3 1 false true false 0]) = true ∧
    yields (.mma i0 0 3 3 12 false true false 0) operands (fun t => took t 0x01) = true := by decide +kernel

theorem test_mmas : yields (.mmas i0 0 3 4 1 false true false 0) operands (fun t => took t 0x07) = true := by
  decide +kernel

theorem test_mchk : yields (.mchk i0 1 0 false 3 0) operands (fun t =>
    (t.core 0).queueM.map (·.ins) == [.mchk 1 0 false 64]) = true := by decide +kernel

theorem test_vtopk : yields (.vtopk i0 2 2 3 0) (tiled [(2, 0x1000), (3, 0x1011)]) (fun t =>
    took t 3) = true := by decide +kernel

theorem witness_UnitCompletion :
    let u : UnitOp := entry (.mzero 3) true
    let s := (tiled []).modCore 0 fun k =>
      { k with queueM := [u], tile := owning.setTile 3 { TileSt.reset with owner := some 0, data := Mem.zeros.storeNat 7 1 9 } }
    s.spireRuns 0 = true ∧ State.reset.spireRuns 0 = false ∧ ((s.core 0).unitQueue .matrix)[0]? = some u ∧
    u.dispatched = true ∧ (entry (.mzero 3) false).dispatched = false ∧
    yields (.unitInstructionComplete 0 .matrix 0) s (fun t => (t.core 0).queueM == [] && ! ((t.core 0).tile.target 3).empty &&
      ((t.core 0).tile.target 3).view.byte 7 == 0) = true := by decide +kernel

theorem test_vector_completes :
    let u : UnitOp := entry (.vec .add 4 1 2 3 0) true
    let s := ((tiled []).modCore 0 fun k => { k with queueV := [u] }).modThread x0 fun th =>
      { th with vr := [(2, 5), (3, 6)] }
    yields (.unitInstructionComplete 0 .vector 0) s (fun t => (t.thread x0).vr == [(1, 11), (2, 5), (3, 6)]) = true := by
  decide +kernel

/-! ### Memory, the Belfry and the routers -/

/-- Writes of Duboette to registers of the first unit pass their gates. -/
def passes (rs : List CReg) : Bool := rs.all fun r => calm.gate duet (calm.agentPriv duet) r 0 == .ok

theorem witness_MemoryRegisterCommands :
    passes [.drumPp, .pcInv, .fxbWinvCtl] = true ∧ 128 < (0x4002 : Nat) % 2 ^ 7 + 2 * (0x4002 / 2 ^ 8 % 2 ^ 7) ∧
    (0x4000 : Nat) % 2 ^ 7 + 2 * (0x4000 / 2 ^ 8 % 2 ^ 7) ≤ 128 ∧ (calm.quad 0).winv = none := by decide +kernel

theorem test_drum_pp : yields (.drumPpWrite duet 0 0x4002) calm (fun t => (t.spire 0).ppPend == none) = true ∧
    yields (.drumPpWrite duet 0 0x4000) calm (fun t => (t.spire 0).ppPend == some 0x4000) = true := by decide +kernel

/-- A drop of tenant 2's translations from granule 1 on, one of which core 5 holds. -/
def dropping : State :=
  let e : WinEntry := { tenant := 2, granule := 1, entry := 0 }
  (({ calm with cores := [(5, { Core.reset with wcache := [e, { e with tenant := 3 }] })] } : State).setCreg .fxbWinvFirst 0 0
    1).setCreg .fxbWinvCnt 0 0 1

theorem test_winv_go : yields (.winvGo duet 0 2) dropping (fun t =>
    (t.core 5).wcache.map (·.tenant) == [3] && (t.quad 0).winv.isSome) = true := by decide +kernel

theorem witness_winvDrain :
    let s := dropping.modQuad 0 fun k => { k with winv := some { tenant := 2, first := 1, count := 1 } }
    (s.quad 0).winv = some { tenant := 2, first := 1, count := 1 } ∧
    yields (.winvDrainComplete 0) s (fun t => (t.quad 0).winv == none) = true := by decide +kernel

/-- Duboette in Machine, its table at 0x1000 and its stack at 0x8000, with the handler 0x4000 for cause 9 and 0x40. -/
def bellman : State :=
  let m := Mem.zeros.storeNat (0x1000 + 16 * 9) 4 0x4000
  let m := m.storeNat (0x1000 + 16 * 9 + 12) 4 0x7000
  let m := m.storeNat (0x1000 + 16 * 0x3A) 4 0x5000
  let m := m.storeNat (0x1000 + 16 * 0x3A + 12) 4 0x7000
  ({ calm with far := m } : State).modBel 0 fun k =>
    ({ k with
        pc := 0x700
        halted := false
        held := false
        g := [(29, 0x8000), (2, 0x40), (3, 8)]
        status := 0x301 } : Belfry).setReg 0x80A 0x1000

/-- Duboette with one dirty byte of the line at 0x40. -/
def dirtied : State := bellman.modQuad 0 fun k => { k with l2 := [(1, { data := 0xAA <<< 72, dirty := 0x200, bad := 0 })] }

theorem witness_ScrubFindings :
    farPopulated (8 * 0x23FFFFFFF) = true ∧ calm.domCarries (76 + farStack (8 * 0x23FFFFFFF)) = true ∧
    calm.domCarries 0 = true ∧ 8 * 0x17FFF < 0xC0000 ∧ calm.domCarries 64 = true ∧
    ((dirtied.quad 0).line? 1).isSome = true ∧ (({ Core.reset with icache := Core.reset.icache.fill 64 0 } : Core).icache.hits 64) = true ∧
    (((open0 1 [] [word 7 false]).ep 0).queue.length = 1) ∧ (dropping.winEntries (.core 5)).length = 2 ∧
    (((calm.modSpire 0 fun k => { k with pcLines := [(8, 2)] }).spire 0).pcWay 1).isSome = true := by decide +kernel

theorem test_scrub_registers : yields (.memoryScrub (.gReg x0 5) true) (lab (run [])) (fun t =>
    (t.thread x0).bank.bad == 0x20) = true ∧
    yields (.memoryScrub (.vReg x0 31) true) (lab (run [])) (fun t => (t.thread x0).badV == 0x80000000) = true := by
  decide +kernel

theorem test_scrub_tag : yields (.memoryScrub (.belfryL2 0 1 1 true) false) dirtied (fun t =>
    (t.quad 0).line? 1 == none && (t.quad 0).reports.map (·.cls) == [0x03]) = true ∧
    yields (.memoryScrub (.belfryL2 0 1 1 false) true) dirtied (fun t => ((t.quad 0).line? 1).map (·.bad) == some 2) = true := by
  decide +kernel

theorem test_scrub_local : yields (.memoryScrub (.localMem 3 2) true) calm (fun t =>
    (t.core 3).mem.poison == [2] && (t.quad 0).reports.map (·.cls) == [0x02] && (t.core 3).mem.byte 16 == 0) = true := by
  decide +kernel

theorem test_scrub_drum : yields (.memoryScrub (.drum 0 1) false) calm (fun t =>
    t.creg .drumCe 0 0 == 1 && (t.quad 0).reports.map (·.sev) == [0]) = true := by decide +kernel

theorem witness_BelfryEntry :
    let k := bellman.bel 0
    let d := bellman.belfryDesc 0 9
    k.halted = false ∧ k.held = false ∧ d.invalidBelfry 9 = false ∧ d.ctl.toNat / 2 ^ 12 % 4 = k.priv.code.toNat ∧
    64 ≤ (k.gr 29).toNat ∧ (k.reg 0x807).toNat ≤ (k.gr 29 - 64).toNat ∧
    ((bellman.belfryEnter 0 9 5 0).bel 0).pc = 0x4000 ∧ ((bellman.belfryEnter 0 9 5 0).bel 0).gr 29 = 0x7FC0 ∧
    (bellman.belfryEnter 0 9 5 0).l2Read 0 0x7FC0 8 = 0x700 := by decide +kernel

theorem witness_BelfryRegisters : BelRuns bellman 0 ∧ (bellman.belfryJudge 0 |>.bel 0).priv = .machine ∧
    ((bellman.modBel 0 fun k => { k with status := 1 }).bel 0).priv = .user ∧ (0x80C : BitVec 12).toNat > 0x80B ∧
    yields (.ctlr (.belfry 0) 4 0x80A) bellman (fun t => (t.bel 0).gr 4 == 0x1000 && (t.bel 0).pc == 0x704) = true ∧
    yields (.ctlw (.belfry 0) 2 0x80A) bellman (fun t => (t.bel 0).reg 0x80A == 0) = true ∧
    yields (.ctlw (.belfry 0) 2 0x806) (bellman.modBel 0 fun k => { k with locked := true }) (fun t =>
      (t.bel 0).reg 0x806 == 0) = true := by decide +kernel

/-- Duboette in a handler whose frame at 0x2000 says: address 0x900, Machine without interrupts, g29 0x9000. -/
def framed : State :=
  ({ bellman with far := ((bellman.far.storeNat 0x2000 8 0x900).storeNat 0x2008 8 0x300).storeNat 0x2020 8 0x9000 } : State).modBel
    0 fun k => k.setGr 29 0x2000

theorem witness_BelfryReturn :
    let s1 := framed.l2Touch 0 0x2000 64
    BelRuns framed 0 ∧ s1.l2Read 0 0x2000 8 % 4 = 0 ∧ s1.l2Bad 0 0x2000 64 = false ∧
    (Priv.ofCode (BitVec.ofNat 2 (s1.l2Read 0 0x2008 8 / 2 ^ 8))).code.toNat ≤ (framed.bel 0).priv.code.toNat ∧
    yields (.eret (.belfry 0)) framed (fun t => (t.bel 0).pc == 0x900 && (t.bel 0).gr 29 == 0x9000 &&
      (t.bel 0).status == 0x300) = true := by decide +kernel

/-- The same with the best source of the interrupt controller pending: software source 0x180 for core 0. -/
def rung : State :=
  (bellman.setCreg .bicSrc 0 0x180 0x4000).modQuad 0 fun k => { k with bicEdge := [(0x180, true)] }

theorem witness_BelfryInterrupts :
    let b := rung.bel 0
    b.halted = false ∧ b.held = false ∧ b.block = none ∧ b.status.getLsbD 0 = true ∧ rung.domCarries 64 = true ∧
    rung.bicBest 0 0 = some 0x180 ∧ passes [.bicEoi, .bicSrc] = true ∧
    ((calm.modQuad 0 fun k => { k with bicStacks := [(1, [(7, 3)])] }).quad 0).bicStack 1 = [(7, 3)] ∧
    (calm.quad 0).bicStack 1 = [] := by decide +kernel

theorem test_bic_eoi :
    let s := calm.modQuad 0 fun k => { k with bicStacks := [(1, [(7, 3)])] }
    yields (.bicEoiWrite duet 0 1 7) s (fun t => (t.quad 0).bicStack 1 == []) = true := by decide +kernel

theorem test_bic_set : yields (.bicSrcSetWrite duet 0 0x180) calm (fun t => Store.get false (t.quad 0).bicEdge 0x180) =
    true ∧ yields (.bicSrcSetWrite duet 0 0x17F) calm (fun t => (t.quad 0).bicEdge == []) = true := by decide +kernel

theorem witness_CacheRanges :
    let k := dirtied.bel 0
    BelRuns dirtied 0 ∧ k.progress = 0 ∧ (k.gr 2).toNat % 64 + (k.gr 3).toNat ≤ 64 ∧ 0 < (k.gr 3).toNat ∧
    ((dirtied.quad 0).line? 1).isSome = true ∧ (bellman.quad 0).line? 1 = none ∧ (k.gr 4).toNat = 0 ∧ Fires (lab (run [])) i0 {} := by decide +kernel

theorem test_clean_range : yields (.cleanRange (.belfry 0) 2 3 1) dirtied (fun t =>
    t.far.byte 0x49 == 0xAA && ((t.quad 0).line? 1).map (·.dirty) == some 0 && (t.bel 0).pc == 0x704) = true := by decide +kernel

theorem test_inval_range : yields (.invalRange (.belfry 0) 2 3 1) (dirtied.modBel 0 fun k =>
    { k with g := [(2, 0x40), (3, 16)] }) (fun t => t.far.byte 0x49 == 0 && (t.quad 0).line? 1 == none) = true := by decide +kernel

theorem witness_RoutingRegisterCommands : passes [.rteCfg, .routeCtl] = true ∧
    (0xFFFF0010 : Nat) / 2 ^ 16 + 0xFFFF0010 % 2 ^ 8 * (0xFFFF0010 / 2 ^ 8 % 2 ^ 4 + 1) > 65536 := by decide +kernel

theorem test_rte_cfg : yields (.rteCfgWrite duet 0 5 0xFFFF0001) calm (fun t => t.creg .rteCfg 0 5 == 0xFFFF0001) = true ∧
    yields (.rteCfgWrite duet 0 5 0xFFFF0002) calm (fun t => t.creg .rteCfg 0 5 == 0) = true := by decide +kernel

/-- Spire 0 may doze: its thread sleeps until the tick. -/
def drowsy : State := ((lab { run [] with status := .tickSleep }).setCreg .spdCtl 0 0 1).modQuad 0 fun k => { k with edged := true }

/-- It dozes since cycle 10, and it is cycle 30. -/
def dozing : State :=
  ({ drowsy with now := 30 } : State).modSpire 0 fun k => { k with doze := { dozing := true, since := 10 } }

theorem witness_SpireDoze : drowsy.mayDoze 0 = true ∧ (drowsy.spire 0).doze.dozing = false ∧ calm.mayDoze 0 = false ∧
    dozing.wakes 0 .edgeNotice = false ∧
    ({ dozing with ct := { dozing.ct with notice := some 5 } } : State).wakes 0 .edgeNotice = true := by decide +kernel

theorem witness_doze_holds :
    let kept := asked dozing (.credit x0 0 1)
    let cup := asked dozing (.signal (.thread x0) 5 2 false)
    kept.arrived? 3 = none ∧ kept.wakes 0 .packet = true ∧ (cup.arrived? 3).isSome = true ∧
    (cup.spire 0).doze.dozing = true ∧ cup.wakes 0 .packet = false := by decide +kernel

theorem test_doze_exit : yields (.dozeExit 0 .edgeNotice) { dozing with ct := { dozing.ct with notice := some 5 } } (fun t =>
    ! (t.spire 0).doze.dozing && t.creg .spdDozecc 0 0 == 20 && t.creg .spdWakes 0 0 == 0) = true := by decide +kernel

/-! ### The scheduled mesh -/

/-- The mesh fabric of quadrant 0 has passed an edge. -/
def meshed (r : Router) : State :=
  ({ calm with cores := [(0, { Core.reset with router := r })] } : State).modQuad 0 fun k => { k with edged := true }

/-- A router whose schedule runs in its last cycle of entry 0, with entry 1 of 3 cycles. -/
def running2 : Router :=
  { Router.reset with
      live := true
      left := 0
      bank0 := { SBank.reset with entries := [(0, 1), (1, 3)] } }

theorem witness_RouterCycles :
    let s := meshed running2
    let idle := meshed Router.reset
    s.fabricRuns 0 = true ∧ (s.router 0).live = true ∧ (s.router 0).left = 0 ∧ (s.router 0).sigs = [] ∧
    eSig ((s.router 0).bank.entry 0) = false ∧ eLast ((s.router 0).bank.entry 0) = false ∧
    eDur ((s.router 0).bank.entry 1) ≠ 0 ∧ evenOnes ((s.router 0).bank.entry 1) = true ∧
    eDur ((s.router 0).bank.entry 2) = 0 ∧ idle.cycleReady 0 = true ∧ (idle.router 0).live = false := by decide +kernel

/-- A delivery through channel 0, which writes Local 0x100 (SPACE 1). -/
def arriving (void : Bool) : State :=
  meshed { Router.reset with
    cycle := 5
    bank0 := { SBank.reset with chans := [(0, 0x100100)] }
    deliveries := [{ run := 0, index := 0, entry := 0, chan := 0, n := 0, due := 4, cred := false
                     flit := { void := void, data := 0x77, poison := 0 } }] }

theorem witness_CorePortWrites :
    let s := arriving false
    (s.router 0).deliveries.map (·.due) = [4] ∧ 4 < (s.router 0).cycle ∧ (s.router 0).sigs = [] ∧
    (s.router 0).reduced = [] ∧ s.domCarries 0 = true ∧ s.boundStream 0 0 = none ∧
    chanLoc ((s.router 0).chan 0) 0 = some (.inLocal 0x100) := by decide +kernel

theorem test_core_port : yields (.corePortDelivery 0) (arriving false) (fun t =>
    (t.core 0).mem.byte 0x100 == 0x77 && t.creg .smrFlits 0 0 == 1 && (t.router 0).deliveries == []) = true ∧
    yields (.corePortDelivery 0) (arriving true) (fun t =>
      (t.core 0).mem.byte 0x100 == 0 && t.creg .smrVoids 0 0 == 1) = true := by decide +kernel

theorem witness_RouterBankAccess : passes [.smrTdhi, .smrTdlo, .smrPready] = true ∧ calm.blockOpen .smrTdlo 0 = true ∧
    bit ((calm.setCreg .smrTidx 0 0 0x1005).creg .smrTidx 0 0) 12 = true ∧
    bit ((calm.setCreg .smrTidx 0 0 0x3005).creg .smrTidx 0 0) 13 = true ∧ (calm.router 0).active = false ∧
    (calm.router 0).swap = false ∧ (meshed { Router.reset with swap := true }).gate duet .machine .smrTdhi 0 = .ok := by decide +kernel

theorem test_tdhi : yields (.smrTdhiWrite duet 0 1) ((calm.setCreg .smrTidx 0 0 0x1005).setCreg .smrTdlo 0 0 2) (fun t =>
    (t.router 0).bank1.entry 5 == 0x100000002 && ! (t.router 0).ready) = true ∧
    yields (.smrTdhiWrite duet 0 1) (calm.setCreg .smrTidx 0 0 5) (fun t =>
      (t.router 0).wref && (t.router 0).bank0 == SBank.reset) = true := by decide +kernel

theorem test_tdlo : yields (.smrTdloWrite duet 0 9) (calm.setCreg .smrTidx 0 0 0x3005) (fun t =>
    (t.router 0).bank1.chans == [(1, (9 : BitVec 128) <<< 32)]) = true := by decide +kernel

/-- A schedule of one entry for router 0 at Far 0, which is to load. -/
def loadable : State :=
  (({ calm with far := (Mem.zeros.storeNat 0 2 1).storeNat 192 8 3 } : State).setCreg .smlDst 0 0 0x10000)

/-- The load is at its first block. -/
def loading : State := loadable.modQuad 0 fun k => { k with load := some (0, 0) }

theorem witness_ScheduleLoading : passes [.smlCtl] = true ∧ loadable.loadNum 0 = 1 ∧ calm.loadNum 0 = 0 ∧
    (loadable.creg .smlCtl 0 0).getLsbD 1 = false ∧ loading.domCarries 68 = true ∧ loading.loadRouter 0 0 = 0 ∧
    loading.blockBad 0 0 0 = none ∧ loading.blockBad 0 0 1 = some 2 ∧ loading.blockBad 0 64 0 = some 1 ∧
    (loading.router 0).swap = false := by decide +kernel

theorem test_load_go : yields (.scheduleLoadGo duet 0 0x301) loadable (fun t =>
    (t.quad 0).load == some (0, 0) && t.creg .smlCtl 0 0 == 0x302) = true := by decide +kernel

theorem test_block_loaded : yields (.scheduleBlockLoaded 0) loading (fun t =>
    (t.router 0).ready && (t.router 0).bank1.entry 0 == 3 && (t.quad 0).load == none) = true := by decide +kernel

theorem witness_SwapCommands : passes [.smfSwapctl] = true := by decide +kernel

theorem test_swap_arm : yields (.swapArm duet 0x105) calm (fun t => t.creg .smfSwapctl 0 0 == 0x10005) = true ∧
    yields (.swapCancel duet 0x205) calm (fun t => t.creg .smfSwapctl 0 0 == 5) = true := by decide +kernel

/-! ### The Clocktower -/

theorem witness_ClockRegisterCommands :
    passes [.tickCtl, .tickPeriod, .tickMin, .tickMax, .ctWdt] = true ∧ calm.ct.running = false ∧ calm.ct.notice = none ∧
    calm.tasks = [] ∧ bit (calm.creg .smfSwapctl 0 0) 16 = false ∧
    ({ calm with ct := { calm.ct with running := true, notice := some 9 } } : State).ct.notice = some 9 ∧
    (10000 : Nat) ≤ (calm.creg .tickMax 0 0).toNat ∧ (calm.creg .tickMin 0 0).toNat ≤ 1000000000 := by decide +kernel

theorem test_tick_en : yields (.tickCtlEnSet duet 6) { calm with now := 100 } (fun t =>
    t.ct.running && t.ct.notice == some 164 && t.creg .tickCtl 0 0 == 7) = true ∧
    yields (.tickCtlEnSet duet 0xE) (calm.setCreg .tickCtl 0 0 8) (fun t => t.creg .tickCtl 0 0 == 0xB) = true := by decide +kernel

theorem test_intervals : yields (.tickPeriodWrite duet 9999) calm (fun t =>
    t.creg .tickPeriod 0 0 == calm.creg .tickPeriod 0 0) = true ∧
    yields (.tickPeriodWrite duet 10000) calm (fun t => t.creg .tickPeriod 0 0 == 10000) = true ∧
    yields (.tickMinWrite duet 20001) (calm.setCreg .tickMax 0 0 20000) (fun t =>
      t.creg .tickMin 0 0 == calm.creg .tickMin 0 0) = true ∧
    yields (.tickMaxWrite duet 20000) (calm.setCreg .tickMin 0 0 20000) (fun t => t.creg .tickMax 0 0 == 20000) = true := by
  decide +kernel

/-- Edges run: the last was at 1,000 ns, the period is 10,000 ns. -/
def ticking (mode : Bool) (src : BitVec 2) (at0 : Nat) : State :=
  { calm with
      ns := at0
      ct := { calm.ct with
        running := true
        first := false
        edgeNs := 1000
        period := 10000
        mode := mode
        src := src } }

theorem witness_EdgeNotices :
    (ticking false 0 5000).noticeDue = false ∧ (ticking false 0 11000).noticeDue = true ∧
    (ticking false 0 11000).nextTick ≤ 1 ∧ ((calm.setCreg .smfSwapctl 0 0 0x10003).creg .smfSwapctl 0 0).getLsbD 16 = true ∧
    (calm.setCreg .smfSwapctl 0 0 0x10003).swapTick = 0 ∧
    ((calm.setCreg .smlCtl 1 0 0x302).creg .smlCtl 1 0).getLsbD 1 = true ∧
    ((calm.setCreg .smlCtl 1 0 0x302).creg .smlCtl 1 0).extractLsb' 8 4 = 3 ∧
    (ticking true 0 1000).elastic = true ∧ (ticking true 0 1000).distributes = false ∧
    ((ticking true 0 1000).setCreg .tickMax 0 0 20000).noticeTime 21000 = false ∧
    ((ticking true 0 21000).setCreg .tickMax 0 0 20000).noticeTime 21000 = true ∧
    ((ticking true 0 0).setCreg .tickCtl 0 0 0x10).distributes = true ∧ calm.ct.target = none := by decide +kernel

theorem test_edge_notice :
    let s := ((ticking false 0 11000).setCreg .smfSwapctl 0 0 0x10003).modRouter 2 fun r => { r with ready := true, tenant := 3 }
    yields .edgeNotice s (fun t => t.ct.swap && (t.router 2).swap && ! (t.router 1).swap && t.ct.notice == some 64) = true := by
  decide +kernel

theorem test_edge_notice_loading :
    let s := ((ticking false 0 11000).setCreg .smfSwapctl 0 0 0x10003).setCreg .smlCtl 1 0 0x302
    yields .edgeNotice s (fun t => ! t.ct.swap && t.creg .smfSwapctl 0 0 == 0x30003) = true := by decide +kernel

theorem witness_EdgeParts :
    let s : State := { ticking false 0 11000 with now := 64, ct := { (ticking false 0 11000).ct with notice := some 64 } }
    s.edgeDue = true ∧ ({ s with now := 63 } : State).edgeDue = false ∧
    ((s.modSpire 0 fun k => { k with ppPend := some 0x4000 }).spire 0).ppPend = some 0x4000 ∧ (s.spire 0).ppPend = none ∧
    eUsesCore ((s.router 0).bankAt false |>.entry 0) = false ∧
    ((lab { run [] with status := .tickSleep, ctl := { (run []).ctl with boundNext := true } }).thread x0).enabled = true ∧
    ((s.beginTick 1).creg .ctEdgeLo 0 0) = 11000 := by decide +kernel

theorem test_edge_thread :
    let th : Thread := { run [] with status := .tickSleep, ctl := { (run []).ctl with boundNext := true, tentry := 0x80 } }
    let t := (lab th).threadEdge x0 false false
    (t.thread x0).status = .running ∧ (t.thread x0).pc = 0x80 := by decide +kernel

theorem test_edge_drum :
    let s := calm.setCreg .drumPp 0 0 0x100
    ((s.drumEdge 0).spire 0).phase = true ∧ (((s.drumEdge 0).drumEdge 0).spire 0).phase = false := by decide +kernel

theorem witness_EdgesFromOutside :
    let s := ticking false 2 12000
    let u := ticking true 0 50000
    s.ct.running = true ∧ s.ct.src = 2 ∧ s.ct.lastIn = none ∧ s.ct.notice = none ∧
    ({ s with ct := { s.ct with lastIn := some 3000 } } : State).ns < 3000 + 10000 ∧
    s.ct.lost = false ∧ s.ns < 1000 + 2 * s.ct.period ∧ 1000 + 2 * s.ct.period ≤ (ticking false 2 21000).ns ∧
    u.elastic = true ∧ u.ct.readySent = false ∧ u.allReady = true ∧ (u.setCreg .tickCtl 0 0 0x10).distributes = true ∧
    (ticking true 1 0).ct.src = 1 ∧ ((ticking false 0 1000).setCreg .tickCtl 0 0 0x10).masterTarget = some 11000 := by decide +kernel

theorem witness_not_ready :
    let th : Thread := { run [] with ctl := { (run []).ctl with bound := true } }
    (({ lab th with ct := (ticking true 0 50000).ct } : State).setCreg .ctPartLo 0 0 1).allReady = false := by decide +kernel

theorem test_tick_in : yields .tickInEdge { ticking false 2 12999 with ct := { (ticking false 2 0).ct with lastIn := some 3000 } }
    (fun t => t.creg .tickStat 0 0 == 0x10 && t.ct.notice == none) = true ∧
    yields .tickInEdge { ticking false 2 13000 with ct := { (ticking false 2 0).ct with lastIn := some 3000 } } (fun t =>
      t.ct.notice == some 0 && t.ct.lastIn == some 13000) = true := by decide +kernel

theorem test_tick_loss : yields .tickLoss (ticking false 2 21000) (fun t =>
    t.creg .tickStat 0 0 == 2 && (t.quad 0).reports.map (·.cls) == [0x31] && t.ct.lost) = true := by decide +kernel

/-- A task of one free thread that runs. -/
def oneTask : Task :=
  { tenant := 0
    image := List.replicate 84 0 ++ [128, 0, 0, 0, 1] ++ List.replicate 47 0
    place := 0
    epoch := 0
    belfry := []
    begun := true
    run := some { cmd := 0, n0 := 0, count := 0, last := none, st := .running, stopped := false, damaged := [], overruns := 0 }
    mig := none
    old := none
    lastTick := 0
    overruns := 0
    start := [] }

theorem witness_Watchdog :
    let s : State := { calm with ns := 10000000000 }
    s.keep.duboette = true ∧ s.domOpen 95 = true ∧
    s.ct.sampled + (s.creg .ctWdt 0 0).toNat % 2 ^ 6 * 1000000000 ≤ s.ns ∧
    calm.ns < calm.ct.sampled + (calm.creg .ctWdt 0 0).toNat % 2 ^ 6 * 1000000000 ∧
    bit (s.creg .skbRtctl 0 0) 0 = false ∧ (s.creg .tickStat 0 0).getLsbD 3 = false ∧
    (lab { run [] with ctl := { (run []).ctl with bound := false } }).stuck oneTask = true ∧
    (lab { run [] with ctl := { (run []).ctl with bound := true } }).stuck oneTask = false := by decide +kernel

theorem test_watchdog_sample : yields .watchdogSample { lab { run [] with act := true } with ns := 10000000000 } (fun t =>
    t.creg .ctHbeat 0 0 == 1 && ! (t.thread x0).act && t.ct.wdtStart == 10000000000) = true := by decide +kernel

theorem test_watchdog_expiry : yields .watchdogExpiry { calm with ns := 10000000000 } (fun t =>
    t.creg .tickStat 0 0 == 8 && (t.quad 0).reports.map (·.sev) == [3]) = true := by decide +kernel

/-! ### Skybridge -/

/-- Port 0 in a state, enabled, with ATTEMPTS. -/
def port0 (st tries : Nat) : State :=
  (calm.setCreg .skbStat 0 0 (BitVec.ofNat 32 (st + 16 * tries))).setCreg .skbCtl 0 0 1

theorem witness_PortCommands :
    passes [.skbCtl] = true ∧ calm.portState 0 ≠ 4 ∧ (calm.creg .skbCtl 0 0).getLsbD 0 = false ∧
    ((port0 2 0).creg .skbCtl 0 0).getLsbD 0 = true ∧ (port0 4 3).portState 0 = 4 := by decide +kernel

theorem test_port_enable : yields (.portEnable duet 0 1) calm (fun t => t.portState 0 == 1 && t.creg .skbRetrains 0 0 == 0) =
    true ∧ yields (.portEnable duet 0 1) (port0 2 0) (fun t => t.portState 0 == 2) = true ∧
    yields (.portRetrain duet 0 3) ((port0 2 0).modPort 0 fun k => { k with wasUp := true }) (fun t =>
      t.portState 0 == 1 && t.creg .skbRetrains 0 0 == 1) = true := by decide +kernel

theorem test_port_failed : yields (.portEnable duet 0 1) (port0 4 3) (fun t => t.portState 0 == 4) = true ∧
    yields (.portClearFail duet 0 4) (port0 4 3) (fun t => t.creg .skbStat 0 0 == 0) = true := by decide +kernel

theorem witness_PortTraining :
    (port0 1 2).portState 0 = 1 ∧ (port0 2 0).portState 0 ≠ 1 ∧ ((port0 1 2).creg .skbStat 0 0).toNat / 2 ^ 4 % 2 ^ 2 = 2 ∧
    ((port0 1 1).creg .skbStat 0 0).toNat / 2 ^ 4 % 2 ^ 2 < 2 ∧ calm.domCarries 84 = true ∧
    ((port0 1 0).creg .skbCtl 0 0).getLsbD 3 = false := by decide +kernel

theorem test_training : yields (.trainingComplete 0 0x1122 77 false) (port0 1 2) (fun t =>
    t.portState 0 == 2 && t.creg .skbLatns 0 0 == 77 && t.creg .skbStat 0 0 == 2) = true ∧
    yields (.trainingComplete 0 0 0 true) (port0 1 0) (fun t => t.creg .skbStat 0 0 == 0x10) = true ∧
    yields (.trainingFailed 0) (port0 1 2) (fun t => t.portState 0 == 4 && (t.quad 0).reports.map (·.cls) == [0x40]) =
      true := by decide +kernel

/-- A flit: 252 bytes and their check. -/
def flitOf (body : List Byte) : List Byte := body ++ leBytes 4 (crc32 body).toNat

theorem witness_flit_good (body : List Byte) (h : body.length = 252) :
    (flitOf body).length = 256 ∧ leNat ((flitOf body).drop 252) = (crc32 ((flitOf body).take 252)).toNat := by
  refine ⟨by simp [flitOf, leBytes_length, h], ?_⟩
  rw [flitOf, List.drop_left' h, List.take_left' h, leNat_leBytes]
  exact Nat.mod_eq_of_lt (crc32 body).isLt

theorem witness_LinkFlits :
    let f := flitOf (leBytes 6 (1 + 5 * 4 + 2 ^ 29 + 2 ^ 30 + 32 * 2 ^ 31) ++ List.replicate 246 0)
    let w : BitVec 48 := BitVec.ofNat 48 (leNat (f.take 6))
    w.extractLsb' 0 2 = 1 ∧ w.extractLsb' 2 12 = 5 ∧
    w.getLsbD 29 = true ∧ w.getLsbD 30 = true ∧ (port0 2 0).portUp 0 = true ∧ calm.portUp 0 = false ∧
    (calm.port 0).replay = [] ∧ (({ port0 2 0 with ns := 1000000 } : State).port 0).ber.1 ≠ 1000000 / 1000000 ∧
    (calm.creg .skbBerth 0 0).toNat = 0x10000 := by decide +kernel

theorem test_flit_errors : yields (.skbFlitReceive 0 [] none) (port0 2 0) (fun t =>
    t.creg .skbFecunc 0 0 == 1 && (t.port 0).nak) = true ∧
    yields (.skbFlitReceive 0 [] (some 0)) (port0 2 0) (fun t => (t.port 0).nak && t.creg .skbCrcerr 0 0 == 1) = true := by
  decide +kernel

/-- A packet of a type from device 3 to this device. -/
def parcel (ty : BitVec 4) : SkbPacket :=
  { dst := 0, src := 3, ptype := ty, tenant := 2, epoch := 0, tag := 9, poison := false, addr := 0, arg := 0, e2eOk := true
    data := [] }

/-- A flit that no ACK has covered. -/
def sent1 : SentFlit :=
  { seq := 7, sop := true, queued := { cls := 0, inp := 8, since := 0, pkt := parcel 0 }, bytes := [] }

theorem test_nak :
    let s := (port0 2 0).modPort 0 fun k => { k with replay := [sent1], nakSeq := 7, resent := 7 }
    yields (.nak 0 7) s (fun t => t.portState 0 == 1 && t.creg .skbReplay 0 0 == 1) = true ∧
    yields (.nak 0 8) s (fun t => t.portState 0 == 2) = true := by decide +kernel

/-- A packet on its way out whose last flit is to come, and a TICK packet that waits. -/
def sending : State := (port0 2 0).modPort 0 fun k =>
  { k with
      active := [{ queued := { cls := 3, inp := 8, since := 0, pkt := parcel 1 }, rest := [[7#8]] }]
      waiting := [{ cls := 0, inp := 8, since := 0, pkt := parcel 14 }] }

theorem test_tick_goes_first :
    ((sending.serve 0).port 0).replay.map (·.queued.cls) = [0] ∧
    (((sending.serve 0).serve 0).port 0).replay.map (·.queued.cls) = [0, 3] ∧
    (((sending.serve 0).serve 0).port 0).active = [] := by decide +kernel

theorem test_fec_counts : yields (.skbFlitReceive 0 [] (some 9)) ((port0 2 0).setCreg .skbBerth 0 0 8) (fun t =>
    t.creg .skbFeccorr 0 0 == 9 && bit (t.creg .skbStat 0 0) 8 && t.creg .skbCrcerr 0 0 == 1) = true := by decide +kernel

theorem test_ack_timeout :
    let s := (port0 2 0).modPort 0 fun k => { k with replay := [sent1] }
    yields (.ackTimeout 0) { s with ns := 49999 } (fun t => t.portState 0 == 2) = true ∧
    yields (.ackTimeout 0) { s with ns := 50000 } (fun t => t.portState 0 == 1) = true := by decide +kernel

theorem witness_PacketGuards :
    (parcel 0).ptype = 0 ∧ (parcel 0).ptype ≠ 1 ∧ (parcel 0).dst = calm.devId ∧ ({ parcel 0 with dst := 1 } : SkbPacket).dst ≠
      calm.devId ∧ ({ parcel 0 with e2eOk := false } : SkbPacket).e2eOk = false ∧ (parcel 0).src ≠ calm.devId := by decide +kernel

/-- The device with a packet at its end, and granule 0 of tenant 2's window at Far 0x200000. -/
def posted (p : SkbPacket) : State :=
  ({ calm with
      skbIn := [(p, 8)]
      far := Mem.zeros.storeNat 0x200010 2 0xBEEF } : State).modQuad 0 fun k =>
    { k with wcacheF := [{ tenant := 2, granule := 0, entry := 0x107 }] }

theorem witness_DeviceRequests :
    (((posted (parcel 0)).readWindow 0 2 0x10 2).1) = some [(0xEF, false), (0xBE, false)] ∧
    ((posted (parcel 0)).windowRuns 0 2 .write 0x10 4).1 = some [(0x200010, 4)] ∧
    ((posted (parcel 0)).windowRuns 0 3 .write 0x10 4).1 = none ∧ (posted (parcel 0)).inQuad (parcel 0) = 0 ∧
    (posted (parcel 0)).farDead 0x200010 = false ∧
    ((posted (parcel 0)).modDom 68 fun d => { d with st := .failed }).farDead 0x200010 = true ∧ calm.keep.duboette = true := by decide +kernel

theorem test_read : let p := { parcel 0 with addr := 0x10, arg := 2 }
    yields (.read p) (posted p) (fun t => t.toSkb.map (fun q => (q.ptype, q.dst, q.tag, q.data)) == [(3, 3, 9, [0xEF, 0xBE])]) =
      true := by decide +kernel

theorem test_write : let p := { parcel 1 with addr := 0x11, arg := 1, data := [0x55, 0x66] }
    yields (.write p) (posted p) (fun t => t.far.read 0x200010 3 == [0xEF, 0x55, 0] && t.toSkb.map (·.ptype) == [2]) = true := by
  decide +kernel

theorem test_counter_op : let p := { parcel 6 with addr := 0x100000005, arg := 3 }
    yields (.counterOp p) (posted p) (fun t => t.flight.map (·.body) == [.signal (.remote 3 9) 5 3 true]) = true := by decide +kernel

theorem test_command : yields (.command (parcel 9)) (posted (parcel 9)) (fun t =>
    t.cmds.map (fun q => q.2.origin) == [.remote 3 9] && t.skbIn == []) = true := by decide +kernel

theorem witness_DeviceAnswers :
    let w : SkbWait := { tag := 9, dev := 3, what := .posted (.thread x0) 7 }
    ({ lab (run []) with skbWaits := [w] } : State).skbWaits = [w] ∧ (parcel 7).tag = w.tag ∧ w.dev = (parcel 7).src ∧
    ({ ticking true 0 0 with ct := { (ticking true 0 0).ct with readyFrom := [] } } : State).ct.readyFrom.contains 3 = false ∧
    calm.distributes = false := by decide +kernel

theorem test_counter_rsp :
    let s := { lab { run [] with posted := 1 } with skbIn := [(parcel 7, 8)], skbWaits := [{ tag := 9, dev := 3, what := .posted (.thread x0) 7 }] }
    yields (.counterRsp (parcel 7)) s (fun t => (t.thread x0).posted == 0 && t.skbWaits == []) = true := by decide +kernel

theorem test_atomic_rsp :
    let p := { parcel 5 with arg := 0x77 }
    let th : Thread := { run [] with status := .blocked (.atomic 4 addDrum 1) }
    yields (.atomicRsp p) { lab th with skbIn := [(p, 8)], skbWaits := [{ tag := 9, dev := 3, what := .atomic (.thread x0) 1 }] } (fun t =>
      (t.thread x0).g 4 == 0x77) = true := by decide +kernel

theorem test_heartbeat : yields (.heartbeat (parcel 12)) { posted (parcel 12) with ns := 8, lostWorkers := [3] } (fun t =>
    Store.find? t.heard 3 == some 8 && t.lostWorkers == []) = true := by decide +kernel

theorem test_edge : let p := { parcel 14 with addr := 7, arg := 90000 }
    yields (.edge p) { ticking false 1 5000 with skbIn := [(p, 8)] } (fun t => t.ct.target == some (90000, 7)) = true := by decide +kernel

/-- Device 0 of a line of four along X, whose port 2 has the role +X. -/
def lined (p : SkbPacket) : State := ((posted p).setCreg .skbDims 0 0 3).setCreg .skbCtl 2 0 0x10

theorem witness_RoutingPackets :
    let p := { parcel 0 with dst := 64 }
    p.dst ≠ (lined p).devId ∧ ((lined p).hop p.src p.dst).isSome = true ∧
    (((lined p).hop p.src p.dst).bind fun h => (lined p).outPort h p.src p.dst) = some 2 ∧ passes [.skbRtctl] = true ∧
    calm.locked = false ∧ (lined p).forwards = true ∧
    ({ calm with power := { calm.power with failed := true } } : State).forwards = false ∧ (pktClass 6 0).toNat = 1 ∧ (pktClass 0 0).toNat ≠ 1 := by decide +kernel

theorem test_forward : let p := { parcel 0 with dst := 64 }
    yields (.packetForward 1 p) (lined p) (fun t => (t.port 2).waiting.map (·.inp) == [1] && t.skbIn == []) = true := by decide +kernel

theorem test_path : let p := { parcel 13 with addr := 0xF, data := [5, 0, 0, 0, 0x77] }
    yields (.path p) (posted p) (fun t => t.creg .skbDevid 0 0 == 5 && t.creg .skbDims 0 0 == 0x77) = true ∧
    yields (.path p) { posted p with locked := true } (fun t => t.creg .skbDevid 0 0 == 0) = true ∧
    (let q := { p with addr := 0xF2 }
     yields (.path q) (posted q) (fun t => (t.port 2).waiting.map (·.pkt.addr) == [0xF00000000000000F]) = true) := by decide +kernel

theorem test_routing_enable : yields (.routingEnable duet 1) calm (fun t => t.locked) = true ∧
    yields (.routingEnable duet 1) (calm.setCreg .skbGroup 0 0 0x10001) (fun t => bit (t.creg .ehCtl 0 0) 1) = true := by decide +kernel

/-- The descriptor of a sum of 64 bytes at Far 0x1000 into 0x2000 over this device alone. -/
def lone : BitVec 512 :=
  0x2000000001000 ||| (0x2000000002000 : BitVec 512) <<< 64 ||| (64 : BitVec 512) <<< 128 ||| (1 : BitVec 512) <<< 160

/-- A collective of this device in use. -/
def busyColl : Coll := { busy := true, desc := lone, due := some 100, segs := [] }

theorem witness_Collectives :
    let full : Store Coll := (List.range 16).map fun n => (n, busyColl)
    passes [.skbCollSubHi] = true ∧ calm.collOk lone (calm.agentTenant duet) = true ∧
    calm.collOk (lone ||| 2 <<< 192) (calm.agentTenant duet) = false ∧ (calm.coll 0).busy = false ∧
    (∀ k, k < 16 → (({ calm with colls := full } : State).coll k).busy = true) ∧
    (({ calm with far := Mem.zeros.storeNat 0 64 lone.toNat } : State).farDesc 0) = (lone, none) ∧
    ({ calm with colls := [(3, busyColl)] } : State).collOf { parcel 8 with tenant := 0 } = some 3 ∧
    calm.collOf (parcel 8) = none ∧ (({ calm with colls := [(3, busyColl)] } : State).coll 3).due = some 100 := by decide +kernel

theorem test_coll_full : yields (.collectiveSubmit duet 0)
    { calm with colls := (List.range 16).map fun n => (n, busyColl) } (fun t => t.creg .skbCollStat 0 0 == 0x1FFFF ||
      bit (t.creg .skbCollStat 0 0) 8) = true := by decide +kernel

theorem test_coll_bad : yields (.collectiveSubmit duet 0) calm (fun t => bit (t.creg .skbCollStat 0 0) 9) = true := by decide +kernel

theorem test_coll_timeout : yields (.collectiveTimeout 3) { calm with colls := [(3, busyColl)], ns := 99 } (fun t =>
    (t.coll 3).busy) = true ∧
    yields (.collectiveTimeout 3) { calm with colls := [(3, busyColl)], ns := 100 } (fun t =>
      ! (t.coll 3).busy && (t.quad 0).reports.map (·.cls) == [0x42]) = true := by decide +kernel

theorem witness_GroupTimeouts (h : (Config.groupMembers 0).contains 5 = true) :
    let s : State := { calm.setCreg .skbGroup 0 0 0x10000 with ns := 100000000000 }
    s.isWorker 5 = true ∧ s.lostWorkers.contains 5 = false ∧ calm.isWorker 5 = false ∧
    Store.get 0 s.heard 5 + 3 * s.wdtNs ≤ s.ns := by
  refine ⟨?_, by decide, by decide, by decide⟩
  have hd : ({ calm.setCreg .skbGroup 0 0 0x10000 with ns := 100000000000 } : State).devId = 0 := by decide +kernel
  unfold State.isWorker
  rw [hd, h]
  decide +kernel

/-- A command that waits for device 5 since 0. -/
def fanning : Cmd :=
  { origin := .ring 0, header := 0, params := [], st := .started, waitFor := [5], replies := [], since := 0, image := []
    slot := none, ended := none, step := 0 }

theorem witness_fanout :
    let s : State := { calm with cmds := [(4, fanning)] }
    s.cmd 4 = some fanning ∧ calm.cmd 4 = none ∧ fanning.waitFor ≠ [] ∧
    fanning.since + 1000000 * (s.creg .skbFantmo 0 0).toNat ≤ ({ s with ns := 10 ^ 12 } : State).ns := by decide +kernel

/-! ### The host interface: rings and commands -/

/-- Ring 0 of tenant 0 is enabled with 16 entries. -/
def ringed : State := (calm.setCreg .ringCfg 0 0 0x30041).setCreg .partCfg 0 0 0x01100001

theorem witness_RingRegisters :
    ringed.gate duet (ringed.agentPriv duet) .ringDb 0 = .ok ∧ ringed.gate duet (ringed.agentPriv duet) .ringCfg 0 = .ok ∧
    ringed.gate duet (ringed.agentPriv duet) .ringQhead 0 = .ok ∧ ringed.ringN 0 = 16 := by decide +kernel

theorem test_doorbell : yields (.ringDbWrite duet 0 15) ringed (fun t => (t.ring 0).tail == 15) = true ∧
    yields (.ringDbWrite duet 0 16) ringed (fun t => (t.ring 0).stopped && t.creg .ringStat 0 0 == 2) = true := by decide +kernel

theorem test_ring_cfg : yields (.ringCfgWrite duet 0 0x31) ((calm.setCreg .ringCfg 0 0 0x40).setCreg .ringHead 0 0 5) (fun t =>
    t.creg .ringCfg 0 0 == 0x41 && t.creg .ringHead 0 0 == 0) = true := by decide +kernel

theorem test_ring_qhead : yields (.ringQheadWrite duet 0 3)
    ((ringed.setCreg .ringQtail 0 0 5).modRing 0 fun k => { k with notes := [2, 4] }) (fun t =>
      (t.ring 0).notes == [4] && t.toHost == [.msix 0 3] && ! (t.ring 0).armed) = true := by decide +kernel

/-- The bytes of a command of tenant 0: opcode, flags, parameters. -/
def packet (op flags : Nat) (ps : List Byte) : List Byte :=
  let b := leBytes 8 (op + flags * 256 + ps.length * 2 ^ 48) ++ ps
  b ++ List.replicate (64 - b.length) 0

/-- The same as a command that Duboette holds as number 4. -/
def held (op : Nat) (ps : List Byte) (st : CmdSt) (step : Nat) : Cmd :=
  { origin := .ring 0, header := BitVec.ofNat 64 (op + ps.length * 2 ^ 48), params := ps, st := st, waitFor := [],
    replies := [], since := 0, image := [], slot := none, ended := none, step := step }

/-- The device serves that command, with every Spire but Spire 63 in tenant 0's partition. -/
def serving (op : Nat) (ps : List Byte) (step : Nat) : State :=
  { (ringed.setCreg .partSpLo 0 0 0xFFFFFFFF).setCreg .partSpHi 0 0 0x7FFFFFFF with cmds := [(4, held op ps .started step)] }

/-- The command has ended with a status. -/
def ended (t : State) (status : Nat) : Bool :=
  t.cmds == [] && t.toHost.any fun o =>
    match o with
    | .write _ _ bs => leNat ((bs.drop 2).take 2) == status || leNat ((bs.drop 4).take 2) == status
    | _ => false

theorem witness_CommandFetch :
    let s := ringed.modRing 0 fun k => { k with tail := 1 }
    s.keep.duboette = true ∧ s.ringOn 0 = true ∧ (s.ring 0).stopped = false ∧
    (s.ring 0).tail ≠ (s.creg .ringHead 0 0).toNat ∧ s.qfull 0 = false ∧ bit (s.creg .ringCfg 0 0) 1 = false ∧
    (packet 1 0 []).length = 64 ∧ s.headerFault 0 (held 1 [] .waiting 0) = none ∧ calm.ringOn 0 = false := by decide +kernel

theorem witness_CommandStart :
    let c := held 1 [] .waiting 0
    let s : State := { calm with cmds := [(4, c)] }
    s.cmd 4 = some c ∧ s.cmd 5 = none ∧ c.op = 1 ∧ s.mayStart 4 c = true ∧ s.targets c = [] ∧
    ({ s with cmds := [(3, held 2 [] .waiting 0), (4, c)] } : State).mayStart 4 c = false ∧
    s.targets { c with header := 0x40000001 } ≠ [] := by decide +kernel

theorem test_start_later : yields (.nopCommand 4) { calm with cmds := [(3, held 2 [] .waiting 0), (4, held 1 [] .waiting 0)] }
    (fun t => t.cmds.length == 2 && t.toHost == []) = true := by decide +kernel

theorem witness_Completions :
    let s := serving 1 [] 0
    s.cmd 4 = some (held 1 [] .started 0) ∧ (held 1 [] .started 0).origin = .ring 0 ∧
    (s.creg .ringCfg 0 0).getLsbD 0 = true ∧ (s.creg .ringCfg 0 0).getLsbD 1 = false := by decide +kernel

theorem test_nop_command : Serves (serving 1 [] 0) 4 1 (held 1 [] .started 0) ∧
    yields (.nopCommand 4) (serving 1 [] 0) (fun t => t.cmds == []) = true := by decide +kernel

theorem witness_DeviceCommands :
    Serves (serving 2 (leBytes 8 0) 0) 4 2 (held 2 (leBytes 8 0) .started 0) ∧
    (held 2 (leBytes 8 0x1000) .started 0).par 0 8 ≠ 0 ∧
    (serving 2 (leBytes 8 0) 0).cmdWindow (held 2 (leBytes 8 0) .started 0) = false ∧
    (held 3 (leBytes 8 0 ++ [0, 1, 0, 0]) .started 0).par 8 2 = 256 := by decide +kernel

theorem witness_ConfigurationCommands :
    let part : List Byte := [1, 3, 5, 6, 7, 0, 0, 0] ++ leBytes 8 0x8000000000000000
    let s := serving 8 part 0
    let c := held 8 part .started 0
    Serves s 4 8 c ∧ c.par 0 1 ≤ 15 ∧ c.par 1 1 ≤ 7 ∧ c.par 4 1 ≤ 127 ∧ c.flag 1 0 = true ∧ c.par 8 8 / 2 ^ 63 % 2 = 1 ∧
    s.inPartition 0 63 = false ∧ s.inPartition 0 62 = true ∧
    yields (.partition 4) s (fun t => t.cmds == []) = true := by decide +kernel

theorem witness_setPower :
    let ps : List Byte := leBytes 2 900 ++ leBytes 2 100 ++ [0]
    let s := serving 9 ps 0
    Serves s 4 9 (held 9 ps .started 0) ∧ 900 ≤ (held 9 ps .started 0).par 0 2 ∧ s.retainBusy = false ∧
    ({ s with power := { s.power with windows := 100 } } : State).power.windows = 100 ∧
    yields (.setPower 4) s (fun t => t.creg .pwrCtl 0 0 == 0x640384 && t.cmds.map (·.2.step) == [1]) = true ∧
    (held 9 (leBytes 2 900 ++ leBytes 2 100 ++ [1]) .started 0).par 4 1 = 1 := by decide +kernel

theorem witness_setTick :
    let ps : List Byte := leBytes 4 10000 ++ leBytes 4 10000 ++ leBytes 4 20000 ++ [3]
    let c := held 10 ps .started 0
    let s := serving 10 ps 0
    Serves s 4 10 c ∧ c.par 4 4 ≤ c.par 8 4 ∧ c.par 12 1 < 12 ∧ s.tasks = [] ∧
    yields (.setTick 4) s (fun t => t.cmds == []) = true := by decide +kernel

theorem witness_UnitCommands :
    let s := serving 0x10 [2, 0xFF, 0] 0
    let c := held 0x10 [2, 0xFF, 0] .started 0
    Serves s 4 0x10 c ∧ s.badSpire c 0xFF = false ∧ s.badSpire c 63 = true ∧ s.quota false 0 = 16 ∧ s.quota true 0 = 1 ∧
    s.freeUnits false 0 0xFF 2 ≠ [] := by decide +kernel

theorem witness_unit_room : ((serving 0x10 [2, 0xFF, 0] 0).unitsOf false 0).length + 2 ≤ 16 := by decide +kernel

theorem witness_freeCounters :
    let ps : List Byte := leBytes 4 0x400 ++ [1]
    let s := (serving 0x11 ps 0).setCreg .cupCunit 1 0 0x10
    let c := held 0x11 ps .started 0
    Serves s 4 0x11 c ∧ s.notHere (BitVec.ofNat 32 (c.par 0 4)) = false ∧ s.unitOwner false 16 = some c.tenant ∧
    s.namedUnit false 16 = false ∧ s.unitOwner false 17 ≠ some c.tenant ∧
    yields (.freeCounters 4) s (fun t => t.cmds == []) = true := by decide +kernel

theorem witness_freeLocks :
    let s := (serving 0x13 (leBytes 2 0x100) 0).setCreg .cupLunit 1 0 0x10
    Serves s 4 0x13 (held 0x13 (leBytes 2 0x100) .started 0) ∧ s.unitOwner true 16 = some 0 ∧ s.namedUnit true 16 = false ∧
    s.unitOwner true 15 ≠ some 0 ∧
    yields (.freeLocks 4) s (fun t => t.cmds == []) = true := by decide +kernel

theorem witness_WindowCommands :
    let ps : List Byte := leBytes 8 1 ++ leBytes 4 1 ++ [7, 0, 0, 0] ++ leBytes 8 5
    let c := held 0x18 ps .started 0
    let s := (serving 0x18 ps 0).setCreg .winLen 0 0 2
    Serves s 4 0x18 c ∧ c.flag 12 0 = true ∧ c.flag 12 5 = false ∧ c.flag 12 4 = false ∧ c.par 12 1 ≤ 63 ∧
    farPopulated (c.par 16 8 * 2 ^ 21) = true ∧ duboettes 5 = false ∧ c.par 0 8 + c.par 8 4 ≤ (s.creg .winLen 0 0).toNat := by
  decide +kernel

theorem witness_granule_refused : farPopulated (2 ^ 18 * 2 ^ 21) = false ∧ duboettes (duboetteBase / 2 ^ 21) = true := by decide +kernel

theorem witness_winv :
    let ps : List Byte := leBytes 8 3 ++ leBytes 4 2
    let s := serving 0x19 ps 0
    Serves s 4 0x19 (held 0x19 ps .started 0) ∧ (∀ q : Quad, (s.quad q).winv = none) ∧ s.winvDone = true ∧
    (s.modQuad 1 fun k => { k with winv := some { tenant := 0, first := 0, count := 1 } }).winvDone = false ∧
    yields (.winv 4) s (fun t => (t.quad 2).winv == some { tenant := 0, first := 3, count := 2 }) = true := by decide +kernel

/-- FILL of four bytes of Far 0x1000. -/
def filling (step : Nat) : State :=
  serving 0x21 (leBytes 8 0x1000 ++ leBytes 8 4 ++ leBytes 8 0x4433221155 ++ [2]) step

theorem witness_DmaCommands :
    let c := held 0x21 (leBytes 8 0x1000 ++ leBytes 8 4 ++ leBytes 8 0x4433221155 ++ [2]) .started 0
    Serves (filling 0) 4 0x21 c ∧ badSpace c 24 = false ∧ c.par 24 1 = 2 ∧
    ((filling 1).dmaRuns 0 2 .write 0x1000 4).1 = ([(0x1000, 4)], none) ∧
    badSpace (held 0x21 (List.replicate 24 0 ++ [4]) .started 0) 24 = true ∧
    yields (.fill 4) (filling 0) (fun t => t.cmds.map (·.2.step) == [1]) = true ∧
    yields (.dmaComplete 4 none) (filling 1) (fun t => t.far.read 0x1000 5 == [0x55, 0x11, 0x22, 0x33, 0]) = true := by decide +kernel

theorem witness_copy :
    let ps : List Byte := leBytes 8 0x1000 ++ leBytes 8 0x2000 ++ leBytes 8 2 ++ [2, 2, 0, 0] ++ leBytes 4 0 ++ leBytes 4 0
    let c := held 0x20 ps .started 1
    let s : State := { serving 0x20 ps 1 with far := Mem.zeros.storeNat 0x1000 2 0xBEEF }
    Serves s 4 0x20 c ∧ badSpace c 24 = false ∧ badSpace c 25 = false ∧ c.par 28 4 = 0 ∧ c.par 32 4 = 0 ∧ s.far.poison = [] ∧
    (s.dmaRuns 0 2 .read 0x1000 2).1 = ([(0x1000, 2)], none) ∧
    yields (.dmaComplete 4 none) s (fun t => t.far.read 0x2000 2 == [0xEF, 0xBE]) = true := by decide +kernel

/-! ### Images and tasks -/

/-- An image of one placement on Spire 0, without threads, schedules or code. -/
def blankImage : List Byte :=
  [0x5A, 0x4E, 0x34, 0x49, 1, 0, 1, 0, 128, 0, 0, 0] ++ List.replicate 16 0 ++ [0x5B, 0x08, 0xE1, 0x88] ++
  List.replicate 32 0 ++ [1] ++ List.replicate 63 0

/-- LOAD_IMAGE of that image from host memory. -/
def loadParams : List Byte := leBytes 8 0x1000 ++ leBytes 8 128 ++ [0, 0]

theorem witness_image_length : blankImage.length = 128 := by decide +kernel

set_option maxRecDepth 100000 in
theorem witness_image_sound : imageFault blankImage = none := by decide +kernel

/-- Where the counter of translation requests is full, an access to host memory leaves it so. -/
theorem hostAccess_full (s : State) (h : s.creg .hifAtcmiss 0 0 = BitVec.allOnes 32) :
    s.hostAccess = ({ s with free := s.free + 1 } : State).setCreg .hifAtcmiss 0 0 (BitVec.allOnes 32) := by
  have e : ({ s with free := s.free + 1 } : State).creg .hifAtcmiss 0 0 = BitVec.allOnes 32 := h
  unfold State.hostAccess State.bump
  rw [e]
  congr 1
  unfold satAdd
  split
  · next hlt =>
    have z : Config.atsRequests s.free = 0 := by
      have : (BitVec.allOnes 32).toNat = 2 ^ 32 - 1 := by decide +kernel
      omega
    rw [z]
    decide
  · rfl

/-- LOAD_IMAGE is served, with that counter full. -/
def imaging : State := (serving 0x28 loadParams 0).setCreg .hifAtcmiss 0 0 (BitVec.allOnes 32)

set_option maxRecDepth 100000 in
theorem witness_image_loads : imaging.hostAccess.loadRefused 0 blankImage 0 = none := by
  rw [hostAccess_full imaging (by decide)]
  unfold State.loadRefused
  rw [witness_image_sound]
  decide +kernel

theorem witness_ImageCommands :
    let s := imaging
    let c := held 0x28 loadParams .started 0
    Serves s 4 0x28 c ∧ c.par 16 1 = 0 ∧ c.par 8 8 = 128 ∧ s.hostAccess.loadRefused 0 [] 0 = some (0x07, 0, 0) ∧
    (∀ sp, sp ∈ plSpires blankImage (c.par 17 1) → s.domOpen sp.toNat = true) ∧
    (held 0x28 (List.replicate 16 0 ++ [3]) .started 0).par 16 1 = 3 := by decide +kernel

/-- A task of that image that does not run. -/
def atRest : Task := { oneTask with image := blankImage, run := none }

/-- A run of the command with number 4. -/
def runOf (st : RunSt) (last : Option Nat) : Run :=
  { cmd := 4, n0 := 2, count := 0, last := last, st := st, stopped := false, damaged := [], overruns := 0 }

/-- A command of task 7 is served. -/
def tasking (op : Nat) (ps : List Byte) (t : Task) : State := { serving op ([7, 0] ++ ps) 0 with tasks := [(7, t)] }

theorem witness_unload :
    let s := tasking 0x29 [] atRest
    Serves s 4 0x29 (held 0x29 [7, 0] .started 0) ∧ s.task 7 = some atRest ∧ s.task 8 = none ∧ atRest.run = none ∧
    atRest.mig = none ∧ ({ atRest with tenant := 2 } : Task).tenant ≠ 0 ∧
    ({ atRest with run := some (runOf .running none) } : Task).run.isSome = true ∧
    yields (.unloadImage 4) s (fun t => t.tasks == [] && t.cmds == []) = true := by decide +kernel

theorem witness_RunCommands :
    let ps : List Byte := [0, 0] ++ leBytes 4 3 ++ leBytes 8 5
    let s := tasking 0x2A ps atRest
    let c := held 0x2A ([7, 0] ++ ps) .started 0
    Serves s 4 0x2A c ∧ c.par 0 2 = 7 ∧ c.par 8 8 = 5 ∧ c.par 4 4 = 3 ∧ c.par 8 8 < 2 ^ 48 ∧ s.floorClk ≤ s.cclk ∧
    yields (.runTicks 4) s (fun t => (t.task 7).map (fun k => k.run.map fun r => (r.n0, r.last)) == some (some (5, some 7))) =
      true ∧
    yields (.runTicks 4) (tasking 0x2A ps { atRest with run := some { runOf .running none with cmd := 9 } }) (fun t =>
      t.cmds == []) = true := by decide +kernel

theorem witness_runComplete :
    let s := tasking 0x2A [] { atRest with run := some (runOf .ending none) }
    (∀ sp, sp ∈ atRest.spires → s.listBusy sp = false) ∧ (runOf .ending none).cmd = 4 ∧
    yields (.runTicksComplete 4) s (fun t => t.cmds == []) = true ∧
    yields (.runTicksComplete 4) (tasking 0x2A [] { atRest with run := some (runOf .running none) }) (fun t =>
      t.cmds.length == 1) = true := by decide +kernel

theorem witness_stop :
    let s := tasking 0x2B [] { atRest with run := some (runOf .running none) }
    Serves s 4 0x2B (held 0x2B [7, 0] .started 0) ∧ (runOf .running none).last = none ∧
    yields (.stop 4) s (fun t => (t.task 7).map (fun k => k.run.map fun r => (r.last, r.stopped)) ==
      some (some (some 0, true)) && t.cmds == []) = true := by decide +kernel

theorem witness_cancel :
    Serves (tasking 0x2C [] atRest) 4 0x2C (held 0x2C [7, 0] .started 0) ∧
    Serves (serving 0x2C [0xFF, 0xFF] 0) 4 0x2C (held 0x2C [0xFF, 0xFF] .started 0) ∧
    (held 0x2C [0xFF, 0xFF] .started 0).par 0 2 = 0xFFFF ∧ (held 0x2C [0xFF, 0xFF] .started 0).plen < 6 ∧
    6 ≤ (held 0x2C [0xFF, 0xFF, 0, 0, 0, 0] .started 0).plen := by decide +kernel

theorem witness_cancelDispatch :
    let c := held 0x2C [0xFF, 0xFF, 0, 0, 9, 0] .started 0
    let d : Cmd := { held 0x2E [] .started 0 with header := 0x2E + 9 <<< 32, slot := some (0, 3) }
    let s : State := { slotted with cmds := [(4, c), (3, d)], keep := (ringed).keep }
    Serves s 4 0x2C c ∧ dispatchOf c c = false ∧ s.slotSt 0 3 = .waiting := by decide +kernel

/-- A task of two placements, on Spires 0 and 1. -/
def movable : Task :=
  { atRest with
      image := [0, 0, 0, 0, 1, 0, 2, 0] ++ List.replicate 56 0 ++ [1] ++ List.replicate 63 0 ++ [2] ++ List.replicate 63 0 }

theorem witness_MigrateAndDispatch :
    let s := tasking 0x2D [1] movable
    Serves s 4 0x2D (held 0x2D [7, 0, 1] .started 0) ∧ s.task 7 = some movable ∧ imgPlaces movable.image = 2 ∧
    movable.place = 0 ∧ movable.mig = none ∧ movable.old = none ∧
    (∀ sp, sp ∈ plSpires movable.image 1 → s.domOpen sp.toNat = true) := by decide +kernel

theorem witness_migrate_allowed : (tasking 0x2D [1] movable).migrateRefused 7 movable 1 = none ∧
    ((tasking 0x2D [1] movable).setCreg .partSpLo 0 0 1).migrateRefused 7 movable 1 = some (0x05, 0, 0) := by decide +kernel

/-- The same task with a migration whose old placement is still to drain. -/
def moved : Task := { movable with place := 1, old := some 0, mig := some { cmd := 4, place := 1, edge := 3, switched := some 0 } }

theorem witness_migrateDrained :
    let s := tasking 0x2D [1] moved
    s.tasks = [(7, moved)] ∧ s.oldDrained moved 0 = true ∧ ({ s with ns := 100000000 } : State).ns = 100000000 ∧
    yields (.migrateDrained 4) s (fun t => (t.task 7).map (fun k => (k.mig, k.old)) == some (none, none)) = true := by decide +kernel

theorem witness_old_not_drained :
    let s := tasking 0x2D [1] moved
    ({ s with cores := [(0, { Core.reset with epoch := 0, slots := [(0, { Stream.reset with state := 1 })] })] } : State).oldDrained
      moved 0 = false := by decide +kernel

theorem witness_dispatchCommand :
    let ps : List Byte := [0, 0] ++ List.replicate 20 0
    let s := tasking 0x2E ps movable
    let c := held 0x2E ([7, 0] ++ ps) .started 0
    Serves s 4 0x2E c ∧ c.slot = none ∧ movable.spires.contains 0 = true ∧ c.flag 3 7 = false ∧
    s.notHere (BitVec.ofNat 32 (c.par 12 4)) = false ∧ s.slotSt 0 0 = .empty ∧ s.slotSt 0 63 = .empty ∧
    ({ c with slot := some (0, 3), ended := some 0 } : Cmd).ended = some 0 := by decide +kernel

theorem witness_bar_hit : calm.bar2Hits 0 4 = true := by
  unfold State.bar2Hits
  have h : 2 ^ 36 ≤ 2 ^ (36 + Config.bar2Size.toNat) := Nat.pow_le_pow_right (by decide) (by omega)
  have d : calm.domOpen 92 = true := by decide +kernel
  rw [d, Bool.true_and, decide_eq_true_eq]
  exact Nat.le_trans (by decide) h

theorem witness_FunctionResetsAndBar : State.reset.bar2Hits 0 4 = false ∧
    (let s := calm.modQuad 0 fun k => { k with wcacheB := [{ tenant := 2, granule := 0, entry := 0x107 }] }
     (s.bar2Runs 2 0x10 4 .read).1 = some [(0x200010, 4)] ∧ (s.bar2Runs 2 0x10 4 .write).1 = some [(0x200010, 4)]) ∧
    ((posted (parcel 0)).bar2Runs 3 0x10 4 .read).1 = none := by decide +kernel

theorem test_pf_flr : yields .pfFlr (serving 1 [] 0) (fun t => t.cmds == [] && t.creg .ringCfg 0 0 == 0 + CReg.ringCfg.row.reset) =
    true := by decide +kernel

theorem test_vf_flr : yields (.vfFlr 1) ((serving 1 [] 0).setCreg .cupCunit 0 0 0x11) (fun t =>
    t.cmds.length == 1 && t.unitOwner false 0 == none) = true := by decide +kernel

/-! ### Power -/

/-- Domain `n` in a state. -/
def domIn (n : Nat) (d : Dom) : State := calm.modDom n fun _ => d

theorem witness_DomainRequests :
    passes [.pdmDreq] = true ∧ (domIn 5 Dom.reset).parentsOn 5 = true ∧ (domIn 68 Dom.reset).parentsOn 5 = false ∧
    (∀ j, j < 96 → ((domIn 5 Dom.reset).dom j).pend = false) ∧ (domIn 5 Dom.reset).ramping < 12 ∧
    calm.spireDisabled 5 = false ∧ calm.childrenOff 5 = true ∧ calm.childrenOff 68 = false ∧ (calm.dom 5).st = .on ∧
    ((domIn 5 { Dom.reset with st := .failed, fails := 2 }).dom 5).st = .failed := by decide +kernel

theorem test_domain_on : yields (.domainOnRequest duet 5) (domIn 5 Dom.reset) (fun t =>
    decide ((t.dom 5).st = .ramp)) = true ∧
    yields (.domainOnRequest duet 96) calm (fun t => bit (t.creg .pdmDreq 0 0) 16) = true := by decide +kernel

theorem test_domain_off : yields (.domainOffRequest duet 84) calm (fun t => decide ((t.dom 84).st = .closing)) = true ∧
    yields (.domainOffRequest duet 84) (ticking false 0 0) (fun t => (t.dom 84).offAtEdge && decide ((t.dom 84).st = .on)) =
      true ∧
    yields (.domainOffRequest duet 93) calm (fun t => bit (t.creg .pdmDreq 0 0) 16) = true := by decide +kernel

theorem test_domain_clear : yields (.domainClear duet 5) (domIn 5 { Dom.reset with st := .failed, fails := 2 }) (fun t =>
    decide ((t.dom 5).st = .off) && (t.dom 5).fails == 3) = true ∧
    yields (.domainClear duet 5) (domIn 5 { Dom.reset with st := .failed, fails := 3 }) (fun t =>
      bit (t.creg .pdmDreq 0 0) 16) = true := by decide +kernel

/-- Domain `n` ramps in a stage since 0, and it is 1 ms later. -/
def rampIn (n stage : Nat) : State :=
  { domIn n { Dom.reset with st := .ramp, stage := stage } with ns := 1000000 }

theorem witness_DomainRamps :
    (rampIn 84 3).switching 84 = true ∧ (rampIn 84 4).switching 84 = false ∧
    ((rampIn 84 0).dom 84).since + 250 * ((rampIn 84 0).creg .pdmRamp 0 0).toNat ≤ (rampIn 84 0).ns ∧
    (674 : Nat) * 10 < (rampIn 84 0).railMv 84 * 9 ∧ (rampIn 84 0).railMv 84 * 9 ≤ 675 * 10 ∧
    bit (rampIn 84 4).fuses.badTrim 84 = false ∧ (rampIn 84 4).power.phase ≠ .boot := by decide +kernel

theorem test_ramp_stage : yields (.rampStageEnd 84 675) (rampIn 84 0) (fun t => (t.dom 84).stage == 1) = true ∧
    yields (.rampStageEnd 84 674) (rampIn 84 0) (fun t => decide ((t.dom 84).st = .failed) && (t.dom 84).cause == 2 &&
      (t.quad 0).reports.map (·.cls) == [0x38]) = true := by decide +kernel

theorem test_domain_init : yields (.domainInitComplete 84 ({ spares := 3, ok := true }, { spares := 4, ok := true })) (rampIn 84 4) (fun t => decide ((t.dom 84).st = .on)) = true := by
  decide +kernel

theorem witness_calibration :
    let cal : BridgeCal × BridgeCal := ({ spares := 3, ok := true }, { spares := 4, ok := true })
    yields (.domainInitComplete 68 cal) (rampIn 68 4) (fun t =>
      t.creg .smfBcalH 0 0 == bcalWord { spares := 3, ok := true } &&
      t.creg .smfBcalV 0 0 == bcalWord { spares := 4, ok := true } && decide ((t.dom 68).st = .on)) = true := by decide +kernel

theorem test_fails_in_service : yields (.failsInService (.domain 94)) calm (fun t =>
    decide ((t.dom 94).st = .failed) && (t.quad 0).reports.map (·.sev) == [1]) = true := by decide +kernel

theorem test_pdm_fails : yields (.failsInService .pdm) calm (fun t =>
    t.power.failed && !t.forwards && (t.quad 0).reports.map (fun r => (r.cls, r.sev)) == [(0x38, 3)]) = true := by decide +kernel

theorem witness_DomainClosing :
    let s := domIn 84 { Dom.reset with st := .closing }
    s.drained 84 = true ∧ (s.modPort 0 fun k => { k with replay := [sent1] }).drained 84 = false ∧
    (s.dom 84).since + 1000 * (s.creg .pdmDrain 0 0).toNat ≤ ({ s with ns := 10 ^ 9 } : State).ns ∧
    yields (.domainDrained 84) s (fun t => decide ((t.dom 84).st = .off)) = true ∧
    yields (.drainTimeout 84) { s with ns := 10 ^ 9 } (fun t => decide ((t.dom 84).st = .off) &&
      (t.quad 0).reports.map (·.cls) == [0x21]) = true := by decide +kernel

theorem witness_spireIdle :
    let s : State := { calm.setCreg .pwrIdle 0 0 5 with ns := 5000000 }
    s.keep.duboette = true ∧ s.spireUsed 0 = false ∧ Store.get 0 s.power.used 0 + 1000000 * 5 ≤ s.ns ∧
    ({ s with tasks := [(7, atRest)] } : State).spireUsed 0 = true ∧
    yields (.spireIdleTimeout 0) s (fun t => decide ((t.dom 0).st = .closing)) = true := by decide +kernel

/-- The device in a phase. -/
def phased (p : Phase) : State := { calm with power := { calm.power with phase := p, pwrReq := true, vrGood := true } }

theorem witness_RetainAndRails :
    (phased .entering).quiet = true ∧ (ticking false 0 0).quiet = false ∧ (phased .entering).power.match_ = false ∧
    (∀ n, n < 96 → ((phased .entering).dom n).st ≠ .ramp) ∧ (phased .waking).power.perstWake = false := by decide +kernel

theorem test_retain : yields .retainEntry (phased .entering) (fun t =>
    decide (t.power.phase = .retain) && decide ((t.dom 7).st = .retained) && ! t.power.pwrReq) = true ∧
    yields .wakeAddressMatch (phased .retain) (fun t => decide (t.power.phase = .wakeWait)) = true := by decide +kernel

theorem test_wake : yields .wakeComplete
    ({ phased .waking with doms := [(7, { Dom.reset with st := .retained })], power := { (phased .waking).power with savedCtl := 1 } })
    (fun t => decide (t.power.phase = .on) && decide ((t.dom 7).st = .on) && t.ct.running) = true := by decide +kernel

theorem test_thermtrip : yields .thermtrip (phased .on) (fun t => decide (t.power.phase = .off) && t.creg .pdmLastoff 0 0 == 2) =
    true ∧ yields .vrGoodFall (phased .on) (fun t => decide (t.power.phase = .off) && t.creg .pdmLastoff 0 0 == 1) = true ∧
    yields .alwaysOnRailsFall (phased .on) (fun t => decide (t.power.phase = .dark)) = true := by decide +kernel

theorem witness_PowerLoop : passes [.pwrCtl] = true ∧
    calm.power.window + 1000000 * (calm.creg .pwrWin 0 0).toNat ≤ ({ calm with ns := 10 ^ 9 } : State).ns ∧
    ¬ calm.power.window + 1000000 * (calm.creg .pwrWin 0 0).toNat ≤ calm.ns ∧ ¬ calm.cclk ≤ calm.floorClk ∧
    (calm.setCreg .pwrMinclk 0 0 1600).cclk ≤ (calm.setCreg .pwrMinclk 0 0 1600).floorClk := by decide +kernel

theorem test_pwr_ctl : yields (.pwrCtlWrite duet 900) calm (fun t => (t.creg .pwrCtl 0 0) &&& 0x7FF == 900) = true ∧
    yields (.pwrCtlWrite duet 899) calm (fun t => (t.creg .pwrCtl 0 0) &&& 0x7FF == (calm.creg .pwrCtl 0 0) &&& 0x7FF) = true := by
  decide +kernel

theorem test_window_end :
    let s : State := { calm.setCreg .pwrCtl 0 0 1000 with ns := 10 ^ 9 }
    yields (.powerWindowEnd 1001 0) s (fun t => t.power.verdict == .lower && t.creg .pwrMeas 0 0 == 1001) = true ∧
    yields (.powerWindowEnd 1001 0) (s.setCreg .pwrMinclk 0 0 1600) (fun t =>
      bit (t.creg .pwrStatus 0 0) 2 && (t.quad 0).reports.map (·.cls) == [0x39]) = true := by decide +kernel

/-! ### Errors -/

/-- A report of a class and severity. -/
def grief (cls : Byte) (sev : BitVec 2) : Report :=
  { kind := 4, index := 1, cls := cls, sev := sev, poison := false, count := 2, first := 500, last := 600, detail := 9
    tenant := 3, device := 0, level := 0 }

/-- It as a record. -/
def recorded (cls : Byte) (sev : BitVec 2) (seq : Nat) : HubRec :=
  { rep := grief cls sev, seq := seq, overflow := false, rpt := false, fwd := false }

theorem witness_HubQueue :
    (grief 2 1).mergesWith (grief 2 0) = true ∧ (grief 2 1).mergesWith (grief 3 1) = false ∧
    (({ calm with hubQueue := [recorded 2 0 0], hubSeq := 1 } : State).hubEnter (grief 2 1) false).hubQueue.map (fun h =>
      (h.rep.count, h.rep.sev, h.rpt, h.seq)) = [(4, 1, true, 0)] ∧
    ((calm.hubEnter (grief 2 3) false).toHost).length = 2 ∧ (calm.hubEnter (grief 2 1) false).hubSeq = 1 := by decide +kernel

theorem witness_hub_full :
    let s : State := { calm with hubQueue := List.replicate 256 (recorded 3 0 0) }
    256 ≤ s.hubQueue.length ∧ (s.hubEnter (grief 2 1) false).creg .ehOvf 0 0 = 2 := by decide +kernel

/-- An open entry of a filter. -/
def opened (pend : Nat) : FiltEnt := { rep := grief 0x40 2, pend := pend, since := 500, last := 600 }

theorem witness_SuspectFilter :
    (opened 0).rep.sameSuspect (grief 0x40 2) = true ∧ (opened 0).rep.sameSuspect (grief 0x41 2) = false ∧
    (filterTake [] 100 (grief 0x40 2)).out = [grief 0x40 2] ∧ (filterTake [opened 0] 0 (grief 0x40 2)).out = [] ∧
    (filterTake [opened 0] 0 (grief 0x40 2)).ents.map (·.pend) = [2] ∧
    (filterTake [opened 5] 10 { grief 0x40 2 with first := 511 }).out.map (·.count) = [5, 2] := by decide +kernel

theorem witness_ReportsPass :
    let s := calm.modQuad 1 fun k => { k with reports := [grief 2 0], filter := [opened 3] }
    (s.quad 1).reports = [grief 2 0] ∧ (s.quad 1).filter[0]? = some (opened 3) ∧ (s.quad 1).filter[1]? = none ∧
    ((2 : Byte).toNat < 0x40) ∧ (filterTake (s.quad 1).filter 1000 (grief 0x40 2)).full = false ∧
    ({ calm with grpFilter := [opened 0] } : State).grpFilter[0]? = some (opened 0) ∧
    (opened 3).rep.first + 5 * (100000 * ((s.creg .ehWin 0 0).toNat % 2 ^ 14)) ≤ ({ s with ns := 10 ^ 12 } : State).ns ∧
    s.ns < (opened 3).rep.first + 100000 * ((s.creg .ehWin 0 0).toNat % 2 ^ 14) := by decide +kernel

theorem test_error_report : yields (.errorReport 1) (calm.modQuad 1 fun k => { k with reports := [grief 2 0] }) (fun t =>
    t.hubQueue.map (·.rep.cls) == [2] && (t.quad 1).reports == []) = true := by decide +kernel

theorem witness_HubTakes :
    (grief 2 2).device = calm.devId ∧ calm.isManager = false ∧ (calm.setCreg .skbGroup 0 0 0x10000).isManager = true ∧
    (calm.creg .ehCtl 0 0).getLsbD 0 = false ∧ ((calm.setCreg .ehCtl 0 0 1).creg .ehCtl 0 0).getLsbD 0 = true ∧
    calm.hubLoses (grief 2 2) = false ∧
    ({ calm with hubQueue := List.replicate 256 (recorded 3 0 0) } : State).hubLoses (grief 2 2) = true ∧ (calm.fatal (grief 2 3)).devFault = true ∧ (calm.fatal (grief 2 1)).devFault = false := by decide +kernel

theorem witness_ErrorRegisters : passes [.ehPop, .colInjHi] = true ∧
    ({ calm with hubQueue := [recorded 2 1 0, recorded 3 2 1, recorded 4 2 2] } : State).service =
      [recorded 3 2 1, recorded 4 2 2, recorded 2 1 0] ∧ calm.dbgLevel = 0 ∧ (calm.setCreg .keepDbg 0 0 1).dbgLevel ≠ 0 := by
  decide +kernel

theorem test_eh_pop : yields (.ehPop duet) { calm with hubQueue := [recorded 2 1 0, recorded 3 2 1] } (fun t =>
    t.hubQueue.map (·.seq) == [0]) = true := by decide +kernel

theorem test_inject : yields (.colInjGo duet 1 0x81024005) (calm.setCreg .keepDbg 0 0 1) (fun t =>
    (t.quad 1).reports.map (fun r => (r.kind, r.index, r.cls, r.sev)) == [(4, 5, 2, 1)]) = true := by decide +kernel

/-! ### The Keep -/

/-- A DEBUG_UNLOCK of a mode with a LEN of `n`. -/
def unlock (mode : Byte) (n : Nat) : List Byte := [mode] ++ List.replicate 7 0 ++ leBytes 8 0x1000 ++ leBytes 2 n

theorem witness_DebugAccess :
    let s := serving 0x0B (unlock 1 8) 0
    let c := held 0x0B (unlock 1 8) .started 0
    Serves s 4 0x0B c ∧ c.par 0 1 = 1 ∧ c.par 16 2 = 8 ∧ s.cmdWindow c = false ∧
    (s.setCreg .keepDbg 0 0 0x800).attempts = 8 ∧ (s.setCreg .keepDbg 0 0 0).attempts = 0 ∧
    (held 0x0B (unlock 1 65) .started 0).par 16 2 = 65 ∧ (held 0x0B (unlock 3 140) .started 0).par 16 2 = 140 ∧
    (held 0x0B (unlock 6 0) .started 0).par 0 1 = 6 ∧ s.dbgLevel = 0 ∧ (s.setCreg .keepDbg 0 0 0x801).dbgLevel ≠ 0 := by decide +kernel

theorem witness_debugAnswers :
    yields (.debugStatus 4) (serving 0x0B (unlock 0 0) 0) (fun t => t.cmds == []) = true ∧
    yields (.debugStatus 4) (serving 0x0B (unlock 1 8) 0) (fun t => t.cmds.length == 1) = true ∧
    yields (.debugClose 4) ((serving 0x0B (unlock 4 0) 0).setCreg .keepDbg 0 0 0x802) (fun t => t.cmds == []) = true := by decide +kernel

/-- The bytes of a token of level 2 for serial 0 and nonce 5. -/
def token : List Byte := leBytes 4 0x4E454B54 ++ leBytes 6 0 ++ [2, 1] ++ leBytes 32 5 ++ List.replicate 96 0

/-- A state in which that token is right, where the signature verifies. -/
theorem witness_TokensTaken (s : State) (hs : s.fuses.serial = 0) (hn : s.keep.nonce = some 5) (hl : s.keep.lifecycle = 1)
    (hb : s.fuses.badDebug = false)
    (hv : Config.ecdsaHashOk s.fuses.debugKey (token.take 44) ((token.drop 44).take 96) = true) : s.tokenRight token = true := by
  unfold State.tokenRight
  rw [hs, hn, hl, hb, hv]
  decide +kernel

theorem witness_ResetsAndBoot :
    passes [.keepRst] = true ∧ (phased .dark).power.phase = .dark ∧ calm.mgrStrap = false ∧ (calm.dom 93).st ≠ .failed := by
  decide +kernel

theorem test_cold_boot : yields (.coldBoot 0x11 []) (phased .dark) (fun t =>
    decide (t.power.phase = .bootWait) && t.power.straps == 0x11) = true := by decide +kernel

theorem test_reset_key : yields (.deviceReset duet 0x5EEC) calm (fun t => decide (t.power.phase = .on)) = true := by decide +kernel

theorem witness_SlotsChecked : calm.slotCheck { header := [], body := [] } = 1 := by decide +kernel

theorem witness_ClusterControl : passes [.bfcCtl] = true ∧ calm.gate duet (calm.agentPriv duet) .bfcCtl 1 = .ok := by decide +kernel

theorem test_hold : yields (.bfcHoldWrite duet 1 3) (calm.setCreg .bfcCtl 1 0 0xF) (fun t =>
    t.creg .bfcCtl 1 0 == 3 && (t.bel 4) == calm.bel 4 && ! (t.bel 6).held) = true := by decide +kernel

theorem test_cluster_reset : yields (.clusterReset duet 1 0x10F) (calm.modQuad 1 fun k => { k with l2 := [(1, { data := 0xAA <<< 72, dirty := 0x200, bad := 0 })] })
    (fun t => (t.quad 1).l2 == [] && t.far.byte 0x49 == 0xAA && (t.bel 5).held) = true := by decide +kernel

theorem witness_svn : passes [.keepCtl] = true ∧
    (let hdr : List Byte := List.replicate 8 0 ++ [5, 1] ++ List.replicate 502 0
     let s : State := { calm with keep := { calm.keep with booted := true, flash := [{ header := hdr, body := [] }] } }
     leNat ((s.bootImage.header.drop 8).take 4) = 0x105 ∧ s.fuses.svn < 0x105 % 64 ∧
     yields (.svnCommit duet) s (fun t => t.fuses.svn == 5 && t.creg .keepSvn 0 0 == 5) = true) := by decide +kernel

theorem witness_KeepCommands : passes [.keepMbctl, .keepLcreq, .ocuHalt] = true ∧ calm.keep.progSlot = none ∧
    ({ calm with keep := { calm.keep with booted := true, slot := true } } : State).keep.slot = true ∧
    ({ calm with keep := { calm.keep with progSlot := some true } } : State).keep.progSlot = some true ∧
    (calm.setCreg .keepDbg 0 0 2).dbgLevel = 2 ∧ calm.tasks = [] ∧ calm.domOpen 0 = true := by decide +kernel

theorem test_flash : yields (.flashProgram duet 2) { calm with keep := { calm.keep with booted := true, slot := true } } (fun t =>
    t.keep.progSlot == none && fld (t.creg .keepMbctl 0 0) 3 2 == 3) = true ∧
    yields (.flashProgram duet 0) { calm with keep := { calm.keep with booted := true, slot := true } } (fun t =>
      t.keep.progSlot == some false && fld (t.creg .keepMbctl 0 0) 3 2 == 1) = true := by decide +kernel

theorem test_ocu_halt : yields (.ocuHaltWrite duet 1) (calm.setCreg .keepDbg 0 0 1) (fun t =>
    (t.thread { core := 0, thread := 1 }).ltn.edge.getLsbD 30) = true := by decide +kernel

theorem test_scan : yields .scanModeEntry (calm.setCreg .keepDbg 0 0 2) (fun t => t.keep.scan) = true ∧
    yields .scanModeEntry (calm.setCreg .keepDbg 0 0 1) (fun t => ! t.keep.scan) = true := by decide +kernel

theorem witness_Attestation : calm.domOpen 93 = true ∧ calm.domOpen 92 = true ∧ State.reset.domOpen 92 = false ∧
    yields .getVersion calm (fun t => t.keep.spdm == calm.keep.spdm ++ [.version]) = true ∧
    yields (.getMeasurements 0) { calm with keep := { calm.keep with lifecycle := 1 } } (fun t =>
      t.keep.spdm == calm.keep.spdm ++ [.measurements []]) = true := by decide +kernel

theorem witness_BusesAndLinks : (0x58 : BitVec 7).toNat = 0x58 + calm.power.straps.toNat % 8 ∧ calm.power.phase = .on ∧
    calm.configReady = true ∧ ({ calm with keep := { calm.keep with duboette := false, lifecycle := 1 } } : State).configReady =
      false := by decide +kernel

theorem test_smbus : yields (.smbusBlockRead 0x58 ⟨1, false⟩) (calm.setCreg .pdmWakes 0 0 7) (fun t =>
    t.smbus == [[4, 7, 0, 0, 0]] && t.creg .pdmWakes 0 0 == 0) = true ∧
    yields (.smbusBlockRead 0x59 ⟨1, false⟩) calm (fun t => t.smbus == []) = true ∧
    yields (.smbusBlockRead 0x58 ⟨0, true⟩) (phased .retain) (fun t => decide (t.power.phase = .wakeWait) && t.smbus == []) = true := by
  decide +kernel

theorem test_link : yields (.linkSignalLoss 0) (port0 2 0) (fun t => t.portState 0 == 0) = true ∧
    yields (.linkSignalLoss 0) (port0 4 0) (fun t => t.portState 0 == 4) = true ∧
    yields (.hostLinkTraining .gen6 .x16) calm (fun t => t.creg .hifLink 0 0 == 0x10106) = true := by decide +kernel

theorem test_configuration : yields (.configurationRequest 16 0 none) calm (fun t => t.toHost == [.unsupported]) = true ∧
    yields (.configurationRequest 15 0 (some 1)) calm (fun t => t.toHost == [.ok]) = true := by decide +kernel

end Sys2Proof.Tests
end

/-! PROOF. The control space from any agent: what a write does to a register without behaviour of its own, what a read
answers, and which accesses reach nothing (O22). -/

namespace Sys2Proof.Machine

open Sys2Proof

/-! ### The commands -/

theorem exec_registerWrite (s : State) (ag : Agent) (addr : BitVec 32) (v : Word) :
    exec (.registerWrite ag addr v) s = execRegisterWrite ag addr v s := rfl

theorem exec_readClearAccess (s : State) (ag : Agent) (addr : BitVec 32) :
    exec (.readClearAccess ag addr) s = execReadClearAccess ag addr s := rfl

theorem exec_bar0Access (s : State) (fn : BitVec 4) (off : BitVec 32) (size : Nat) (wr : Option Word) :
    exec (.bar0Access fn off size wr) s = execBar0Access fn off size wr s := rfl

theorem exec_jtagInstruction (s : State) (j : JtagOp) : exec (.jtagInstruction j) s = execJtagInstruction j s := rfl

/-- A thread's write holds its refusal for it (R313). -/
theorem exec_registerWrite_thread (s : State) (x : Tid) {addr : BitVec 32} (v : Word) (ha : addr.toNat % 4 = 0) :
    exec (.registerWrite (.thread x) addr v) s =
      .next ((s.writeCtl (.thread x) (s.agentPriv (.thread x)) addr.toNat v).1.modThread x fun th =>
        th.holdRefusal (s.writeCtl (.thread x) (s.agentPriv (.thread x)) addr.toNat v).2) := by
  simp [exec_registerWrite, execRegisterWrite, ha]

theorem exec_registerWrite_of_not_thread (s : State) {ag : Agent} {addr : BitVec 32} (v : Word) (ha : addr.toNat % 4 = 0)
    (hag : ∀ x, ag ≠ .thread x) :
    exec (.registerWrite ag addr v) s = .next (s.writeCtl ag (s.agentPriv ag) addr.toNat v).1 := by
  cases ag with
  | thread x => exact absurd rfl (hag x)
  | belfry | host | jtag => simp [exec_registerWrite, execRegisterWrite, ha]

theorem exec_readClearAccess_host (s : State) (fn : BitVec 4) {addr : BitVec 32} (ha : addr.toNat % 4 = 0) :
    exec (.readClearAccess (.host fn) addr) s =
      .next ((s.readCtl (.host fn) addr.toNat).2.hostOut (.data (leBytes 4 (s.readCtl (.host fn) addr.toNat).1.toNat))) := by
  simp [exec_readClearAccess, execReadClearAccess, ha, State.deliverRead]

/-! ### Accesses that reach no register -/

theorem exec_registerWrite_misaligned (s : State) (ag : Agent) {addr : BitVec 32} (v : Word) (ha : addr.toNat % 4 ≠ 0) :
    exec (.registerWrite ag addr v) s = .next (s.misalignedCtl ag addr) := by
  simp [exec_registerWrite, execRegisterWrite, ha]

theorem exec_readClearAccess_misaligned (s : State) (ag : Agent) {addr : BitVec 32} (ha : addr.toNat % 4 ≠ 0) :
    exec (.readClearAccess ag addr) s = .next (s.misalignedCtl ag addr) := by
  simp [exec_readClearAccess, execReadClearAccess, ha]

@[simp] theorem State.misalignedCtl_host (s : State) (fn : BitVec 4) (addr : Word) :
    s.misalignedCtl (.host fn) addr = s := rfl

@[simp] theorem State.misalignedCtl_jtag (s : State) (addr : Word) : s.misalignedCtl .jtag addr = s := rfl

@[simp] theorem State.misalignedCtl_belfry (s : State) (b : BCore) (addr : Word) :
    s.misalignedCtl (.belfry b) addr = s.belfryEnter b 0x03 (addr.setWidth 64) 0 := rfl

theorem State.misalignedCtl_thread_running {s : State} {x : Tid} (h : (s.thread x).status = .running) (addr : Word) :
    s.misalignedCtl (.thread x) addr = s.syncExc x 0x03 addr (s.thread x).pc .other := by
  simp [State.misalignedCtl, h]

/-- What the four kinds of agent get for an address that is no multiple of 4, for either command that answers it by
`State.misalignedCtl` (R209, log 15). -/
theorem misaligned_outcomes {s : State} {addr : BitVec 32} {c : Agent → Instr}
    (hc : ∀ ag, exec (c ag) s = .next (s.misalignedCtl ag addr)) (fn : BitVec 4) :
    exec (c (.host fn)) s = .next s ∧ exec (c .jtag) s = .next s ∧
      (∀ b, exec (c (.belfry b)) s = .next (s.belfryEnter b 0x03 (addr.setWidth 64) 0)) ∧
      ∀ x, (s.thread x).status = .running →
        exec (c (.thread x)) s = .next (s.syncExc x 0x03 addr (s.thread x).pc .other) :=
  ⟨by simp [hc], by simp [hc], by simp [hc], fun x hx => by rw [hc, State.misalignedCtl_thread_running hx]⟩

/-- BAR0 takes aligned accesses of 4 bytes alone (R406). -/
theorem exec_bar0Access_malformed {s : State} (fn : BitVec 4) {off : BitVec 32} {size : Nat} (wr : Option Word)
    (hd : s.domOpen 92 = true) (hm : size ≠ 4 ∨ off.toNat % 4 ≠ 0) :
    exec (.bar0Access fn off size wr) s = .next (if wr.isNone then s.hostOut .unsupported else s) := by
  rw [exec_bar0Access, execBar0Access, if_neg (by simp [hd]), if_pos hm]

/-! ### BAR0 of the PF -/

/-- Below the quadrants' blocks the PF's BAR0 reaches the control space at the same offset (R405). -/
theorem bar0Map_pf {off : Nat} (h : off < 0x1000000) : bar0Map 0#4 off = some off := by
  simp [bar0Map, h]

theorem exec_bar0Access_pf_read {s : State} {off : BitVec 32} (hd : s.domOpen 92 = true) (ha : off.toNat % 4 = 0)
    (hlt : off.toNat < 0x1000000) :
    exec (.bar0Access 0 off 4 none) s =
      .next ((s.readCtl (.host 0) off.toNat).2.hostOut (.data (leBytes 4 (s.readCtl (.host 0) off.toNat).1.toNat))) := by
  simp [exec_bar0Access, execBar0Access, hd, ha, bar0Map_pf hlt, State.deliverRead]

theorem exec_bar0Access_pf_write {s : State} {off : BitVec 32} (v : Word) (hd : s.domOpen 92 = true)
    (ha : off.toNat % 4 = 0) (hlt : off.toNat < 0x1000000) :
    exec (.bar0Access 0 off 4 (some v)) s = .next (s.writeCtl (.host 0) .machine off.toNat v).1 := by
  simp [exec_bar0Access, execBar0Access, hd, ha, bar0Map_pf hlt, State.agentPriv]

/-! ### Register writes by the access codes -/

/-- A plain write bit by bit (R11, R13). -/
theorem RegRow.getLsbD_write (w : RegRow) (old v : Word) {k : Nat} (hk : k < 32) :
    (w.write old v).getLsbD k = ((((if w.rw.getLsbD k then v.getLsbD k else old.getLsbD k) &&
      ! (v.getLsbD k && w.w1c.getLsbD k))) || (v.getLsbD k && w.w1s.getLsbD k)) := by
  simp only [RegRow.write, BitVec.getLsbD_or, BitVec.getLsbD_and, BitVec.getLsbD_not, hk, decide_true, Bool.true_and]
  cases w.rw.getLsbD k <;> simp

/-- State `t` is `s` but for one register, which took `v` by its access codes. -/
def State.WroteAlone (s t : State) (r : CReg) (u k : Nat) (v : Word) : Prop :=
  { t with
      regs := s.regs
      threads := s.threads } = s ∧ (∀ y, t.thread y = s.thread y) ∧
  t.creg r u k = r.row.write (s.creg r u k) v ∧
  ∀ r' u' k', r'.addr u' k' ≠ r.addr u k → t.creg r' u' k' = s.creg r' u' k'

theorem State.plainWrite_wroteAlone (s : State) (r : CReg) (u k : Nat) (v : Word) :
    s.WroteAlone (s.plainWrite r u k v) r u k v :=
  ⟨rfl, fun _ => rfl, State.creg_setCreg_same .., fun _ _ _ h => State.creg_setCreg_other s h _⟩

/-- A change of a thread's record that leaves it as it is leaves every thread's record. -/
theorem State.thread_modThread_of_fixed {s : State} {x : Tid} {f : Thread → Thread} (hf : f (s.thread x) = s.thread x)
    (y : Tid) : (s.modThread x f).thread y = s.thread y := by
  by_cases hy : y = x
  · rw [hy, State.thread_modThread_same, hf]
  · exact State.thread_modThread_other s hy f

theorem State.WroteAlone.holdNoRefusal {s t : State} {r : CReg} {u k : Nat} {v : Word} (h : s.WroteAlone t r u k v)
    (x : Tid) : s.WroteAlone (t.modThread x fun th => th.holdRefusal none) r u k v := by
  obtain ⟨hrest, hthreads, hreg, hother⟩ := h
  exact ⟨hrest, fun y => (State.thread_modThread_of_fixed rfl y).trans (hthreads y), hreg, hother⟩

/-! ### Gates -/

theorem State.gate_thread_closed {s : State} (x : Tid) (p : Priv) {r : CReg} {u : Nat} (h : s.blockOpen r u = false) :
    s.gate (.thread x) p r u = .refuse 0x12 := by
  simp [State.gate, State.hasWay, State.outOfReach, agentIsThread, h]

theorem State.hasWay_pf {s : State} (r : CReg) (u : Nat) (h : bit (s.creg .keepBootstat 0 0) 7 = false) :
    s.hasWay (.host 0) r u = true := by
  simp [State.hasWay, h]

/-! ### Registers without behaviour of their own -/

/-- Registers that a write changes by their access codes and a read shows as stored. -/
inductive CReg.Plain : CReg → Prop
  | bicCtl : Plain .bicCtl
  | pcLock : Plain .pcLock
  | tickLead : Plain .tickLead
  | pwrCclk : Plain .pwrCclk
  | pwrIdle : Plain .pwrIdle
  | cupClim : Plain .cupClim
  | matAbft : Plain .matAbft
  | trtCtl : Plain .trtCtl
  | ehCtl : Plain .ehCtl
  | skbStarve : Plain .skbStarve
  | hifB2base : Plain .hifB2base
  | sbdSsc : Plain .sbdSsc
  | smfRepair : Plain .smfRepair
  | routeCtl : Plain .routeCtl

theorem CReg.plain_of_mem {r : CReg}
    (hr : r ∈ [CReg.bicCtl, .pcLock, .tickLead, .pwrCclk, .pwrIdle, .cupClim, .matAbft, .trtCtl, .ehCtl, .skbStarve,
      .hifB2base, .sbdSsc, .smfRepair, .routeCtl]) : r.Plain := by
  simp only [List.mem_cons, List.not_mem_nil, or_false] at hr
  rcases hr with rfl | rfl | rfl | rfl | rfl | rfl | rfl | rfl | rfl | rfl | rfl | rfl | rfl | rfl <;> constructor

theorem State.regWritten_of_plain {r : CReg} (hr : r.Plain) (s : State) (ag : Agent) (p : Priv) (u k : Nat)
    (v : Word) : s.regWritten ag p r u k v = s.plainWrite r u k v := by
  cases hr <;> rfl

/-- A read shows the stored bits, and clears what the access code RC names (R12). -/
theorem State.readReg_of_plain {r : CReg} (hr : r.Plain) (s : State) (ag : Agent) (u k : Nat) :
    s.readReg ag r u k = (s.creg r u k &&& r.row.shown,
      if r.row.rc = 0 then s else s.setCreg r u k (s.creg r u k &&& ~~~ r.row.rc)) := by
  cases hr <;> rfl

theorem CReg.plain_ne_swap {r : CReg} (hr : r.Plain) :
    ¬ (r = .smfSwapLo ∨ r = .smfSwapHi ∨ r = .smfSwapctl) := by
  cases hr <;> decide

/-- Control address `a` is that of copy `k` of plain register `r` of unit `u`. -/
structure PlainAt (a : Nat) (r : CReg) (u k : Nat) : Prop where
  plain : r.Plain
  located : locate a = some (r, u, k)
  noSplLock : splLockAt a = none
  noLantern : lanternAt a = none
  lt : a < 2 ^ 32
  aligned : a % 4 = 0

namespace PlainAt

variable {s : State} {a u k : Nat} {r : CReg}

theorem named_eq (h : PlainAt a r u k) : named a = some (r, u, k) := by
  simp [named, h.located, CReg.plain_ne_swap h.plain]

theorem toNat_addr (h : PlainAt a r u k) : (BitVec.ofNat 32 a).toNat = a := by
  rw [BitVec.toNat_ofNat, Nat.mod_eq_of_lt h.lt]

theorem addr_aligned (h : PlainAt a r u k) : (BitVec.ofNat 32 a).toNat % 4 = 0 := by
  rw [h.toNat_addr, h.aligned]

theorem writeCtl_eq (h : PlainAt a r u k) (ag : Agent) (p : Priv) (v : Word) :
    s.writeCtl ag p a v = s.through (s.gate ag p r u) ag a fun s => s.plainWrite r u k v := by
  simp only [State.writeCtl, h.noSplLock, h.noLantern, h.named_eq, State.regWritten_of_plain h.plain]

theorem writeCtl_of_ok (h : PlainAt a r u k) {ag : Agent} {p : Priv} (hg : s.gate ag p r u = .ok) (v : Word) :
    s.writeCtl ag p a v = (s.plainWrite r u k v, none) := by
  rw [h.writeCtl_eq, hg, State.through]

theorem writeCtl_of_ignore (h : PlainAt a r u k) {ag : Agent} {p : Priv} (hg : s.gate ag p r u = .ignore) (v : Word) :
    s.writeCtl ag p a v = (s, none) := by
  rw [h.writeCtl_eq, hg, State.through]

theorem writeCtl_of_closed (h : PlainAt a r u k) (x : Tid) (p : Priv) (hb : s.blockOpen r u = false) (v : Word) :
    s.writeCtl (.thread x) p a v = (s, some (0x12, BitVec.ofNat 32 a)) := by
  rw [h.writeCtl_eq, State.gate_thread_closed x p hb, State.through]

theorem readCtl_host (h : PlainAt a r u k) {fn : BitVec 4} (hw : s.hasWay (.host fn) r u = true)
    (hb : s.blockOpen r u = true) (hrc : r.row.rc = 0) :
    s.readCtl (.host fn) a = (s.creg r u k &&& r.row.shown, s) := by
  have hreach : s.readReaches (.host fn) a = true := by simp [State.readReaches, h.named_eq, hw, State.outOfReach]
  have hopen : s.addrOpen a = true := by simp [State.addrOpen, h.named_eq, hb]
  simp [State.readCtl, hreach, hopen, h.noSplLock, h.noLantern, h.named_eq, State.readReg_of_plain h.plain, hrc]

/-- A write that the gate lets through changes its register alone, whoever makes it. -/
theorem registerWrite_of_ok (h : PlainAt a r u k) {ag : Agent} (hg : s.gate ag (s.agentPriv ag) r u = .ok) (v : Word) :
    ∃ t, exec (.registerWrite ag (BitVec.ofNat 32 a) v) s = .next t ∧ s.WroteAlone t r u k v := by
  have hw := h.writeCtl_of_ok hg v
  by_cases hag : ∃ x, ag = .thread x
  · obtain ⟨x, rfl⟩ := hag
    refine ⟨_, exec_registerWrite_thread s x v h.addr_aligned, ?_⟩
    rw [h.toNat_addr, hw]
    exact (s.plainWrite_wroteAlone r u k v).holdNoRefusal x
  · refine ⟨_, exec_registerWrite_of_not_thread s v h.addr_aligned (not_exists.mp hag), ?_⟩
    rw [h.toNat_addr, hw]
    exact s.plainWrite_wroteAlone r u k v

theorem registerWrite_of_ignore (h : PlainAt a r u k) {ag : Agent} (hg : s.gate ag (s.agentPriv ag) r u = .ignore)
    (hag : ∀ x, ag ≠ .thread x) (v : Word) : exec (.registerWrite ag (BitVec.ofNat 32 a) v) s = .next s := by
  rw [exec_registerWrite_of_not_thread s v h.addr_aligned hag, h.toNat_addr, h.writeCtl_of_ignore hg]

theorem registerWrite_of_closed (h : PlainAt a r u k) (x : Tid) (hb : s.blockOpen r u = false) (v : Word) :
    exec (.registerWrite (.thread x) (BitVec.ofNat 32 a) v) s =
      .next (s.modThread x fun th => th.holdRefusal (some (0x12, BitVec.ofNat 32 a))) := by
  rw [exec_registerWrite_thread s x v h.addr_aligned, h.toNat_addr, h.writeCtl_of_closed x _ hb]

theorem readClearAccess_host (h : PlainAt a r u k) {fn : BitVec 4} (hw : s.hasWay (.host fn) r u = true)
    (hb : s.blockOpen r u = true) (hrc : r.row.rc = 0) :
    exec (.readClearAccess (.host fn) (BitVec.ofNat 32 a)) s =
      .next (s.hostOut (.data (leBytes 4 (s.creg r u k &&& r.row.shown).toNat))) := by
  rw [exec_readClearAccess_host s fn h.addr_aligned, h.toNat_addr, h.readCtl_host hw hb hrc]

theorem bar0Read_pf (h : PlainAt a r u k) (hd : s.domOpen 92 = true) (ha : a < 0x1000000)
    (hb : s.blockOpen r u = true) (hk : bit (s.creg .keepBootstat 0 0) 7 = false) (hrc : r.row.rc = 0) :
    exec (.bar0Access 0 (BitVec.ofNat 32 a) 4 none) s =
      .next (s.hostOut (.data (leBytes 4 (s.creg r u k &&& r.row.shown).toNat))) := by
  rw [exec_bar0Access_pf_read hd h.addr_aligned (by rwa [h.toNat_addr]), h.toNat_addr,
    h.readCtl_host (State.hasWay_pf r u hk) hb hrc]

theorem bar0Write_pf (h : PlainAt a r u k) (hd : s.domOpen 92 = true) (ha : a < 0x1000000)
    (hg : s.gate (.host 0) .machine r u = .ok) (v : Word) :
    exec (.bar0Access 0 (BitVec.ofNat 32 a) 4 (some v)) s = .next (s.plainWrite r u k v) := by
  rw [exec_bar0Access_pf_write v hd h.addr_aligned (by rwa [h.toNat_addr]), h.toNat_addr, h.writeCtl_of_ok hg]

end PlainAt

/-! ### JTAG (R492) -/

/-- The IDCODE's fields lie side by side: a marker bit, the manufacturer's code, the part number and the revision. -/
theorem idcode_fields : ∃ (m : BitVec 11) (r : BitVec 4),
    idcode.toNat = 1 + m.toNat * 2 + 0x2A04000 + r.toNat * 0x10000000 := by
  refine ⟨Config.manufacturer, Config.revision, ?_⟩
  unfold idcode
  generalize Config.manufacturer = m
  generalize Config.revision = r
  rw [BitVec.toNat_ofNat]
  omega

theorem idcode_marker : idcode.getLsbD 0 = true := by
  obtain ⟨m, r, h⟩ := idcode_fields
  rw [BitVec.getLsbD, h, Nat.testBit_zero, decide_eq_true_iff]
  omega

theorem idcode_part : idcode.extractLsb' 12 16 = 0x2A04#16 := by
  obtain ⟨m, r, h⟩ := idcode_fields
  apply BitVec.eq_of_toNat_eq
  rw [BitVec.extractLsb'_toNat, h, Nat.shiftRight_eq_div_pow, BitVec.toNat_ofNat]
  omega

theorem exec_jtagInstruction_idcode {s : State} (hd : s.domOpen 93 = true) :
    exec (.jtagInstruction .idcode) s = .next (s.jtagSelect .idcode (some idcode)) := by
  simp [exec_jtagInstruction, execJtagInstruction, hd]

theorem exec_jtagInstruction_bypass {s : State} (hd : s.domOpen 93 = true) :
    exec (.jtagInstruction .bypass) s = .next (s.jtagSelect .bypass none) := by
  simp [exec_jtagInstruction, execJtagInstruction, hd]

theorem State.jtagReaches_of_closed {s : State} (h : s.dbgLevel = 0) (a : Nat) : s.jtagReaches a = false := by
  simp [State.jtagReaches, h]

theorem exec_jtagInstruction_scan_closed {s : State} (h : s.dbgLevel = 0) {j : JtagOp} (hj : j = .sample ∨ j = .extest) :
    exec (.jtagInstruction j) s = .next s := by
  rcases hj with rfl | rfl <;> simp [exec_jtagInstruction, execJtagInstruction, h]

theorem exec_jtagInstruction_access_closed {s : State} (h : s.dbgLevel = 0) (addr : BitVec 32) (wr : Option Word) :
    exec (.jtagInstruction (.access addr wr)) s = .next s := by
  simp [exec_jtagInstruction, execJtagInstruction, State.jtagReaches_of_closed h]

/-- Settles O22: the command equations above, with `PlainAt` for the fourteen plain registers. -/
theorem controlSpaceAccess : Obligations.ControlSpaceAccess := by
  unfold Obligations.ControlSpaceAccess
  refine ⟨fun w old v k hk => w.getLsbD_write old v hk, ?_, ?_⟩
  · intro s r u k v hr a hl hs hn hlt ha addr shown wrote
    have h : PlainAt a r u k := ⟨CReg.plain_of_mem hr, hl, hs, hn, hlt, ha⟩
    refine ⟨fun ag hg => h.registerWrite_of_ok hg v, fun ag hg hag => h.registerWrite_of_ignore hg hag v,
      fun x hb => h.registerWrite_of_closed x hb v, fun fn hw hb hrc => h.readClearAccess_host hw hb hrc, ?_⟩
    intro hd hpf hb hk
    exact ⟨fun hrc => h.bar0Read_pf hd hpf hb hk hrc,
      fun hg => ⟨_, h.bar0Write_pf hd hpf hg v, s.plainWrite_wroteAlone r u k v⟩⟩
  · intro s fn off size v addr
    refine ⟨?_, fun hd hm => ⟨exec_bar0Access_malformed fn none hd hm, exec_bar0Access_malformed fn (some v) hd hm⟩, ?_⟩
    · intro ha
      exact List.forall_mem_cons.mpr ⟨misaligned_outcomes (fun ag => exec_registerWrite_misaligned s ag v ha) fn,
        List.forall_mem_singleton.mpr (misaligned_outcomes (fun ag => exec_readClearAccess_misaligned s ag ha) fn)⟩
    · intro hd
      exact ⟨⟨_, exec_jtagInstruction_idcode hd, rfl, ⟨idcode, rfl, idcode_marker, idcode_part⟩, rfl⟩,
        ⟨_, exec_jtagInstruction_bypass hd, rfl, rfl⟩,
        fun h => ⟨exec_jtagInstruction_scan_closed h (.inl rfl), exec_jtagInstruction_scan_closed h (.inr rfl),
          exec_jtagInstruction_access_closed h addr (some v), exec_jtagInstruction_access_closed h addr none⟩⟩

end Sys2Proof.Machine
